-- ==== Sys2Proof/Word.lean ====
section
/-!
DEFINITION. The word types of the IZ640: bytes, 32-bit words, 64-bit dwords (R3, R4, R186).
-/
namespace Sys2Proof

/-- One byte of memory. -/
abbrev Byte := BitVec 8

/-- A 32-bit word: an instruction word (R280) or a vector lane word (R186). -/
abbrev Word := BitVec 32

/-- A 64-bit dword: a scalar register (R186), a state register or a memory-mapped register (R454). -/
abbrev Dword := BitVec 64

end Sys2Proof
end

