-- ==== Sys2Proof/Syntax.lean ====
section
/-!
DEFINITION. The abstract syntax: the prefix words and main-word fields (R280 to R289), the data that events carry,
and `Instr`, with one constructor for each row of the table of instructions and steps (R292; the file on what each
step holds).  An instruction constructor carries its prefixes and its fields; an event constructor carries the data
of one indivisible step of the device or of an input to it.
-/
namespace Sys2Proof

/-- The REP prefix payload (R287): count, with 0 meaning 64, and the step codes of d, a and b. -/
structure Rep where
  count : BitVec 6
  ds : BitVec 2
  as : BitVec 2
  bs : BitVec 2
  deriving DecidableEq, Repr

/-- The MOD prefix payload (R287). -/
structure Mod where
  pred : BitVec 4
  neg : Bool
  type : BitVec 5
  order : BitVec 2
  scope : BitVec 3
  space : BitVec 3
  hint : BitVec 2
  round : BitVec 3
  sat : Bool
  deriving DecidableEq, Repr

/-- With no MOD prefix every field reads zero (R287). -/
def Mod.zero : Mod := ⟨0, false, 0, 0, 0, 0, 0, 0, false⟩

/-- The optional prefixes of one instruction, in the order of R280. -/
structure Pfx where
  rep : Option Rep
  mod : Option Mod
  ext : Option (BitVec 24)
  deriving DecidableEq, Repr

/-- No prefix word. -/
def Pfx.none : Pfx := ⟨Option.none, Option.none, Option.none⟩

/-- The MOD fields in force (R287). -/
def Pfx.m (x : Pfx) : Mod := x.mod.getD Mod.zero

/-- The register fields and wait-or-trap bits of a three-register word (R283, R285). -/
structure RRR where
  d : BitVec 7
  a : BitVec 7
  b : BitVec 7
  wa : Bool
  wb : Bool
  deriving DecidableEq, Repr

/-- The fields of an RI word (R283). -/
structure RI where
  d : BitVec 7
  a : BitVec 7
  imm : BitVec 11
  wa : Bool
  deriving DecidableEq, Repr

/-- The fields of an LI word (R283). -/
structure LI where
  d : BitVec 7
  imm : BitVec 19
  deriving DecidableEq, Repr

/-- The fields of a BR word (R283). -/
structure BR where
  a : BitVec 7
  cc : BitVec 3
  off : BitVec 16
  deriving DecidableEq, Repr

/-- The fields of a TS word (R283): vector register, tile, row or column, scalar index, offset. -/
structure TS where
  d : BitVec 7
  t : BitVec 4
  rc : Bool
  s : BitVec 7
  imm : BitVec 7
  deriving DecidableEq, Repr

/-- A fabric packet, field by field (R161 to R163).  `data` and `cmp` are the line's data flits, byte i of the line in
bits 8i+7 to 8i; `desc` is the descriptor of a WINRSP; `count` and `payload` are those of a NOTICE (R44, R163); `rsv` is
what the header's reserved bits hold (R162).  `plane` is the logical plane that the packet travels on and `port` the
physical port it leaves by (R154), and `hop` tells a RECALL or RECACK between an owner and the switch of its plane from one
between a switch and a holder (R166, R167; log 22): no fields of the header. -/
structure Flit where
  typ : BitVec 5
  src : BitVec 10
  dst : BitVec 10
  win : BitVec 6
  gen : BitVec 8
  tag : BitVec 12
  core : BitVec 10
  scope : BitVec 3
  key : BitVec 32
  ticket : BitVec 16
  slot : BitVec 4
  sect : BitVec 4
  order : BitVec 2
  replay : Bool
  fc : Bool
  excl : Bool
  nf : Bool
  line : BitVec 50
  aop : BitVec 3
  atype : BitVec 5
  bmask : BitVec 64
  status : BitVec 8
  pois : BitVec 4
  dirty : BitVec 4
  grant : Bool
  tkt : BitVec 32
  data : BitVec 512
  cmp : BitVec 512
  desc : BitVec 256
  count : BitVec 4
  payload : BitVec 216
  rsv : BitVec 21
  plane : BitVec 6
  port : BitVec 6
  hop : Bool
  deriving DecidableEq, Repr

/-- A write to a register of BAR0 (R454): from the host or (src true) the management core, to all 64 bits (half 0),
the low half (1) or the high half (2). -/
structure RegWrite where
  src : Bool
  off : BitVec 20
  half : BitVec 2
  val : BitVec 64
  deriving DecidableEq, Repr

/-- A handoff message (R116, R117) as it arrives: the sender's identity, the header fields and the payload. -/
structure HandoffMsg where
  sender : Nat
  addr : BitVec 128
  jobId : BitVec 24
  tag : BitVec 32
  ordinal : BitVec 32
  chunk : BitVec 3
  opening : Bool
  format : BitVec 128
  l : BitVec 32
  k : BitVec 32
  payload : List Byte
  deriving DecidableEq, Repr

/-- An uncorrectable error (R248): its class and what it struck; of an L2 slice the sectors that it holds dirty. -/
structure HwError where
  cls : BitVec 6
  sector : Nat
  core : Nat
  slot : Nat
  regClass : Nat
  reg : Nat
  elem : Nat
  unit : Nat
  lost : Bool
  dirty : List Nat
  deriving DecidableEq, Repr

/-- A host access to BAR2 (R457): `data` is what a write carries, `len` what a read asks for. -/
structure HostAccess where
  write : Bool
  len : Nat
  data : List Byte
  deriving DecidableEq, Repr

/-- What a guest of the tool cluster does (R427): a load of so many bytes, a store, an atomic memory operation of RISC-V (0
swap, 1 add, 2 xor, 3 and, 4 or, 5 min, 6 max, 7 unsigned min, 8 unsigned max); or tool cores begin to run guests, or none
runs one any more (R426). -/
inductive GuestReq where
  | load (n : Nat)
  | store (data : List Byte)
  | amo (op : Nat) (data : List Byte)
  | runs (b : Bool)
  deriving DecidableEq, Repr

/-- The instructions and steps of the IZ640, one constructor for each row of the table. -/
inductive Instr where
  /-- NOP (R304): Does nothing. -/
  | nop
  /-- YIELD (R304): In normal service, turns this group's issue resources to the oldest other ready group for one clk. -/
  | yield
  /-- TRAPFENCE (R235): Waits until earlier flag-setting instructions have filled, then stops the group with cause 0x04 if an enabled FLAGS bit is set. -/
  | trapfence
  /-- BKPT (R305): Stops the group after the instruction with cause 0x02. -/
  | bkpt (r : RRR)
  /-- TRAP (R305): Stops the group after the instruction with cause 0x03. -/
  | trap (r : RRR)
  /-- EXIT (R306): Waits for fills, engines, the speculative region, NTDRAIN and tickets, then releases at T and ends the group. -/
  | exit
  /-- PMARK (R305): Writes a trace marker record while tracing is on. -/
  | pmark (r : RRR)
  /-- TSTAMP (R305): Writes the global time-stamp into a scalar register. -/
  | tstamp (r : RRR)
  /-- BRA (R307): Branches unconditionally by a signed word offset. -/
  | bra (e : Option (BitVec 24)) (r : BitVec 26)
  /-- CALL (R307): Writes the return address to s127 and branches. -/
  | call (e : Option (BitVec 24)) (r : BitVec 26)
  /-- BCC (R307): Branches if a scalar test against zero or a predicate test holds. -/
  | bcc (e : Option (BitVec 24)) (r : BR)
  /-- JR (R309): Jumps to a register target and writes the return address. -/
  | jr (r : RRR)
  /-- RET (R309): Jumps to the address in s127. -/
  | ret
  /-- WBASE (R310): Sets the register window base. -/
  | wbase (r : RRR)
  /-- REGGROW (R189): Doubles the group's vector register block, waiting if no block is free. -/
  | reggrow
  /-- REGSHRINK (R189): Halves the group's vector register block once the upper half holds no empty element. -/
  | regshrink
  /-- RPF (R311): Stages up to 32 window registers into the staging buffer. -/
  | rpf (r : RRR)
  /-- MFS (R312): Reads a state register into a scalar register. -/
  | mfs (r : RRR)
  /-- MTS (R312): Writes a state register from a scalar register. -/
  | mts (r : RRR)
  /-- LOOP (R308): Leaves the loop if the count is zero, otherwise decrements it and continues. -/
  | loop (e : Option (BitVec 24)) (r : BR)
  /-- SLI (R317): Loads a sign-extended immediate into a scalar register. -/
  | sli (e : Option (BitVec 24)) (r : LI)
  /-- SLIH (R317): Shifts a scalar register left by 19 and ORs in a 19-bit immediate. -/
  | slih (r : LI)
  /-- SADD (R313): Scalar addition with overflow handling. -/
  | sadd (x : Pfx) (r : RRR)
  /-- SSUB (R313): Scalar subtraction. -/
  | ssub (x : Pfx) (r : RRR)
  /-- SMUL (R313): Scalar multiplication. -/
  | smul (x : Pfx) (r : RRR)
  /-- SMULH (R313): Signed high half of a scalar product. -/
  | smulh (x : Pfx) (r : RRR)
  /-- SMULHN (R313): Unsigned high half of a scalar product. -/
  | smulhn (x : Pfx) (r : RRR)
  /-- SDIV (R314): Signed scalar division, truncating. -/
  | sdiv (x : Pfx) (r : RRR)
  /-- SDIVN (R314): Unsigned scalar division. -/
  | sdivn (x : Pfx) (r : RRR)
  /-- SREM (R314): Signed scalar remainder. -/
  | srem (x : Pfx) (r : RRR)
  /-- SAND (R313): Scalar bitwise and. -/
  | sand (x : Pfx) (r : RRR)
  /-- SOR (R313): Scalar bitwise or. -/
  | sor (x : Pfx) (r : RRR)
  /-- SXOR (R313): Scalar bitwise xor. -/
  | sxor (x : Pfx) (r : RRR)
  /-- SANDN (R313): Scalar and-not. -/
  | sandn (x : Pfx) (r : RRR)
  /-- SSHL (R313): Scalar shift left. -/
  | sshl (x : Pfx) (r : RRR)
  /-- SSHR (R313): Scalar logical shift right. -/
  | sshr (x : Pfx) (r : RRR)
  /-- SSRA (R313): Scalar arithmetic shift right. -/
  | ssra (x : Pfx) (r : RRR)
  /-- SROT (R313): Scalar rotate right. -/
  | srot (x : Pfx) (r : RRR)
  /-- SMIN (R313): Signed scalar minimum. -/
  | smin (x : Pfx) (r : RRR)
  /-- SMAX (R313): Signed scalar maximum. -/
  | smax (x : Pfx) (r : RRR)
  /-- SMINN (R313): Unsigned scalar minimum. -/
  | sminn (x : Pfx) (r : RRR)
  /-- SMAXN (R313): Unsigned scalar maximum. -/
  | smaxn (x : Pfx) (r : RRR)
  /-- SCLZ (R313): Counts leading zeros of a scalar. -/
  | sclz (x : Pfx) (r : RRR)
  /-- SPOPC (R313): Counts set bits of a scalar. -/
  | spopc (x : Pfx) (r : RRR)
  /-- SBREV (R313): Reverses the bits of a scalar. -/
  | sbrev (x : Pfx) (r : RRR)
  /-- SMOV (R313): Copies a scalar register with its poison. -/
  | smov (x : Pfx) (r : RRR)
  /-- SEQ (R313): Scalar compare equal. -/
  | seq (x : Pfx) (r : RRR)
  /-- SNE (R313): Scalar compare not equal. -/
  | sne (x : Pfx) (r : RRR)
  /-- SLT (R313): Signed scalar less than. -/
  | slt (x : Pfx) (r : RRR)
  /-- SLE (R313): Signed scalar less or equal. -/
  | sle (x : Pfx) (r : RRR)
  /-- SLTN (R313): Unsigned scalar less than. -/
  | sltn (x : Pfx) (r : RRR)
  /-- SLEN (R313): Unsigned scalar less or equal. -/
  | slen (x : Pfx) (r : RRR)
  /-- SBFX (R315): Extracts a scalar bit field. -/
  | sbfx (x : Pfx) (r : RRR)
  /-- SBFI (R315): Inserts a scalar bit field into the destination. -/
  | sbfi (x : Pfx) (r : RRR)
  /-- SADDI (R316): Adds a signed immediate to a scalar. -/
  | saddi (x : Pfx) (r : RI)
  /-- SANDI (R316): Ands a scalar with a zero-extended immediate. -/
  | sandi (e : Option (BitVec 24)) (r : RI)
  /-- SORI (R316): Ors a scalar with a zero-extended immediate. -/
  | sori (e : Option (BitVec 24)) (r : RI)
  /-- SXORI (R316): Xors a scalar with a zero-extended immediate. -/
  | sxori (e : Option (BitVec 24)) (r : RI)
  /-- SSHI (R316): Shifts or rotates a scalar by an immediate amount of a given kind. -/
  | sshi (r : RI)
  /-- SLD (R341): Scalar load; fills the destination late. -/
  | sld (x : Pfx) (r : RI)
  /-- SST (R341): Scalar store of the low bytes of a register. -/
  | sst (x : Pfx) (r : RI)
  /-- SATOM (R342): Scalar atomic of the selected operation; old value filled late, status to p14. -/
  | satom (x : Pfx) (fn : BitVec 3) (r : RRR)
  /-- VADD (R318): Vector integer addition. -/
  | vadd (x : Pfx) (r : RRR)
  /-- VSUB (R318): Vector integer subtraction. -/
  | vsub (x : Pfx) (r : RRR)
  /-- VMUL (R318): Vector integer multiplication. -/
  | vmul (x : Pfx) (r : RRR)
  /-- VMULH (R318): Vector high half of a product. -/
  | vmulh (x : Pfx) (r : RRR)
  /-- VMAD (R318): Vector integer multiply-add into the destination. -/
  | vmad (x : Pfx) (r : RRR)
  /-- VMIN (R318): Vector integer minimum. -/
  | vmin (x : Pfx) (r : RRR)
  /-- VMAX (R318): Vector integer maximum. -/
  | vmax (x : Pfx) (r : RRR)
  /-- VABSD (R318): Vector absolute difference. -/
  | vabsd (x : Pfx) (r : RRR)
  /-- VAND (R318): Vector bitwise and. -/
  | vand (x : Pfx) (r : RRR)
  /-- VOR (R318): Vector bitwise or. -/
  | vor (x : Pfx) (r : RRR)
  /-- VXOR (R318): Vector bitwise xor. -/
  | vxor (x : Pfx) (r : RRR)
  /-- VANDN (R318): Vector and-not. -/
  | vandn (x : Pfx) (r : RRR)
  /-- VSHL (R318): Vector shift left. -/
  | vshl (x : Pfx) (r : RRR)
  /-- VSHR (R318): Vector logical shift right. -/
  | vshr (x : Pfx) (r : RRR)
  /-- VSRA (R318): Vector arithmetic shift right. -/
  | vsra (x : Pfx) (r : RRR)
  /-- VROT (R318): Vector rotate. -/
  | vrot (x : Pfx) (r : RRR)
  /-- VCLZ (R318): Vector count leading zeros. -/
  | vclz (x : Pfx) (r : RRR)
  /-- VPOPC (R318): Vector population count. -/
  | vpopc (x : Pfx) (r : RRR)
  /-- VBREV (R318): Vector bit reverse. -/
  | vbrev (x : Pfx) (r : RRR)
  /-- VNEG (R318): Vector integer negation. -/
  | vneg (x : Pfx) (r : RRR)
  /-- VABS (R318): Vector integer absolute value. -/
  | vabs (x : Pfx) (r : RRR)
  /-- VNOT (R318): Vector bitwise not. -/
  | vnot (x : Pfx) (r : RRR)
  /-- VBFX (R315): Vector bit-field extract. -/
  | vbfx (x : Pfx) (r : RRR)
  /-- VBFI (R315): Vector bit-field insert. -/
  | vbfi (x : Pfx) (r : RRR)
  /-- VCMP (R319): Vector integer compare writing a predicate. -/
  | vcmp (x : Pfx) (fn : BitVec 3) (r : RRR)
  /-- VMOV (R320): Vector move. -/
  | vmov (x : Pfx) (r : RRR)
  /-- VSEL (R320): Bitwise select using the old destination as mask. -/
  | vsel (x : Pfx) (r : RRR)
  /-- VBCAST (R320): Broadcasts a scalar to every active lane. -/
  | vbcast (x : Pfx) (r : RRR)
  /-- VEXTR (R321): Extracts one lane's element into a scalar. -/
  | vextr (x : Pfx) (r : RRR)
  /-- VINS (R321): Inserts a scalar into one lane. -/
  | vins (x : Pfx) (r : RRR)
  /-- VIOTA (R320): Writes each lane's rank among selected active lanes of its tile. -/
  | viota (x : Pfx) (r : RRR)
  /-- VLANE (R320): Writes the logical lane index. -/
  | vlane (x : Pfx) (r : RRR)
  /-- VFADD (R322): Vector floating addition. -/
  | vfadd (x : Pfx) (r : RRR)
  /-- VFSUB (R322): Vector floating subtraction. -/
  | vfsub (x : Pfx) (r : RRR)
  /-- VFMUL (R322): Vector floating multiplication. -/
  | vfmul (x : Pfx) (r : RRR)
  /-- VFMA (R322): Fused multiply-add into the destination. -/
  | vfma (x : Pfx) (r : RRR)
  /-- VFMS (R322): Fused destination minus product. -/
  | vfms (x : Pfx) (r : RRR)
  /-- VFMIN (R323): Vector floating minimum. -/
  | vfmin (x : Pfx) (r : RRR)
  /-- VFMAX (R323): Vector floating maximum. -/
  | vfmax (x : Pfx) (r : RRR)
  /-- VFABSD (R322): Vector floating absolute difference. -/
  | vfabsd (x : Pfx) (r : RRR)
  /-- VFNEG (R324): Inverts the sign of a float. -/
  | vfneg (x : Pfx) (r : RRR)
  /-- VFABS (R324): Clears the sign of a float. -/
  | vfabs (x : Pfx) (r : RRR)
  /-- VFCLASS (R324): Writes a float's class mask. -/
  | vfclass (x : Pfx) (r : RRR)
  /-- VFCPYS (R324): Copies the sign of b onto the magnitude of a. -/
  | vfcpys (x : Pfx) (r : RRR)
  /-- VFFLOOR (R324): Rounds a float toward minus infinity. -/
  | vffloor (x : Pfx) (r : RRR)
  /-- VFCEIL (R324): Rounds a float toward plus infinity. -/
  | vfceil (x : Pfx) (r : RRR)
  /-- VFRINT (R324): Rounds a float to an integral value in the MOD mode. -/
  | vfrint (x : Pfx) (r : RRR)
  /-- VFFRAC (R324): Fractional part of a float. -/
  | vffrac (x : Pfx) (r : RRR)
  /-- VFCMP (R325): Vector float compare writing a predicate. -/
  | vfcmp (x : Pfx) (fn : BitVec 3) (r : RRR)
  /-- VRCP (R326): Reciprocal on the special-function unit, filled late. -/
  | vrcp (x : Pfx) (r : RRR)
  /-- VRSQ (R326): Reciprocal square root on the special-function unit. -/
  | vrsq (x : Pfx) (r : RRR)
  /-- VSQRT (R326): Square root on the special-function unit. -/
  | vsqrt (x : Pfx) (r : RRR)
  /-- VEXP2 (R326): Base-2 exponential on the special-function unit. -/
  | vexp2 (x : Pfx) (r : RRR)
  /-- VLOG2 (R326): Base-2 logarithm on the special-function unit. -/
  | vlog2 (x : Pfx) (r : RRR)
  /-- VSIN (R326): Sine on the special-function unit. -/
  | vsin (x : Pfx) (r : RRR)
  /-- VCOS (R326): Cosine on the special-function unit. -/
  | vcos (x : Pfx) (r : RRR)
  /-- VTANH (R326): Hyperbolic tangent on the special-function unit. -/
  | vtanh (x : Pfx) (r : RRR)
  /-- VFDIV (R326): Floating division on the special-function unit. -/
  | vfdiv (x : Pfx) (r : RRR)
  /-- VSIGM (R326): Logistic sigmoid on the special-function unit. -/
  | vsigm (x : Pfx) (r : RRR)
  /-- VERF (R326): Error function on the special-function unit. -/
  | verf (x : Pfx) (r : RRR)
  /-- VLOG1P (R326): ln(1 + a) on the special-function unit. -/
  | vlog1p (x : Pfx) (r : RRR)
  /-- VCVT (R328): Converts each element between formats. -/
  | vcvt (x : Pfx) (r : RRR)
  /-- VPACK2 (R329): Converts and packs two 16-bit elements per lane word. -/
  | vpack2 (x : Pfx) (r : RRR)
  /-- VPACK4 (R329): Converts and packs four 8-bit elements per lane word. -/
  | vpack4 (x : Pfx) (r : RRR)
  /-- VUNPK2LO (R330): Unpacks the low 16-bit element. -/
  | vunpk2lo (x : Pfx) (r : RRR)
  /-- VUNPK2HI (R330): Unpacks the high 16-bit element. -/
  | vunpk2hi (x : Pfx) (r : RRR)
  /-- VUNPK4 (R330): Unpacks four 8-bit elements into four registers. -/
  | vunpk4 (x : Pfx) (r : RRR)
  /-- VQSCL (R331): MX-quantises blocks of 32 lanes, writing elements and scales. -/
  | vqscl (x : Pfx) (r : RRR)
  /-- VSHFL (R332): Shuffles by per-lane index within the tile. -/
  | vshfl (x : Pfx) (r : RRR)
  /-- VSHFLUP (R332): Shuffles up by a scalar amount within the tile. -/
  | vshflup (x : Pfx) (r : RRR)
  /-- VSHFLDN (R332): Shuffles down by a scalar amount within the tile. -/
  | vshfldn (x : Pfx) (r : RRR)
  /-- VSHFLX (R332): Xor shuffle within the tile. -/
  | vshflx (x : Pfx) (r : RRR)
  /-- VBALLOT (R333): Writes the predicate ballot of the lowest active lane's tile. -/
  | vballot (x : Pfx) (r : RRR)
  /-- VANY (R333): Writes 1 if any active lane of that tile has its predicate set. -/
  | vany (x : Pfx) (r : RRR)
  /-- VALL (R333): Writes 1 if every active lane of that tile has its predicate set. -/
  | vall (x : Pfx) (r : RRR)
  /-- VMATCH (R334): Marks the first holder of each distinct value in the tile. -/
  | vmatch (x : Pfx) (r : RRR)
  /-- VREDADD (R335): Tile sum reduction in the fixed tree. -/
  | vredadd (x : Pfx) (r : RRR)
  /-- VREDMIN (R335): Tile minimum reduction. -/
  | vredmin (x : Pfx) (r : RRR)
  /-- VREDMAX (R335): Tile maximum reduction. -/
  | vredmax (x : Pfx) (r : RRR)
  /-- VREDAND (R335): Tile and reduction. -/
  | vredand (x : Pfx) (r : RRR)
  /-- VREDOR (R335): Tile or reduction. -/
  | vredor (x : Pfx) (r : RRR)
  /-- VSCANADD (R335): Inclusive sum scan within the tile. -/
  | vscanadd (x : Pfx) (r : RRR)
  /-- VSCANMAX (R335): Inclusive maximum scan within the tile. -/
  | vscanmax (x : Pfx) (r : RRR)
  /-- PART (R336): Sets the partition tile size. -/
  | part (x : Pfx) (r : RRR)
  /-- PAND (R337): Predicate and. -/
  | pand (x : Pfx) (r : RRR)
  /-- POR (R337): Predicate or. -/
  | por (x : Pfx) (r : RRR)
  /-- PXOR (R337): Predicate xor. -/
  | pxor (x : Pfx) (r : RRR)
  /-- PANDN (R337): Predicate and-not. -/
  | pandn (x : Pfx) (r : RRR)
  /-- PNOT (R337): Predicate not. -/
  | pnot (x : Pfx) (r : RRR)
  /-- PMOV (R337): Predicate move. -/
  | pmov (x : Pfx) (r : RRR)
  /-- PCNT (R337): Counts active lanes with the predicate set. -/
  | pcnt (x : Pfx) (r : RRR)
  /-- PFIRST (R337): Keeps only the lowest active lane with the predicate set. -/
  | pfirst (x : Pfx) (r : RRR)
  /-- VLD (R344): Vector load of the given shape; checks, coalesces, marks empty and holds for confirmation. -/
  | vld (x : Pfx) (fn : BitVec 3) (r : RRR)
  /-- VST (R345): Vector store of the given shape. -/
  | vst (x : Pfx) (fn : BitVec 3) (r : RRR)
  /-- VLDNF (R346): Non-faulting vector load writing residency to p15. -/
  | vldnf (x : Pfx) (fn : BitVec 3) (r : RRR)
  /-- ATOM (R347): Vector atomic of the selected operation per active lane. -/
  | atom (x : Pfx) (fn : BitVec 3) (r : RRR)
  /-- SMAXPK (R349): Atomic running maximum of score and index keys. -/
  | smaxpk (x : Pfx) (r : RRR)
  /-- SMINPK (R349): Atomic running minimum of score and index keys. -/
  | sminpk (x : Pfx) (r : RRR)
  /-- HINC (R350): Atomic histogram increment returning old counts. -/
  | hinc (x : Pfx) (r : RRR)
  /-- FENCE (R135): Waits for earlier accesses at the scope and for tickets, invalidating L1 where needed. -/
  | fence (x : Pfx)
  /-- NTDRAIN (R139): Waits until earlier non-temporal stores are performed at K and tickets are settled. -/
  | ntdrain (x : Pfx)
  /-- PREFETCH (R353): Brings a range of lines toward the core without faulting. -/
  | prefetch (x : Pfx) (r : RRR)
  /-- PGREQ (R354): Asks owners for non-resident pages of the active lanes. -/
  | pgreq (x : Pfx) (r : RRR)
  /-- FWAIT (R352): Waits for every earlier fabric response and ticket of the group. -/
  | fwait (x : Pfx)
  /-- WINREQ (R355): Fetches a window descriptor for the context; result filled late. -/
  | winreq (x : Pfx) (r : RRR)
  /-- WINREL (R355): Moves a valid level-2 entry to draining. -/
  | winrel (x : Pfx) (r : RRR)
  /-- RLQ (R356): Tests a range against the core's range-lock table. -/
  | rlq (x : Pfx) (r : RRR)
  /-- CPY (R360): Starts a copy-engine copy with a token. -/
  | cpy (x : Pfx) (r : RRR)
  /-- CPY2D (R360): Starts a strided two-dimensional copy. -/
  | cpy2d (x : Pfx) (r : RRR)
  /-- GATH (R361): Starts a key-value gather into scratchpad. -/
  | gath (x : Pfx) (r : RRR)
  /-- SCAT (R361): Starts an append write from scratchpad into key-value pages. -/
  | scat (x : Pfx) (r : RRR)
  /-- KVSEND (R361): Starts a key-value handoff to a scale-out peer. -/
  | kvsend (x : Pfx) (r : RRR)
  /-- CPYFILL (R360): Starts a fill of a range with a 32-bit pattern. -/
  | cpyfill (x : Pfx) (r : RRR)
  /-- CPYCAN (R362): Cancels the copy pending on a token at its current chunk. -/
  | cpycan (x : Pfx) (r : RRR)
  /-- BAR (R364): Arrives at a barrier and waits for its phase to change. -/
  | bar (r : RRR)
  /-- BARARR (R364): Arrives at a barrier, returning the phase before arrival. -/
  | bararr (r : RRR)
  /-- BARWAIT (R364): Waits until a barrier's phase differs from a given value. -/
  | barwait (r : RRR)
  /-- STAGEACQ (R366): Waits until a stage's phase equals the expected phase. -/
  | stageacq (r : RRR)
  /-- STAGEREL (R366): Inverts a stage's phase. -/
  | stagerel (r : RRR)
  /-- EVSIG (R367): Signals an event, releasing at K. -/
  | evsig (r : RRR)
  /-- EVWAIT (R367): Waits until an event meets a threshold, acquiring at K. -/
  | evwait (r : RRR)
  /-- LAUNCH (R368): Reads and checks a launch descriptor and submits its grid. -/
  | launch (r : RRR)
  /-- MTILE (R378): Sets the group's accumulator ownership mask. -/
  | mtile (x : Pfx) (r : RRR)
  /-- MZERO (R379): Zeroes an accumulator. -/
  | mzero (x : Pfx) (r : RRR)
  /-- MDRAIN (R386): Drains an accumulator rectangle to memory in a format. -/
  | mdrain (x : Pfx) (r : RRR)
  /-- MSPEC (R184): Opens a speculative matrix region on a condition and prediction. -/
  | mspec (x : Pfx) (r : RRR)
  /-- MCOMMIT (R388): Forces commit of the open speculative region. -/
  | mcommit (x : Pfx)
  /-- MDISCARD (R388): Forces discard of the open speculative region. -/
  | mdiscard (x : Pfx)
  /-- ACCSAVE (R387): Writes an accumulator image to memory. -/
  | accsave (x : Pfx) (r : RRR)
  /-- ACCLOAD (R387): Loads an accumulator from an image. -/
  | accload (x : Pfx) (r : RRR)
  /-- MLOOP (R381): Starts a matrix multiply-accumulate loop into an accumulator. -/
  | mloop (x : Pfx) (r : RRR)
  /-- MLOOPQ (R383): Matrix loop that may share its A fetch across the quad. -/
  | mloopq (x : Pfx) (r : RRR)
  /-- MWAIT (R384): Waits for the group's pending matrix operations. -/
  | mwait (x : Pfx)
  /-- MSTAT (R384): Reads the group's matrix status. -/
  | mstat (x : Pfx) (r : RRR)
  /-- TSWR (R391): Writes a tile row or column slice from vector registers. -/
  | tswr (x : Pfx) (r : TS)
  /-- TSRD (R391): Reads a tile row or column slice into vector registers. -/
  | tsrd (x : Pfx) (r : TS)
  /-- TLD (R390): Loads tile rows from memory. -/
  | tld (x : Pfx) (r : RRR)
  /-- TST (R390): Stores tile rows to memory. -/
  | tst (x : Pfx) (r : RRR)
  /-- TMOV (R389): Copies a tile. -/
  | tmov (x : Pfx) (r : RRR)
  /-- TZERO (R389): Zeroes a tile. -/
  | tzero (x : Pfx) (r : RRR)
  /-- TTRANS (R389): Transposes a tile. -/
  | ttrans (x : Pfx) (r : RRR)
  /-- RNGDRAW (R392): Draws one random number per active lane from a slot's generator. -/
  | rngdraw (x : Pfx) (r : RRR)
  /-- RNGJUMP (R392): Advances a slot's generator by n draws. -/
  | rngjump (x : Pfx) (r : RRR)
  /-- RNGGET (R392): Reads a slot's RNG state, increment or checkpoint. -/
  | rngget (x : Pfx) (r : RRR)
  /-- RNGSET (R393): Sets or swaps a slot's RNG state, increment or checkpoint. -/
  | rngset (x : Pfx) (r : RRR)
  /-- RNGFLT (R392): Converts draws to F32 in [0,1). -/
  | rngflt (x : Pfx) (r : RRR)
  /-- BTLD (R395): Copies a batch-table entry snapshot to memory. -/
  | btld (x : Pfx) (r : RRR)
  /-- BTST (R395): Writes masked dwords of a batch-table entry from memory. -/
  | btst (x : Pfx) (r : RRR)
  /-- SEQPARK (R397): Requests a park of a sequence at the next boundary. -/
  | seqpark (x : Pfx) (r : RRR)
  /-- SEQWAKE (R397): Requests a wake of a sequence. -/
  | seqwake (x : Pfx) (r : RRR)
  /-- SEQDONE (R397): Sets a sequence's state to done. -/
  | seqdone (x : Pfx) (r : RRR)
  /-- SEQEMIT (R418): Emits a token for a slot and applies the stop tests. -/
  | seqemit (x : Pfx) (r : RRR)
  /-- MASKLD (R399): Loads grammar-mask bits for a draft-tree node into a predicate. -/
  | maskld (x : Pfx) (r : RRR)
  /-- SEQSTAT (R395): Reads a slot's state, error code and length copy. -/
  | seqstat (x : Pfx) (r : RRR)
  /-- KVALLOC (R107): Appends token pages to a block table. -/
  | kvalloc (x : Pfx) (r : RRR)
  /-- KVTRUNC (R110): Truncates a block table to a length. -/
  | kvtrunc (x : Pfx) (r : RRR)
  /-- KVSHARE (R108): Shares a prefix of one block table into another. -/
  | kvshare (x : Pfx) (r : RRR)
  /-- KVREF (R400): Reads an entry's REF, PIN and CW. -/
  | kvref (x : Pfx) (r : RRR)
  /-- KVCOW (R109): Makes named entries private by copy-on-write. -/
  | kvcow (x : Pfx) (r : RRR)
  /-- KVPIN (R112): Pins named entries' pages, bringing them back first. -/
  | kvpin (x : Pfx) (r : RRR)
  /-- KVUNPIN (R112): Unpins named entries' pages. -/
  | kvunpin (x : Pfx) (r : RRR)
  /-- KVWHERE (R400): Reads an entry's tier, die and busy bit. -/
  | kvwhere (x : Pfx) (r : RRR)
  /-- BRANK (R401): Counts set bits below a position in a bitmap. -/
  | brank (x : Pfx) (r : RRR)
  /-- BSEL (R401): Finds the position of the set bit of a given rank. -/
  | bsel (x : Pfx) (r : RRR)
  /-- BSET (R403): Atomically sets bitmap bits per lane. -/
  | bset (x : Pfx) (r : RRR)
  /-- BCLR (R403): Atomically clears bitmap bits per lane. -/
  | bclr (x : Pfx) (r : RRR)
  /-- BCNT (R401): Counts set bits of a whole bitmap. -/
  | bcnt (x : Pfx) (r : RRR)
  /-- TAPEGET (R406): Takes the next tape entry, waiting while the tape is empty and open. -/
  | tapeget (r : RRR)
  /-- TAPEPUT (R406): Puts an entry on the tape or closes it. -/
  | tapeput (r : RRR)
  /-- DEPSIGNAL (R407): Atomically increments a dependence counter with release. -/
  | depsignal (r : RRR)
  /-- DEPWAIT (R407): Waits until a dependence counter meets a threshold. -/
  | depwait (r : RRR)
  /-- WSLOT (R409): Acquires a weight slot for an expert: hit, load or starved. -/
  | wslot (r : RRR)
  /-- WREL (R410): Marks a weight slot loaded or drops a holder. -/
  | wrel (r : RRR)
  /-- RAMPHINT (R370): Asks Damper for power headroom and waits for the grant. -/
  | ramphint (r : RRR)
  /-- BALLAST (R371): Requests ballast cycles on the core's idle matrix unit. -/
  | ballast (r : RRR)
  /-- TRACEON (R369): Sets the group's trace class mask. -/
  | traceon (r : RRR)
  /-- TRACEOFF (R369): Clears the group's trace class mask. -/
  | traceoff
  /-- CNTRD (R369): Reads one of the core's counters. -/
  | cntrd (r : RRR)
  /-- TATRD (R369): Reads a counter as latched at the last Tattoo tick. -/
  | tatrd (r : RRR)
  /-- INSTRUCTION_FETCH (R281): The scalar thread fetches an instruction word through the owning MTU or a window. -/
  | instructionFetch (core slot : Nat)
  /-- MTU_CONFIRMATION (R33): The owning MTU's confirmation of a lane's translation reaches the core, filling the residency filter and releasing the hold. -/
  | mtuConfirmation (op : Nat)
  /-- LOAD_DATA_ARRIVAL (R85): Sector data reaches the core and fills load elements full, possibly poisoned. -/
  | loadDataArrival (op : Nat) (lanes : BitVec 64) (fromL1 : Bool)
  /-- SFU_RESULT (R326): A special-function unit result arrives and fills its destination, setting flags. -/
  | sfuResult (op : Nat)
  /-- BOUNDARY_STOP (R50): The group stops at its next instruction boundary after a late-reported fault. -/
  | boundaryStop (core slot : Nat)
  /-- FAULT_RECORD_DRAIN (R41): A record waiting in the pending buffer is written once ring space frees. -/
  | faultRecordDrain (die : Nat)
  /-- MTU_INVCTL_DROP (R30): Removes matching translations and walk-cache entries and flushes residency filters. -/
  | mtuInvctlDrop (die : Nat) (w : BitVec 64)
  /-- MTU_INVCTL_CLOSE (R30): As DROP, and marks confirmations in the range no-fill until a matching OPEN. -/
  | mtuInvctlClose (die : Nat) (w : BitVec 64)
  /-- MTU_INVCTL_OPEN (R30): As DROP, and ends a matching closed range. -/
  | mtuInvctlOpen (die : Nat) (w : BitVec 64)
  /-- MTU_INVALIDATE_COMPLETE (R30): Once acknowledgements, walks and switch recalls finish, GO clears. -/
  | mtuInvalidateComplete (die : Nat)
  /-- REPLAY_GROUP (R42): MTU_REPLAY OP 0 clears the residency filter and resumes or reissues a stopped group. -/
  | replayGroup (die core slot : Nat)
  /-- KILL_GROUP (R246): MTU_REPLAY OP 1 ends a stopped group, dropping fills, engines, tickets and arrivals. -/
  | killGroup (die core slot : Nat)
  /-- NOTICE_SERVICED (R43): MTU_REPLAY OP 2 queues a serviced replay-notice entry for a ticket. -/
  | noticeServiced (die peer ticket : Nat)
  /-- NOTICE_REFUSED (R43): MTU_REPLAY OP 3 queues a refused replay-notice entry for a ticket. -/
  | noticeRefused (die peer ticket : Nat)
  /-- NOTICE_TIMER (R44): 1 µs after the first queued entry, the owner sends the peer's NOTICE. -/
  | noticeTimer (peer : Nat)
  /-- OWNER_TICKET_TIMEOUT (R43): One ticket timeout after its notice, the owner frees an unreplayed ticket. -/
  | ownerTicketTimeout (ticket : Nat)
  /-- FQ_SIZE_WRITE (R40): An accepted write sets the fault ring size and resets HEAD and TAIL. -/
  | fqSizeWrite (die : Nat) (src : Bool) (w : BitVec 64)
  /-- REGISTER_WRITE (R10): A write to a register without behaviour of its own updates its fields. -/
  | registerWrite (w : RegWrite)
  /-- TICKET (R47): A TICKET flit reaches the requester, which keeps the entry and leaves destinations empty. -/
  | ticket (f : Flit)
  /-- NOTICE (R48): A NOTICE flit reaches the requester; serviced entries replay and refused ones settle with poison, or the notice is logged for a saved context. -/
  | notice (f : Flit)
  /-- TICKET_EXPIRY (R49): An entry's ticket timeout elapses; lanes settle with poison and the group stops at the boundary. -/
  | ticketExpiry (entry : Nat)
  /-- OWNER_REQUEST (R165): The owner's interface takes an RD, WR or AT: checks, tickets, translates, performs and responds. -/
  | ownerRequest (f : Flit)
  /-- SWITCH_REQUEST (R166): A switch slice serves, performs or forwards a request for a line in its plane. -/
  | switchRequest (plane : Nat) (f : Flit)
  /-- RDRSP (R164): A read response reaches the requester and fills, poisons or settles lanes. -/
  | rdrsp (f : Flit)
  /-- WRACK (R161): A write acknowledgement completes a fabric store. -/
  | wrack (f : Flit)
  /-- ATRSP (R164): An atomic response returns old values or a refusal status. -/
  | atrsp (f : Flit)
  /-- WINREQ_RECEIVE (R170): The owner answers a WINREQ with a WINRSP by window state and key. -/
  | winreqReceive (f : Flit)
  /-- WINRSP (R171): A window response reaches the source and sets the level-2 entry and WINREQ result. -/
  | winrsp (f : Flit)
  /-- WININV (R171): A window invalidation reaches the source, which drains or acknowledges. -/
  | wininv (f : Flit)
  /-- WINACK (R170): A window acknowledgement reaches the owner, removing a holder and maybe closing the window. -/
  | winack (f : Flit)
  /-- WINDOW_DRAIN_COMPLETE (R171): Every access under the held GEN has settled; the source sends WINACK and the entry goes absent. -/
  | windowDrainComplete (p w : Nat)
  /-- EXPCTL_OPEN (R170): EFI_EXPCTL OP OPEN reads the export entry, increments GEN and opens the window. -/
  | expctlOpen (w : Nat) (src : Bool)
  /-- EXPCTL_CLOSE (R170): EFI_EXPCTL OP CLOSE sends WININV to holders and RECALL to switches. -/
  | expctlClose (w : Nat) (src : Bool)
  /-- EXPCTL_FORCE (R170): EFI_EXPCTL OP FORCE drops remaining holders and closes the window. -/
  | expctlForce (w : Nat) (src : Bool)
  /-- EXPORT_STUCK_TIMEOUT (R170): 1 ms after invalidating with holders left, STUCK is set. -/
  | exportStuckTimeout (w : Nat)
  /-- RECALL (R166): A switch or L2 holder returns dirty sectors and drops a recalled line. -/
  | recall (f : Flit)
  /-- RECACK (R166): A recall acknowledgement reaches the recalling unit. -/
  | recack (f : Flit)
  /-- PROBE (R137): A core or owner interface answers a promotion probe once prior writes are performed. -/
  | probe (f : Flit)
  /-- PROBEACK (R169): A probe acknowledgement lets the promoting acquire complete. -/
  | probeack (f : Flit)
  /-- TSYNC_TIMER (R174): Every 2^20 tk a package sends TSYNC to the master. -/
  | tsyncTimer
  /-- TSYNC (R174): The master answers a TSYNC with TSYNCRSP. -/
  | tsync (f : Flit)
  /-- TSYNCRSP (R174): The package measures its offset, steps or slews, and sets LOCK. -/
  | tsyncrsp (f : Flit)
  /-- PORT_FAILURE (R173): A port fails; its planes close and outstanding requests settle as refused. -/
  | portFailure (port : Nat)
  /-- COPY_CHUNK (R360): The copy engine finishes a 4 KiB chunk and begins the next, or completes. -/
  | copyChunk (op : Nat)
  /-- MATRIX_K_STEP (R381): The matrix unit completes one K-step of a loop, or the loop. -/
  | matrixKStep (op : Nat)
  /-- MATRIX_OP_COMPLETE (R376): A drain, save or load of the matrix unit completes and fills its token or accumulator. -/
  | matrixOpComplete (op : Nat)
  /-- SPEC_RESOLUTION (R388): Once shadows are full, the decided region commits or discards and closes. -/
  | specResolution (core slot : Nat)
  /-- PAGE_STORE_OPERATION (R105): The page-store unit takes an operation in arrival order and performs its action. -/
  | pageStoreOperation (op : Nat)
  /-- PAGE_MOVE (R114): A copy-engine page move for eviction or bring-back completes and updates the descriptor. -/
  | pageMove (pdi : Nat)
  /-- HANDOFF_RECEIVE (R117): A handoff message arrives; the receiver matches the ring, places chunks, and completes or refuses. -/
  | handoffReceive (m : HandoffMsg)
  /-- HANDOFF_COMPLETION (R118): A handoff completion or failure reaches the sender, filling the token or failing. -/
  | handoffCompletion (op : Nat) (ok : Bool)
  /-- LAUNCH_QUEUE_READ (R204): The queue unit reads and checks the descriptor at RIDX and advances RIDX. -/
  | launchQueueRead (q : Nat)
  /-- TEAM_PLACEMENT (R209): The placement unit places a ready grid's team on a core or pair. -/
  | teamPlacement (grid : Nat) (core : Nat)
  /-- SPLIT_DRAIN_TRIGGER (R211): A ready grid unplaced for 2^20 tk sets DRAIN on a cluster. -/
  | splitDrainTrigger (grid : Nat)
  /-- REGISTER_COMPACTION (R190): The compaction engine moves live register blocks, then placement retries. -/
  | registerCompaction (core : Nat)
  /-- GROW_DEADLOCK (R212): All block holders wait in REGGROW or are stopped; each waiting REGGROW faults. -/
  | growDeadlock (core : Nat)
  /-- RAMP_SLOT (R223): At each ramp slot Damper grants waiting teams within the rise limit and they start. -/
  | rampSlot
  /-- DAMPER_SAMPLE (R225): Every 100 tk Damper samples power, updates the floor and issues ballast. -/
  | damperSample (p : BitVec 24)
  /-- WATCHDOG (R215): A group's no-retire count reaches 2^WDLOG and it faults precisely. -/
  | watchdog (core slot : Nat)
  /-- SCHED_CTL_WRITE (R213): A write to SCHED_CTL changes issue mode or watchdog interval. -/
  | schedCtlWrite (src : Bool) (w : BitVec 64)
  /-- CARILLON_ENABLE (R216): Setting CAR_CTL.EN starts frames with rotation pointer and frame number at zero. -/
  | carillonEnable (src : Bool) (w : BitVec 64)
  /-- FRAME_BOUNDARY (R218): Carillon retires, applies commands, refreshes, evicts, admits and publishes the next frame. -/
  | frameBoundary
  /-- FRAME_END (R220): DEV is signalled or the frame's grid completes, ending the frame. -/
  | frameEnd
  /-- CARILLON_STRUCTURE_RETRY (R471): Every 2^20 tk Carillon retries a boundary step that met a structure fault. -/
  | carillonStructureRetry
  /-- SCMD_FREE (R218): CAR_SCMD OP 0 frees a slot in state error at the next boundary. -/
  | scmdFree (slot : BitVec 13) (src : Bool)
  /-- SCMD_WAKE (R221): CAR_SCMD OP 1 wakes a sequence at the next boundary. -/
  | scmdWake (slot : BitVec 13) (src : Bool)
  /-- SCMD_MARK_ERROR (R416): CAR_SCMD OP 2 sends a slot to error with a reason at the next boundary. -/
  | scmdMarkError (slot : BitVec 13) (reason : BitVec 16) (src : Bool)
  /-- RQTAIL_WRITE (R217): The host advances the request ring tail, triggering a boundary if idle. -/
  | rqtailWrite (src : Bool) (tail : BitVec 16)
  /-- CQHEAD_WRITE (R218): The host advances the completion ring head, freeing room. -/
  | cqheadWrite (src : Bool) (head : BitVec 16)
  /-- TOOL_RETURN (R428): A guest store to a notify register sets NVAL and NPEND and wakes parked-tool slots. -/
  | toolReturn (sandbox off : Nat) (w : BitVec 64)
  /-- GUEST_ACCESS (R427): A tool guest access is checked by the partition checker and refused with an access fault if outside. -/
  | guestAccess (sandbox : Nat) (die : Nat) (pa : BitVec 52) (req : GuestReq)
  /-- PRE_SAVE (R239): PRE_CMD OP 0 quiesces and saves a context into the save area. -/
  | preSave (asid : BitVec 16)
  /-- PRE_RESTORE (R243): PRE_CMD OP 1 reads a save area and replaces its teams. -/
  | preRestore (asid : BitVec 16)
  /-- PRE_SAVE_FLUSH (R245): PRE_CMD OP 2 saves, flushing replayable teams. -/
  | preSaveFlush (asid : BitVec 16)
  /-- PRE_END_CONTEXT (R247): PRE_CMD OP 3 ends a context and discards its work. -/
  | preEndContext (asid : BitVec 16)
  /-- SAVE_QUIESCED (R239): All engines acknowledge; the device sets NEED and writes the save area or reports it too small. -/
  | saveQuiesced
  /-- SAVE_AREA_WRITTEN (R239): Every image and landed copy is written and STATE becomes 4. -/
  | saveAreaWritten
  /-- UNCORRECTABLE_ERROR (R248): An uncorrectable error is contained by class and reported with a KIND 3 record. -/
  | uncorrectableError (e : HwError)
  /-- CARILLON_TAKEOVER (R252): The standby Carillon takes over at the next boundary after the die-0 unit fails. -/
  | carillonTakeover
  /-- DAMPER_TAKEOVER (R252): The standby Damper takes over within two ramp slots. -/
  | damperTakeover
  /-- THERMAL_HOT (R467): A die's TMAX reaches TLIM or falls 40 units below, stopping or resuming grants. -/
  | thermalHot (die : Nat) (tmax : BitVec 12)
  /-- TATTOO_TICK (R451): At each tick every counter latches and a sample is written to the ring or dropped. -/
  | tattooTick
  /-- PC_SAMPLE (R446): Every 2^SAMPK clk of residence a group's PC sample record is written. -/
  | pcSample (core slot : Nat)
  /-- TRACE_DRAIN (R447): A cluster drains a buffered trace record to its context's ring. -/
  | traceDrain (cluster : Nat)
  /-- CLUSTER_POWER_GATE (R448): A cluster gates once its buffer drains or 20 µs after the request, dropping the rest. -/
  | clusterPowerGate (cluster : Nat)
  /-- ATTEST (R462): Mailbox command 1 writes a signed attestation report. -/
  | attest
  /-- INSTALL_TENANT_KEY (R463): Mailbox command 2 decapsulates and installs a context's tenant key. -/
  | installTenantKey (asid : BitVec 16)
  /-- ERASE_TENANT_KEY (R463): Mailbox command 3 zeroes a key and clears the confidential mark. -/
  | eraseTenantKey (asid : BitVec 16)
  /-- READ_IDENTITY_KEY (R461): Mailbox command 4 returns the ML-DSA-65 public key. -/
  | readIdentityKey
  /-- READ_ENCAPSULATION_KEY (R461): Mailbox command 5 returns the ML-KEM-1024 encapsulation key. -/
  | readEncapsulationKey
  /-- SET_CONFIDENTIAL (R463): Mailbox command 6 sets or clears a context's confidential mark. -/
  | setConfidential (asid : BitVec 16)
  /-- FLASH_UPDATE (R461): Mailbox command 7 writes signed firmware or image to flash. -/
  | flashUpdate
  /-- HOST_APERTURE_ACCESS (R457): A host access to BAR2 reaches physical memory past every MTU. -/
  | hostApertureAccess (off : BitVec 36) (a : HostAccess)
  /-- MODULE_RESET (R458): At reset the ROM verifies firmware and image, derives keys, writes the core map and boots. -/
  | moduleReset
  /-- SIDEBAND_RESET (R468): An I3C write of 0x5A to sideband register 0x80 resets the module. -/
  | sidebandReset (reg : BitVec 8) (w : BitVec 8)
  /-- LINE_ENCRYPT_WRITEBACK (R464): The L2 slice encrypts a confidential line as it writes it back. -/
  | lineEncryptWriteback (line : Nat)
  /-- WRITE_THROUGH_ACKNOWLEDGEMENT (R79): The owning L2 slice, or a target bank, acknowledges that a package-local store or write-through is performed, releasing releases and fences that wait on it. -/
  | writeThroughAcknowledgement (op : Nat) (lanes : BitVec 64)
  /-- HOST_COMPLETION (R172): A PCIe completion for a device read, write or AtomicOp to host memory through peer 1,023 arrives and fills, poisons or refuses the lanes. -/
  | hostCompletion (f : Flit)
  /-- PLANE_CREDIT (R152): Link credit returns on a plane, letting the fabric interface send a held flit and release instructions waiting at issue for that plane. -/
  | planeCredit (plane : Nat)
  deriving DecidableEq, Repr

end Sys2Proof
end

