-- ==== Sys2Proof/Machine/Encoding.lean ====
section
/-!
DEFINITION. The encoding tables of R283 to R292: which major and fn an instruction has, the class of each field
(R284), the prefixes and MOD values it accepts (R288, R292, R302, R338, R372), the packing of its main word, and the
checks of R291 that need no machine state.
-/
namespace Sys2Proof

/-- The register class or use of a field of a three-register word (R284): reserved, a register of a class, or an
immediate of n low bits. -/
inductive Fld where
  | z | v | s | p | t | a
  | imm (n : Nat)
  deriving DecidableEq, Repr

/-- The fields of a main word below its major (R283). -/
inductive Body where
  | rrr (fn : BitVec 3) (r : RRR)
  | ri (r : RI)
  | li (r : LI)
  | br (r : BR)
  | j (off : BitVec 26)
  | ts (r : TS)
  deriving DecidableEq, Repr

/-- An encoded instruction, taken apart: prefixes, major and body. -/
structure Code where
  pfx : Pfx
  major : BitVec 6
  body : Body
  deriving DecidableEq, Repr

/-- The all-zero fields of a three-register word that uses none. -/
def RRR.zero : RRR := ⟨0, 0, 0, false, false⟩

/-- The prefixes of an instruction that accepts only EXT. -/
def Pfx.ofExt (e : Option (BitVec 24)) : Pfx := ⟨Option.none, Option.none, e⟩

/-- The encoding of each instruction (R292); `none` for the events, which are no words. -/
def Instr.code : Instr → Option Code
  | .nop => some ⟨.none, 0x1, .rrr 0 .zero⟩
  | .yield => some ⟨.none, 0x1, .rrr 1 .zero⟩
  | .trapfence => some ⟨.none, 0x1, .rrr 2 .zero⟩
  | .bkpt r => some ⟨.none, 0x1, .rrr 3 r⟩
  | .trap r => some ⟨.none, 0x1, .rrr 4 r⟩
  | .exit => some ⟨.none, 0x1, .rrr 5 .zero⟩
  | .pmark r => some ⟨.none, 0x1, .rrr 6 r⟩
  | .tstamp r => some ⟨.none, 0x1, .rrr 7 r⟩
  | .bra e r => some ⟨.ofExt e, 0x2, .j r⟩
  | .call e r => some ⟨.ofExt e, 0x3, .j r⟩
  | .bcc e r => some ⟨.ofExt e, 0x4, .br r⟩
  | .jr r => some ⟨.none, 0x5, .rrr 0 r⟩
  | .ret => some ⟨.none, 0x5, .rrr 1 .zero⟩
  | .wbase r => some ⟨.none, 0x5, .rrr 2 r⟩
  | .reggrow => some ⟨.none, 0x5, .rrr 3 .zero⟩
  | .regshrink => some ⟨.none, 0x5, .rrr 4 .zero⟩
  | .rpf r => some ⟨.none, 0x5, .rrr 5 r⟩
  | .mfs r => some ⟨.none, 0x5, .rrr 6 r⟩
  | .mts r => some ⟨.none, 0x5, .rrr 7 r⟩
  | .loop e r => some ⟨.ofExt e, 0x6, .br r⟩
  | .sli e r => some ⟨.ofExt e, 0x7, .li r⟩
  | .slih r => some ⟨.none, 0x8, .li r⟩
  | .sadd x r => some ⟨x, 0x9, .rrr 0 r⟩
  | .ssub x r => some ⟨x, 0x9, .rrr 1 r⟩
  | .smul x r => some ⟨x, 0x9, .rrr 2 r⟩
  | .smulh x r => some ⟨x, 0x9, .rrr 3 r⟩
  | .smulhn x r => some ⟨x, 0x9, .rrr 4 r⟩
  | .sdiv x r => some ⟨x, 0x9, .rrr 5 r⟩
  | .sdivn x r => some ⟨x, 0x9, .rrr 6 r⟩
  | .srem x r => some ⟨x, 0x9, .rrr 7 r⟩
  | .sand x r => some ⟨x, 0xa, .rrr 0 r⟩
  | .sor x r => some ⟨x, 0xa, .rrr 1 r⟩
  | .sxor x r => some ⟨x, 0xa, .rrr 2 r⟩
  | .sandn x r => some ⟨x, 0xa, .rrr 3 r⟩
  | .sshl x r => some ⟨x, 0xa, .rrr 4 r⟩
  | .sshr x r => some ⟨x, 0xa, .rrr 5 r⟩
  | .ssra x r => some ⟨x, 0xa, .rrr 6 r⟩
  | .srot x r => some ⟨x, 0xa, .rrr 7 r⟩
  | .smin x r => some ⟨x, 0xb, .rrr 0 r⟩
  | .smax x r => some ⟨x, 0xb, .rrr 1 r⟩
  | .sminn x r => some ⟨x, 0xb, .rrr 2 r⟩
  | .smaxn x r => some ⟨x, 0xb, .rrr 3 r⟩
  | .sclz x r => some ⟨x, 0xb, .rrr 4 r⟩
  | .spopc x r => some ⟨x, 0xb, .rrr 5 r⟩
  | .sbrev x r => some ⟨x, 0xb, .rrr 6 r⟩
  | .smov x r => some ⟨x, 0xb, .rrr 7 r⟩
  | .seq x r => some ⟨x, 0xc, .rrr 0 r⟩
  | .sne x r => some ⟨x, 0xc, .rrr 1 r⟩
  | .slt x r => some ⟨x, 0xc, .rrr 2 r⟩
  | .sle x r => some ⟨x, 0xc, .rrr 3 r⟩
  | .sltn x r => some ⟨x, 0xc, .rrr 4 r⟩
  | .slen x r => some ⟨x, 0xc, .rrr 5 r⟩
  | .sbfx x r => some ⟨x, 0xc, .rrr 6 r⟩
  | .sbfi x r => some ⟨x, 0xc, .rrr 7 r⟩
  | .saddi x r => some ⟨x, 0xd, .ri r⟩
  | .sandi e r => some ⟨.ofExt e, 0xe, .ri r⟩
  | .sori e r => some ⟨.ofExt e, 0xf, .ri r⟩
  | .sxori e r => some ⟨.ofExt e, 0x10, .ri r⟩
  | .sshi r => some ⟨.none, 0x11, .ri r⟩
  | .sld x r => some ⟨x, 0x12, .ri r⟩
  | .sst x r => some ⟨x, 0x13, .ri r⟩
  | .satom x fn r => some ⟨x, 0x14, .rrr fn r⟩
  | .vadd x r => some ⟨x, 0x15, .rrr 0 r⟩
  | .vsub x r => some ⟨x, 0x15, .rrr 1 r⟩
  | .vmul x r => some ⟨x, 0x15, .rrr 2 r⟩
  | .vmulh x r => some ⟨x, 0x15, .rrr 3 r⟩
  | .vmad x r => some ⟨x, 0x15, .rrr 4 r⟩
  | .vmin x r => some ⟨x, 0x15, .rrr 5 r⟩
  | .vmax x r => some ⟨x, 0x15, .rrr 6 r⟩
  | .vabsd x r => some ⟨x, 0x15, .rrr 7 r⟩
  | .vand x r => some ⟨x, 0x16, .rrr 0 r⟩
  | .vor x r => some ⟨x, 0x16, .rrr 1 r⟩
  | .vxor x r => some ⟨x, 0x16, .rrr 2 r⟩
  | .vandn x r => some ⟨x, 0x16, .rrr 3 r⟩
  | .vshl x r => some ⟨x, 0x16, .rrr 4 r⟩
  | .vshr x r => some ⟨x, 0x16, .rrr 5 r⟩
  | .vsra x r => some ⟨x, 0x16, .rrr 6 r⟩
  | .vrot x r => some ⟨x, 0x16, .rrr 7 r⟩
  | .vclz x r => some ⟨x, 0x17, .rrr 0 r⟩
  | .vpopc x r => some ⟨x, 0x17, .rrr 1 r⟩
  | .vbrev x r => some ⟨x, 0x17, .rrr 2 r⟩
  | .vneg x r => some ⟨x, 0x17, .rrr 3 r⟩
  | .vabs x r => some ⟨x, 0x17, .rrr 4 r⟩
  | .vnot x r => some ⟨x, 0x17, .rrr 5 r⟩
  | .vbfx x r => some ⟨x, 0x17, .rrr 6 r⟩
  | .vbfi x r => some ⟨x, 0x17, .rrr 7 r⟩
  | .vcmp x fn r => some ⟨x, 0x18, .rrr fn r⟩
  | .vmov x r => some ⟨x, 0x19, .rrr 0 r⟩
  | .vsel x r => some ⟨x, 0x19, .rrr 1 r⟩
  | .vbcast x r => some ⟨x, 0x19, .rrr 2 r⟩
  | .vextr x r => some ⟨x, 0x19, .rrr 3 r⟩
  | .vins x r => some ⟨x, 0x19, .rrr 4 r⟩
  | .viota x r => some ⟨x, 0x19, .rrr 5 r⟩
  | .vlane x r => some ⟨x, 0x19, .rrr 6 r⟩
  | .vfadd x r => some ⟨x, 0x1a, .rrr 0 r⟩
  | .vfsub x r => some ⟨x, 0x1a, .rrr 1 r⟩
  | .vfmul x r => some ⟨x, 0x1a, .rrr 2 r⟩
  | .vfma x r => some ⟨x, 0x1a, .rrr 3 r⟩
  | .vfms x r => some ⟨x, 0x1a, .rrr 4 r⟩
  | .vfmin x r => some ⟨x, 0x1a, .rrr 5 r⟩
  | .vfmax x r => some ⟨x, 0x1a, .rrr 6 r⟩
  | .vfabsd x r => some ⟨x, 0x1a, .rrr 7 r⟩
  | .vfneg x r => some ⟨x, 0x1b, .rrr 0 r⟩
  | .vfabs x r => some ⟨x, 0x1b, .rrr 1 r⟩
  | .vfclass x r => some ⟨x, 0x1b, .rrr 2 r⟩
  | .vfcpys x r => some ⟨x, 0x1b, .rrr 3 r⟩
  | .vffloor x r => some ⟨x, 0x1b, .rrr 4 r⟩
  | .vfceil x r => some ⟨x, 0x1b, .rrr 5 r⟩
  | .vfrint x r => some ⟨x, 0x1b, .rrr 6 r⟩
  | .vffrac x r => some ⟨x, 0x1b, .rrr 7 r⟩
  | .vfcmp x fn r => some ⟨x, 0x1c, .rrr fn r⟩
  | .vrcp x r => some ⟨x, 0x1d, .rrr 0 r⟩
  | .vrsq x r => some ⟨x, 0x1d, .rrr 1 r⟩
  | .vsqrt x r => some ⟨x, 0x1d, .rrr 2 r⟩
  | .vexp2 x r => some ⟨x, 0x1d, .rrr 3 r⟩
  | .vlog2 x r => some ⟨x, 0x1d, .rrr 4 r⟩
  | .vsin x r => some ⟨x, 0x1d, .rrr 5 r⟩
  | .vcos x r => some ⟨x, 0x1d, .rrr 6 r⟩
  | .vtanh x r => some ⟨x, 0x1d, .rrr 7 r⟩
  | .vfdiv x r => some ⟨x, 0x1e, .rrr 0 r⟩
  | .vsigm x r => some ⟨x, 0x1e, .rrr 1 r⟩
  | .verf x r => some ⟨x, 0x1e, .rrr 2 r⟩
  | .vlog1p x r => some ⟨x, 0x1e, .rrr 3 r⟩
  | .vcvt x r => some ⟨x, 0x1f, .rrr 0 r⟩
  | .vpack2 x r => some ⟨x, 0x1f, .rrr 1 r⟩
  | .vpack4 x r => some ⟨x, 0x1f, .rrr 2 r⟩
  | .vunpk2lo x r => some ⟨x, 0x1f, .rrr 3 r⟩
  | .vunpk2hi x r => some ⟨x, 0x1f, .rrr 4 r⟩
  | .vunpk4 x r => some ⟨x, 0x1f, .rrr 5 r⟩
  | .vqscl x r => some ⟨x, 0x1f, .rrr 6 r⟩
  | .vshfl x r => some ⟨x, 0x20, .rrr 0 r⟩
  | .vshflup x r => some ⟨x, 0x20, .rrr 1 r⟩
  | .vshfldn x r => some ⟨x, 0x20, .rrr 2 r⟩
  | .vshflx x r => some ⟨x, 0x20, .rrr 3 r⟩
  | .vballot x r => some ⟨x, 0x20, .rrr 4 r⟩
  | .vany x r => some ⟨x, 0x20, .rrr 5 r⟩
  | .vall x r => some ⟨x, 0x20, .rrr 6 r⟩
  | .vmatch x r => some ⟨x, 0x20, .rrr 7 r⟩
  | .vredadd x r => some ⟨x, 0x21, .rrr 0 r⟩
  | .vredmin x r => some ⟨x, 0x21, .rrr 1 r⟩
  | .vredmax x r => some ⟨x, 0x21, .rrr 2 r⟩
  | .vredand x r => some ⟨x, 0x21, .rrr 3 r⟩
  | .vredor x r => some ⟨x, 0x21, .rrr 4 r⟩
  | .vscanadd x r => some ⟨x, 0x21, .rrr 5 r⟩
  | .vscanmax x r => some ⟨x, 0x21, .rrr 6 r⟩
  | .part x r => some ⟨x, 0x21, .rrr 7 r⟩
  | .pand x r => some ⟨x, 0x22, .rrr 0 r⟩
  | .por x r => some ⟨x, 0x22, .rrr 1 r⟩
  | .pxor x r => some ⟨x, 0x22, .rrr 2 r⟩
  | .pandn x r => some ⟨x, 0x22, .rrr 3 r⟩
  | .pnot x r => some ⟨x, 0x22, .rrr 4 r⟩
  | .pmov x r => some ⟨x, 0x22, .rrr 5 r⟩
  | .pcnt x r => some ⟨x, 0x22, .rrr 6 r⟩
  | .pfirst x r => some ⟨x, 0x22, .rrr 7 r⟩
  | .vld x fn r => some ⟨x, 0x23, .rrr fn r⟩
  | .vst x fn r => some ⟨x, 0x24, .rrr fn r⟩
  | .vldnf x fn r => some ⟨x, 0x25, .rrr fn r⟩
  | .atom x fn r => some ⟨x, 0x26, .rrr fn r⟩
  | .smaxpk x r => some ⟨x, 0x27, .rrr 0 r⟩
  | .sminpk x r => some ⟨x, 0x27, .rrr 1 r⟩
  | .hinc x r => some ⟨x, 0x27, .rrr 2 r⟩
  | .fence x => some ⟨x, 0x28, .rrr 0 .zero⟩
  | .ntdrain x => some ⟨x, 0x28, .rrr 1 .zero⟩
  | .prefetch x r => some ⟨x, 0x28, .rrr 2 r⟩
  | .pgreq x r => some ⟨x, 0x28, .rrr 3 r⟩
  | .fwait x => some ⟨x, 0x28, .rrr 4 .zero⟩
  | .winreq x r => some ⟨x, 0x28, .rrr 5 r⟩
  | .winrel x r => some ⟨x, 0x28, .rrr 6 r⟩
  | .rlq x r => some ⟨x, 0x28, .rrr 7 r⟩
  | .cpy x r => some ⟨x, 0x29, .rrr 0 r⟩
  | .cpy2d x r => some ⟨x, 0x29, .rrr 1 r⟩
  | .gath x r => some ⟨x, 0x29, .rrr 2 r⟩
  | .scat x r => some ⟨x, 0x29, .rrr 3 r⟩
  | .kvsend x r => some ⟨x, 0x29, .rrr 4 r⟩
  | .cpyfill x r => some ⟨x, 0x29, .rrr 5 r⟩
  | .cpycan x r => some ⟨x, 0x29, .rrr 6 r⟩
  | .bar r => some ⟨.none, 0x2a, .rrr 0 r⟩
  | .bararr r => some ⟨.none, 0x2a, .rrr 1 r⟩
  | .barwait r => some ⟨.none, 0x2a, .rrr 2 r⟩
  | .stageacq r => some ⟨.none, 0x2a, .rrr 3 r⟩
  | .stagerel r => some ⟨.none, 0x2a, .rrr 4 r⟩
  | .evsig r => some ⟨.none, 0x2a, .rrr 5 r⟩
  | .evwait r => some ⟨.none, 0x2a, .rrr 6 r⟩
  | .launch r => some ⟨.none, 0x2a, .rrr 7 r⟩
  | .mtile x r => some ⟨x, 0x2b, .rrr 0 r⟩
  | .mzero x r => some ⟨x, 0x2b, .rrr 1 r⟩
  | .mdrain x r => some ⟨x, 0x2b, .rrr 2 r⟩
  | .mspec x r => some ⟨x, 0x2b, .rrr 3 r⟩
  | .mcommit x => some ⟨x, 0x2b, .rrr 4 .zero⟩
  | .mdiscard x => some ⟨x, 0x2b, .rrr 5 .zero⟩
  | .accsave x r => some ⟨x, 0x2b, .rrr 6 r⟩
  | .accload x r => some ⟨x, 0x2b, .rrr 7 r⟩
  | .mloop x r => some ⟨x, 0x2c, .rrr 0 r⟩
  | .mloopq x r => some ⟨x, 0x2c, .rrr 1 r⟩
  | .mwait x => some ⟨x, 0x2c, .rrr 2 .zero⟩
  | .mstat x r => some ⟨x, 0x2c, .rrr 3 r⟩
  | .tswr x r => some ⟨x, 0x2d, .ts r⟩
  | .tsrd x r => some ⟨x, 0x2e, .ts r⟩
  | .tld x r => some ⟨x, 0x2f, .rrr 0 r⟩
  | .tst x r => some ⟨x, 0x2f, .rrr 1 r⟩
  | .tmov x r => some ⟨x, 0x2f, .rrr 2 r⟩
  | .tzero x r => some ⟨x, 0x2f, .rrr 3 r⟩
  | .ttrans x r => some ⟨x, 0x2f, .rrr 4 r⟩
  | .rngdraw x r => some ⟨x, 0x30, .rrr 0 r⟩
  | .rngjump x r => some ⟨x, 0x30, .rrr 1 r⟩
  | .rngget x r => some ⟨x, 0x30, .rrr 2 r⟩
  | .rngset x r => some ⟨x, 0x30, .rrr 3 r⟩
  | .rngflt x r => some ⟨x, 0x30, .rrr 4 r⟩
  | .btld x r => some ⟨x, 0x31, .rrr 0 r⟩
  | .btst x r => some ⟨x, 0x31, .rrr 1 r⟩
  | .seqpark x r => some ⟨x, 0x31, .rrr 2 r⟩
  | .seqwake x r => some ⟨x, 0x31, .rrr 3 r⟩
  | .seqdone x r => some ⟨x, 0x31, .rrr 4 r⟩
  | .seqemit x r => some ⟨x, 0x31, .rrr 5 r⟩
  | .maskld x r => some ⟨x, 0x31, .rrr 6 r⟩
  | .seqstat x r => some ⟨x, 0x31, .rrr 7 r⟩
  | .kvalloc x r => some ⟨x, 0x32, .rrr 0 r⟩
  | .kvtrunc x r => some ⟨x, 0x32, .rrr 1 r⟩
  | .kvshare x r => some ⟨x, 0x32, .rrr 2 r⟩
  | .kvref x r => some ⟨x, 0x32, .rrr 3 r⟩
  | .kvcow x r => some ⟨x, 0x32, .rrr 4 r⟩
  | .kvpin x r => some ⟨x, 0x32, .rrr 5 r⟩
  | .kvunpin x r => some ⟨x, 0x32, .rrr 6 r⟩
  | .kvwhere x r => some ⟨x, 0x32, .rrr 7 r⟩
  | .brank x r => some ⟨x, 0x33, .rrr 0 r⟩
  | .bsel x r => some ⟨x, 0x33, .rrr 1 r⟩
  | .bset x r => some ⟨x, 0x33, .rrr 2 r⟩
  | .bclr x r => some ⟨x, 0x33, .rrr 3 r⟩
  | .bcnt x r => some ⟨x, 0x33, .rrr 4 r⟩
  | .tapeget r => some ⟨.none, 0x34, .rrr 0 r⟩
  | .tapeput r => some ⟨.none, 0x34, .rrr 1 r⟩
  | .depsignal r => some ⟨.none, 0x34, .rrr 2 r⟩
  | .depwait r => some ⟨.none, 0x34, .rrr 3 r⟩
  | .wslot r => some ⟨.none, 0x34, .rrr 4 r⟩
  | .wrel r => some ⟨.none, 0x34, .rrr 5 r⟩
  | .ramphint r => some ⟨.none, 0x35, .rrr 0 r⟩
  | .ballast r => some ⟨.none, 0x35, .rrr 1 r⟩
  | .traceon r => some ⟨.none, 0x35, .rrr 2 r⟩
  | .traceoff => some ⟨.none, 0x35, .rrr 3 .zero⟩
  | .cntrd r => some ⟨.none, 0x35, .rrr 4 r⟩
  | .tatrd r => some ⟨.none, 0x35, .rrr 5 r⟩
  | .instructionFetch _ _ => none
  | .mtuConfirmation _ => none
  | .loadDataArrival _ _ _ => none
  | .sfuResult _ => none
  | .boundaryStop _ _ => none
  | .faultRecordDrain _ => none
  | .mtuInvctlDrop _ _ => none
  | .mtuInvctlClose _ _ => none
  | .mtuInvctlOpen _ _ => none
  | .mtuInvalidateComplete _ => none
  | .replayGroup _ _ _ => none
  | .killGroup _ _ _ => none
  | .noticeServiced _ _ _ => none
  | .noticeRefused _ _ _ => none
  | .noticeTimer _ => none
  | .ownerTicketTimeout _ => none
  | .fqSizeWrite _ _ _ => none
  | .registerWrite _ => none
  | .ticket _ => none
  | .notice _ => none
  | .ticketExpiry _ => none
  | .ownerRequest _ => none
  | .switchRequest _ _ => none
  | .rdrsp _ => none
  | .wrack _ => none
  | .atrsp _ => none
  | .winreqReceive _ => none
  | .winrsp _ => none
  | .wininv _ => none
  | .winack _ => none
  | .windowDrainComplete _ _ => none
  | .expctlOpen _ _ => none
  | .expctlClose _ _ => none
  | .expctlForce _ _ => none
  | .exportStuckTimeout _ => none
  | .recall _ => none
  | .recack _ => none
  | .probe _ => none
  | .probeack _ => none
  | .tsyncTimer => none
  | .tsync _ => none
  | .tsyncrsp _ => none
  | .portFailure _ => none
  | .copyChunk _ => none
  | .matrixKStep _ => none
  | .matrixOpComplete _ => none
  | .specResolution _ _ => none
  | .pageStoreOperation _ => none
  | .pageMove _ => none
  | .handoffReceive _ => none
  | .handoffCompletion _ _ => none
  | .launchQueueRead _ => none
  | .teamPlacement _ _ => none
  | .splitDrainTrigger _ => none
  | .registerCompaction _ => none
  | .growDeadlock _ => none
  | .rampSlot => none
  | .damperSample _ => none
  | .watchdog _ _ => none
  | .schedCtlWrite _ _ => none
  | .carillonEnable _ _ => none
  | .frameBoundary => none
  | .frameEnd => none
  | .carillonStructureRetry => none
  | .scmdFree _ _ => none
  | .scmdWake _ _ => none
  | .scmdMarkError _ _ _ => none
  | .rqtailWrite _ _ => none
  | .cqheadWrite _ _ => none
  | .toolReturn _ _ _ => none
  | .guestAccess _ _ _ _ => none
  | .preSave _ => none
  | .preRestore _ => none
  | .preSaveFlush _ => none
  | .preEndContext _ => none
  | .saveQuiesced => none
  | .saveAreaWritten => none
  | .uncorrectableError _ => none
  | .carillonTakeover => none
  | .damperTakeover => none
  | .thermalHot _ _ => none
  | .tattooTick => none
  | .pcSample _ _ => none
  | .traceDrain _ => none
  | .clusterPowerGate _ => none
  | .attest => none
  | .installTenantKey _ => none
  | .eraseTenantKey _ => none
  | .readIdentityKey => none
  | .readEncapsulationKey => none
  | .setConfidential _ => none
  | .flashUpdate => none
  | .hostApertureAccess _ _ => none
  | .moduleReset => none
  | .sidebandReset _ _ => none
  | .lineEncryptWriteback _ => none
  | .writeThroughAcknowledgement _ _ => none
  | .hostCompletion _ => none
  | .planeCredit _ => none

/-- The main word (R283): each format's fields at their places. -/
def Code.word (c : Code) : Word :=
  match c.body with
  | .rrr fn r => c.major ++ r.d ++ r.a ++ r.b ++ fn ++ BitVec.ofBool r.wa ++ BitVec.ofBool r.wb
  | .ri r => c.major ++ r.d ++ r.a ++ r.imm ++ BitVec.ofBool r.wa
  | .li r => c.major ++ r.d ++ r.imm
  | .br r => c.major ++ r.a ++ r.cc ++ r.off
  | .j off => c.major ++ off
  | .ts r => c.major ++ r.d ++ r.t ++ BitVec.ofBool r.rc ++ r.s ++ r.imm

/-- The three-register fields of a main word (R283). -/
def RRR.ofWord (w : Word) : RRR :=
  ⟨w.extractLsb' 19 7, w.extractLsb' 12 7, w.extractLsb' 5 7, w.getLsbD 1, w.getLsbD 0⟩

/-- The RI fields of a main word (R283). -/
def RI.ofWord (w : Word) : RI :=
  ⟨w.extractLsb' 19 7, w.extractLsb' 12 7, w.extractLsb' 1 11, w.getLsbD 0⟩

/-- The LI fields of a main word (R283). -/
def LI.ofWord (w : Word) : LI := ⟨w.extractLsb' 19 7, w.extractLsb' 0 19⟩

/-- The BR fields of a main word (R283). -/
def BR.ofWord (w : Word) : BR := ⟨w.extractLsb' 19 7, w.extractLsb' 16 3, w.extractLsb' 0 16⟩

/-- The TS fields of a main word (R283). -/
def TS.ofWord (w : Word) : TS :=
  ⟨w.extractLsb' 19 7, w.extractLsb' 15 4, w.getLsbD 14, w.extractLsb' 7 7, w.extractLsb' 0 7⟩

/-- The instruction that a main word of the given major and fn names, with the prefixes before it (R292); `none` for an
illegal major or a reserved fn. -/
def Instr.ofMain (x : Pfx) (w : Word) : Option Instr :=
  let r := RRR.ofWord w
  let fn : BitVec 3 := w.extractLsb' 2 3
  let e := x.ext
  match (w.extractLsb' 26 6).toNat with
  | 0x1 => match fn.toNat with
    | 0 => some .nop
    | 1 => some .yield
    | 2 => some .trapfence
    | 3 => some (.bkpt r)
    | 4 => some (.trap r)
    | 5 => some .exit
    | 6 => some (.pmark r)
    | _ => some (.tstamp r)
  | 0x2 => some (.bra e (w.extractLsb' 0 26))
  | 0x3 => some (.call e (w.extractLsb' 0 26))
  | 0x4 => some (.bcc e (.ofWord w))
  | 0x5 => match fn.toNat with
    | 0 => some (.jr r)
    | 1 => some .ret
    | 2 => some (.wbase r)
    | 3 => some .reggrow
    | 4 => some .regshrink
    | 5 => some (.rpf r)
    | 6 => some (.mfs r)
    | _ => some (.mts r)
  | 0x6 => some (.loop e (.ofWord w))
  | 0x7 => some (.sli e (.ofWord w))
  | 0x8 => some (.slih (.ofWord w))
  | 0x9 => match fn.toNat with
    | 0 => some (.sadd x r)
    | 1 => some (.ssub x r)
    | 2 => some (.smul x r)
    | 3 => some (.smulh x r)
    | 4 => some (.smulhn x r)
    | 5 => some (.sdiv x r)
    | 6 => some (.sdivn x r)
    | _ => some (.srem x r)
  | 0xa => match fn.toNat with
    | 0 => some (.sand x r)
    | 1 => some (.sor x r)
    | 2 => some (.sxor x r)
    | 3 => some (.sandn x r)
    | 4 => some (.sshl x r)
    | 5 => some (.sshr x r)
    | 6 => some (.ssra x r)
    | _ => some (.srot x r)
  | 0xb => match fn.toNat with
    | 0 => some (.smin x r)
    | 1 => some (.smax x r)
    | 2 => some (.sminn x r)
    | 3 => some (.smaxn x r)
    | 4 => some (.sclz x r)
    | 5 => some (.spopc x r)
    | 6 => some (.sbrev x r)
    | _ => some (.smov x r)
  | 0xc => match fn.toNat with
    | 0 => some (.seq x r)
    | 1 => some (.sne x r)
    | 2 => some (.slt x r)
    | 3 => some (.sle x r)
    | 4 => some (.sltn x r)
    | 5 => some (.slen x r)
    | 6 => some (.sbfx x r)
    | _ => some (.sbfi x r)
  | 0xd => some (.saddi x (.ofWord w))
  | 0xe => some (.sandi e (.ofWord w))
  | 0xf => some (.sori e (.ofWord w))
  | 0x10 => some (.sxori e (.ofWord w))
  | 0x11 => some (.sshi (.ofWord w))
  | 0x12 => some (.sld x (.ofWord w))
  | 0x13 => some (.sst x (.ofWord w))
  | 0x14 => some (.satom x fn r)
  | 0x15 => match fn.toNat with
    | 0 => some (.vadd x r)
    | 1 => some (.vsub x r)
    | 2 => some (.vmul x r)
    | 3 => some (.vmulh x r)
    | 4 => some (.vmad x r)
    | 5 => some (.vmin x r)
    | 6 => some (.vmax x r)
    | _ => some (.vabsd x r)
  | 0x16 => match fn.toNat with
    | 0 => some (.vand x r)
    | 1 => some (.vor x r)
    | 2 => some (.vxor x r)
    | 3 => some (.vandn x r)
    | 4 => some (.vshl x r)
    | 5 => some (.vshr x r)
    | 6 => some (.vsra x r)
    | _ => some (.vrot x r)
  | 0x17 => match fn.toNat with
    | 0 => some (.vclz x r)
    | 1 => some (.vpopc x r)
    | 2 => some (.vbrev x r)
    | 3 => some (.vneg x r)
    | 4 => some (.vabs x r)
    | 5 => some (.vnot x r)
    | 6 => some (.vbfx x r)
    | _ => some (.vbfi x r)
  | 0x18 => some (.vcmp x fn r)
  | 0x19 => match fn.toNat with
    | 0 => some (.vmov x r)
    | 1 => some (.vsel x r)
    | 2 => some (.vbcast x r)
    | 3 => some (.vextr x r)
    | 4 => some (.vins x r)
    | 5 => some (.viota x r)
    | 6 => some (.vlane x r)
    | _ => none
  | 0x1a => match fn.toNat with
    | 0 => some (.vfadd x r)
    | 1 => some (.vfsub x r)
    | 2 => some (.vfmul x r)
    | 3 => some (.vfma x r)
    | 4 => some (.vfms x r)
    | 5 => some (.vfmin x r)
    | 6 => some (.vfmax x r)
    | _ => some (.vfabsd x r)
  | 0x1b => match fn.toNat with
    | 0 => some (.vfneg x r)
    | 1 => some (.vfabs x r)
    | 2 => some (.vfclass x r)
    | 3 => some (.vfcpys x r)
    | 4 => some (.vffloor x r)
    | 5 => some (.vfceil x r)
    | 6 => some (.vfrint x r)
    | _ => some (.vffrac x r)
  | 0x1c => some (.vfcmp x fn r)
  | 0x1d => match fn.toNat with
    | 0 => some (.vrcp x r)
    | 1 => some (.vrsq x r)
    | 2 => some (.vsqrt x r)
    | 3 => some (.vexp2 x r)
    | 4 => some (.vlog2 x r)
    | 5 => some (.vsin x r)
    | 6 => some (.vcos x r)
    | _ => some (.vtanh x r)
  | 0x1e => match fn.toNat with
    | 0 => some (.vfdiv x r)
    | 1 => some (.vsigm x r)
    | 2 => some (.verf x r)
    | 3 => some (.vlog1p x r)
    | _ => none
  | 0x1f => match fn.toNat with
    | 0 => some (.vcvt x r)
    | 1 => some (.vpack2 x r)
    | 2 => some (.vpack4 x r)
    | 3 => some (.vunpk2lo x r)
    | 4 => some (.vunpk2hi x r)
    | 5 => some (.vunpk4 x r)
    | 6 => some (.vqscl x r)
    | _ => none
  | 0x20 => match fn.toNat with
    | 0 => some (.vshfl x r)
    | 1 => some (.vshflup x r)
    | 2 => some (.vshfldn x r)
    | 3 => some (.vshflx x r)
    | 4 => some (.vballot x r)
    | 5 => some (.vany x r)
    | 6 => some (.vall x r)
    | _ => some (.vmatch x r)
  | 0x21 => match fn.toNat with
    | 0 => some (.vredadd x r)
    | 1 => some (.vredmin x r)
    | 2 => some (.vredmax x r)
    | 3 => some (.vredand x r)
    | 4 => some (.vredor x r)
    | 5 => some (.vscanadd x r)
    | 6 => some (.vscanmax x r)
    | _ => some (.part x r)
  | 0x22 => match fn.toNat with
    | 0 => some (.pand x r)
    | 1 => some (.por x r)
    | 2 => some (.pxor x r)
    | 3 => some (.pandn x r)
    | 4 => some (.pnot x r)
    | 5 => some (.pmov x r)
    | 6 => some (.pcnt x r)
    | _ => some (.pfirst x r)
  | 0x23 => some (.vld x fn r)
  | 0x24 => some (.vst x fn r)
  | 0x25 => some (.vldnf x fn r)
  | 0x26 => some (.atom x fn r)
  | 0x27 => match fn.toNat with
    | 0 => some (.smaxpk x r)
    | 1 => some (.sminpk x r)
    | 2 => some (.hinc x r)
    | _ => none
  | 0x28 => match fn.toNat with
    | 0 => some (.fence x)
    | 1 => some (.ntdrain x)
    | 2 => some (.prefetch x r)
    | 3 => some (.pgreq x r)
    | 4 => some (.fwait x)
    | 5 => some (.winreq x r)
    | 6 => some (.winrel x r)
    | _ => some (.rlq x r)
  | 0x29 => match fn.toNat with
    | 0 => some (.cpy x r)
    | 1 => some (.cpy2d x r)
    | 2 => some (.gath x r)
    | 3 => some (.scat x r)
    | 4 => some (.kvsend x r)
    | 5 => some (.cpyfill x r)
    | 6 => some (.cpycan x r)
    | _ => none
  | 0x2a => match fn.toNat with
    | 0 => some (.bar r)
    | 1 => some (.bararr r)
    | 2 => some (.barwait r)
    | 3 => some (.stageacq r)
    | 4 => some (.stagerel r)
    | 5 => some (.evsig r)
    | 6 => some (.evwait r)
    | _ => some (.launch r)
  | 0x2b => match fn.toNat with
    | 0 => some (.mtile x r)
    | 1 => some (.mzero x r)
    | 2 => some (.mdrain x r)
    | 3 => some (.mspec x r)
    | 4 => some (.mcommit x)
    | 5 => some (.mdiscard x)
    | 6 => some (.accsave x r)
    | _ => some (.accload x r)
  | 0x2c => match fn.toNat with
    | 0 => some (.mloop x r)
    | 1 => some (.mloopq x r)
    | 2 => some (.mwait x)
    | 3 => some (.mstat x r)
    | _ => none
  | 0x2d => some (.tswr x (.ofWord w))
  | 0x2e => some (.tsrd x (.ofWord w))
  | 0x2f => match fn.toNat with
    | 0 => some (.tld x r)
    | 1 => some (.tst x r)
    | 2 => some (.tmov x r)
    | 3 => some (.tzero x r)
    | 4 => some (.ttrans x r)
    | _ => none
  | 0x30 => match fn.toNat with
    | 0 => some (.rngdraw x r)
    | 1 => some (.rngjump x r)
    | 2 => some (.rngget x r)
    | 3 => some (.rngset x r)
    | 4 => some (.rngflt x r)
    | _ => none
  | 0x31 => match fn.toNat with
    | 0 => some (.btld x r)
    | 1 => some (.btst x r)
    | 2 => some (.seqpark x r)
    | 3 => some (.seqwake x r)
    | 4 => some (.seqdone x r)
    | 5 => some (.seqemit x r)
    | 6 => some (.maskld x r)
    | _ => some (.seqstat x r)
  | 0x32 => match fn.toNat with
    | 0 => some (.kvalloc x r)
    | 1 => some (.kvtrunc x r)
    | 2 => some (.kvshare x r)
    | 3 => some (.kvref x r)
    | 4 => some (.kvcow x r)
    | 5 => some (.kvpin x r)
    | 6 => some (.kvunpin x r)
    | _ => some (.kvwhere x r)
  | 0x33 => match fn.toNat with
    | 0 => some (.brank x r)
    | 1 => some (.bsel x r)
    | 2 => some (.bset x r)
    | 3 => some (.bclr x r)
    | 4 => some (.bcnt x r)
    | _ => none
  | 0x34 => match fn.toNat with
    | 0 => some (.tapeget r)
    | 1 => some (.tapeput r)
    | 2 => some (.depsignal r)
    | 3 => some (.depwait r)
    | 4 => some (.wslot r)
    | 5 => some (.wrel r)
    | _ => none
  | 0x35 => match fn.toNat with
    | 0 => some (.ramphint r)
    | 1 => some (.ballast r)
    | 2 => some (.traceon r)
    | 3 => some .traceoff
    | 4 => some (.cntrd r)
    | 5 => some (.tatrd r)
    | _ => none
  | _ => none

/-- The classes of fields d, a and b (R284), as each entry gives them; R343 makes field a of VLD, VST and VLDNF a
scalar or a vector pair by shape. -/
def fieldClasses (major fn : Nat) : Fld × Fld × Fld :=
  match major with
  | 0x1 => match fn with
    | 3 => (.z, .imm 7, .imm 7)
    | 4 => (.z, .imm 7, .imm 7)
    | 6 => (.z, .imm 7, .imm 7)
    | 7 => (.s, .z, .z)
    | _ => (.z, .z, .z)
  | 0x5 => match fn with
    | 0 => (.s, .s, .z)
    | 2 => (.z, .z, .imm 4)
    | 5 => (.z, .v, .imm 6)
    | 6 => (.s, .imm 7, .imm 5)
    | 7 => (.imm 7, .s, .imm 5)
    | _ => (.z, .z, .z)
  | 0x9 => (.s, .s, .s)
  | 0xa => (.s, .s, .s)
  | 0xb => match fn with
    | 4 => (.s, .s, .z)
    | 5 => (.s, .s, .z)
    | 6 => (.s, .s, .z)
    | 7 => (.s, .s, .z)
    | _ => (.s, .s, .s)
  | 0xc => (.s, .s, .s)
  | 0x14 => (.s, .s, .s)
  | 0x15 => (.v, .v, .v)
  | 0x16 => (.v, .v, .v)
  | 0x17 => match fn with
    | 6 => (.v, .v, .v)
    | 7 => (.v, .v, .v)
    | _ => (.v, .v, .z)
  | 0x18 => (.p, .v, .v)
  | 0x19 => match fn with
    | 1 => (.v, .v, .v)
    | 2 => (.v, .s, .z)
    | 3 => (.s, .v, .s)
    | 4 => (.v, .s, .s)
    | 5 => (.v, .p, .z)
    | 6 => (.v, .z, .z)
    | _ => (.v, .v, .z)
  | 0x1a => (.v, .v, .v)
  | 0x1b => match fn with
    | 3 => (.v, .v, .v)
    | _ => (.v, .v, .z)
  | 0x1c => (.p, .v, .v)
  | 0x1d => (.v, .v, .z)
  | 0x1e => match fn with
    | 0 => (.v, .v, .v)
    | _ => (.v, .v, .z)
  | 0x1f => match fn with
    | 0 => (.v, .v, .imm 5)
    | 1 => (.v, .v, .v)
    | 2 => (.v, .v, .v)
    | _ => (.v, .v, .z)
  | 0x20 => match fn with
    | 0 => (.v, .v, .v)
    | 4 => (.s, .p, .z)
    | 5 => (.s, .p, .z)
    | 6 => (.s, .p, .z)
    | 7 => (.p, .v, .z)
    | _ => (.v, .v, .s)
  | 0x21 => match fn with
    | 7 => (.z, .z, .imm 3)
    | _ => (.v, .v, .z)
  | 0x22 => match fn with
    | 4 => (.p, .p, .z)
    | 5 => (.p, .p, .z)
    | 6 => (.s, .p, .z)
    | 7 => (.p, .p, .z)
    | _ => (.p, .p, .p)
  | 0x23 => (.v, if fn = 4 ∨ fn = 5 then .v else .s, .s)
  | 0x24 => (.v, if fn = 4 ∨ fn = 5 then .v else .s, .s)
  | 0x25 => (.v, if fn = 4 ∨ fn = 5 then .v else .s, .s)
  | 0x26 => (.v, .v, .s)
  | 0x27 => (.v, .v, .s)
  | 0x28 => match fn with
    | 2 => (.z, .s, .s)
    | 3 => (.z, .v, .s)
    | 5 => (.s, .s, .s)
    | 6 => (.z, .s, .z)
    | 7 => (.s, .s, .s)
    | _ => (.z, .z, .z)
  | 0x29 => match fn with
    | 2 => (.s, .s, .z)
    | 3 => (.s, .s, .z)
    | 4 => (.s, .s, .z)
    | 6 => (.s, .z, .z)
    | _ => (.s, .s, .s)
  | 0x2a => match fn with
    | 1 => (.s, .z, .imm 4)
    | 2 => (.z, .s, .imm 4)
    | 3 => (.z, .s, .imm 3)
    | 4 => (.z, .s, .imm 2)
    | 5 => (.z, .s, .z)
    | 6 => (.z, .s, .s)
    | 7 => (.s, .s, .z)
    | _ => (.z, .z, .imm 4)
  | 0x2b => match fn with
    | 0 => (.s, .s, .z)
    | 1 => (.a, .z, .z)
    | 3 => (.z, .s, .s)
    | 4 => (.z, .z, .z)
    | 5 => (.z, .z, .z)
    | 7 => (.a, .s, .z)
    | _ => (.s, .a, .s)
  | 0x2c => match fn with
    | 2 => (.z, .z, .z)
    | 3 => (.s, .z, .z)
    | _ => (.s, .s, .s)
  | 0x2f => match fn with
    | 2 => (.t, .t, .z)
    | 3 => (.t, .z, .z)
    | 4 => (.t, .t, .z)
    | _ => (.t, .s, .s)
  | 0x30 => match fn with
    | 0 => (.v, .s, .z)
    | 1 => (.z, .s, .s)
    | 4 => (.v, .v, .z)
    | _ => (.s, .s, .imm 3)
  | 0x31 => match fn with
    | 2 => (.z, .s, .imm 1)
    | 3 => (.z, .s, .z)
    | 4 => (.z, .s, .z)
    | 6 => (.p, .s, .s)
    | 7 => (.s, .s, .z)
    | _ => (.s, .s, .s)
  | 0x32 => (.s, .s, .s)
  | 0x33 => match fn with
    | 4 => (.s, .s, .imm 2)
    | _ => (.v, .s, .imm 2)
  | 0x34 => match fn with
    | 0 => (.s, .s, .z)
    | 2 => (.z, .s, .z)
    | 4 => (.s, .s, .s)
    | _ => (.z, .s, .s)
  | 0x35 => match fn with
    | 2 => (.z, .z, .imm 7)
    | 3 => (.z, .z, .z)
    | 4 => (.s, .s, .z)
    | 5 => (.s, .s, .z)
    | _ => (.z, .s, .z)
  | _ => (.z, .z, .z)

/-- Whether wa and wb may be 1 (R285). -/
def waitBits (major fn : Nat) : Bool × Bool :=
  match major with
  | 0x1 => (false, false)
  | 0x5 => match fn with
    | 0 => (true, false)
    | 7 => (true, false)
    | _ => (false, false)
  | 0x9 => (true, true)
  | 0xa => (true, true)
  | 0xb => match fn with
    | 4 => (true, false)
    | 5 => (true, false)
    | 6 => (true, false)
    | 7 => (true, false)
    | _ => (true, true)
  | 0xc => (true, true)
  | 0x14 => (true, true)
  | 0x15 => (true, true)
  | 0x16 => (true, true)
  | 0x17 => match fn with
    | 6 => (true, true)
    | 7 => (true, true)
    | _ => (true, false)
  | 0x18 => (true, true)
  | 0x19 => match fn with
    | 1 => (true, true)
    | 3 => (true, true)
    | 4 => (true, true)
    | 6 => (false, false)
    | _ => (true, false)
  | 0x1a => (true, true)
  | 0x1b => match fn with
    | 3 => (true, true)
    | _ => (true, false)
  | 0x1c => (true, true)
  | 0x1d => (true, false)
  | 0x1e => match fn with
    | 0 => (true, true)
    | _ => (true, false)
  | 0x1f => match fn with
    | 1 => (true, true)
    | 2 => (true, true)
    | _ => (true, false)
  | 0x20 => match fn with
    | 4 => (true, false)
    | 5 => (true, false)
    | 6 => (true, false)
    | 7 => (true, false)
    | _ => (true, true)
  | 0x21 => match fn with
    | 7 => (false, false)
    | _ => (true, false)
  | 0x22 => match fn with
    | 4 => (true, false)
    | 5 => (true, false)
    | 6 => (true, false)
    | 7 => (true, false)
    | _ => (true, true)
  | 0x23 => (true, true)
  | 0x24 => (true, true)
  | 0x25 => (true, true)
  | 0x26 => (true, true)
  | 0x27 => (true, true)
  | 0x28 => match fn with
    | 0 => (false, false)
    | 1 => (false, false)
    | 4 => (false, false)
    | 6 => (true, false)
    | _ => (true, true)
  | 0x29 => match fn with
    | 2 => (true, false)
    | 3 => (true, false)
    | 4 => (true, false)
    | 6 => (false, false)
    | _ => (true, true)
  | 0x2a => match fn with
    | 0 => (false, false)
    | 1 => (false, false)
    | 6 => (true, true)
    | _ => (true, false)
  | 0x2b => match fn with
    | 0 => (true, false)
    | 2 => (true, true)
    | 3 => (false, true)
    | 6 => (true, true)
    | 7 => (true, false)
    | _ => (false, false)
  | 0x2c => match fn with
    | 2 => (false, false)
    | 3 => (false, false)
    | _ => (true, true)
  | 0x2f => match fn with
    | 2 => (true, false)
    | 3 => (false, false)
    | 4 => (true, false)
    | _ => (true, true)
  | 0x30 => match fn with
    | 1 => (true, true)
    | _ => (true, false)
  | 0x31 => match fn with
    | 2 => (true, false)
    | 3 => (true, false)
    | 4 => (true, false)
    | 7 => (true, false)
    | _ => (true, true)
  | 0x32 => (true, true)
  | 0x33 => (true, false)
  | 0x34 => match fn with
    | 0 => (true, false)
    | 2 => (true, false)
    | _ => (true, true)
  | 0x35 => match fn with
    | 2 => (false, false)
    | 3 => (false, false)
    | _ => (true, false)
  | _ => (false, false)

/-- The majors that accept MOD (R292). -/
def acceptsMod (major : Nat) : Bool :=
  (9 ≤ major && major ≤ 13) || (0x12 ≤ major && major ≤ 0x29) || (0x2B ≤ major && major ≤ 0x33)

/-- The majors that accept REP (R292). -/
def acceptsRep (major : Nat) : Bool :=
  (9 ≤ major && major ≤ 12) || (0x15 ≤ major && major ≤ 0x1F) || (0x22 ≤ major && major ≤ 0x25)

/-- The majors that accept EXT (R292). -/
def acceptsExt (major : Nat) : Bool :=
  (2 ≤ major && major ≤ 4) || major = 6 || major = 7 || (13 ≤ major && major ≤ 16) || major = 0x12 || major = 0x13

/-- Whether an instruction acts on lanes, so that its guard may be any predicate (R177, R302, R338, R372). -/
def actsOnLanes (major fn : Nat) : Bool :=
  match major with
  | 0x19 => fn != 3 && fn != 4
  | 0x21 => fn != 7
  | 0x28 => fn = 3
  | 0x2D | 0x2E => true
  | 0x30 => fn = 0 || fn = 4
  | 0x33 => fn != 4
  | m => (0x15 ≤ m && m ≤ 0x20) || (0x22 ≤ m && m ≤ 0x27)

/-- The TYPE codes an instruction admits (R302, R338, R343, R372). -/
def typeCodes (major fn : Nat) : List Nat :=
  let ints := [0, 5, 6, 7, 8]
  let floats := [0, 9, 10, 11]
  let cvt := [0, 1, 2, 3, 4, 5, 6, 7, 8, 9, 10, 11, 12, 13, 14, 15, 16, 18]
  match major with
  | 0x09 => if fn ≤ 2 then [0, 7, 8] else [0]
  | 0x0D => [0, 7, 8]
  | 0x12 | 0x13 => List.range 12
  | 0x14 | 0x26 => if fn ≤ 2 then [0, 5, 6, 7, 8, 11] else ints
  | 0x15 | 0x16 | 0x18 => ints
  | 0x17 => if fn = 3 ∨ fn = 4 then [0, 5, 7] else ints
  | 0x19 => if fn ≤ 4 then ints else [0]
  | 0x1A | 0x1B | 0x1C | 0x1D | 0x1E => floats
  | 0x1F => match fn with
    | 0 => cvt
    | 1 | 3 | 4 => [0, 3, 4, 9, 10]
    | 2 | 5 => [0, 1, 2, 12, 13, 18]
    | _ => [0, 12, 13, 14, 15, 16, 18]
  | 0x20 => if fn ≤ 3 ∨ fn = 7 then ints else [0]
  | 0x21 => if fn = 3 ∨ fn = 4 then ints else if fn = 7 then [0] else [0, 5, 6, 7, 8, 9, 10, 11]
  | 0x23 | 0x24 | 0x25 =>
    if fn = 1 ∨ fn = 5 then [0, 7, 8] else if fn = 2 then [0] else [0, 1, 2, 3, 4, 5, 6, 9, 10, 11]
  | 0x2B => if fn = 2 then cvt else [0]
  | _ => [0]

/-- The number of ROUND codes an instruction admits, from 0 upward (R261, R302, R372). -/
def roundCodes (major fn type : Nat) : Nat :=
  match major with
  | 0x1A => if fn = 5 ∨ fn = 6 then 1 else 6
  | 0x1B => if fn = 6 ∨ fn = 7 then 6 else 1
  | 0x1D => if fn = 2 then 6 else 1
  | 0x1E => if fn = 0 then 6 else 1
  | 0x1F => if fn ≤ 2 ∨ fn = 6 then 6 else 1
  | 0x21 => if fn ≠ 1 ∧ fn ≠ 2 ∧ 9 ≤ type ∧ type ≤ 11 then 5 else 1
  | 0x2B => if fn = 2 then 6 else 1
  | _ => 1

/-- Whether SAT may be 1 (R302, R372). -/
def admitsSat (major fn type : Nat) : Bool :=
  match major with
  | 0x09 => fn ≤ 2
  | 0x0D => true
  | 0x15 => fn ≤ 2 || fn = 4
  | 0x17 => fn = 3 || fn = 4
  | 0x1A => fn ≤ 4 || fn = 7
  | 0x1D => fn = 2
  | 0x1E => fn = 0
  | 0x1F => fn ≤ 2
  | 0x21 => (fn = 0 || fn = 5) && type ≤ 8
  | 0x2B => fn = 2
  | _ => false

/-- The SPACE codes an instruction admits (R60, R63, R338, R372). -/
def spaceCodes (major fn : Nat) : List Nat :=
  match major with
  | 0x12 | 0x13 => [0, 2, 3, 4, 5]
  | 0x23 | 0x24 | 0x25 => [0, 1, 2, 3, 4, 5]
  | 0x14 | 0x26 | 0x27 | 0x33 => [0, 2, 3, 4]
  | 0x28 => if fn = 2 then [0, 4] else if fn = 7 then [0, 2, 3, 4] else [0]
  | 0x2B => if fn = 2 ∨ fn = 6 ∨ fn = 7 then [0, 2, 3, 4] else [0]
  | 0x2F | 0x31 => if fn ≤ 1 then [0, 2, 3, 4] else [0]
  | _ => [0]

/-- Whether HINT may be nonzero (R338, R372). -/
def admitsHint (major fn : Nat) : Bool :=
  match major with
  | 0x12 | 0x13 | 0x14 | 0x23 | 0x24 | 0x25 | 0x26 | 0x27 | 0x33 => true
  | 0x28 => fn = 2
  | 0x2B => fn = 2 || fn = 6 || fn = 7
  | 0x2C | 0x2F => fn ≤ 1
  | _ => false

/-- The combinations of ORDER, SCOPE and SPACE of R123 and R372. -/
def orderScopeOk (major fn order scope space : Nat) : Bool :=
  let promoSpace := space = 0 || space = 3 || space = 4
  match major with
  | 0x12 | 0x23 | 0x25 => order ≤ 1 && (scope ≤ 5 || (order = 1 && promoSpace))
  | 0x13 | 0x24 => (order = 0 || order = 2) && scope ≤ 5
  | 0x14 | 0x26 | 0x27 => scope ≤ 5 || ((order = 1 || order = 3) && promoSpace)
  | 0x28 => order = 0 && (scope = 0 || (fn = 0 && scope ≤ 5))
  | 0x33 => order = 0 && (scope = 0 || ((fn = 2 || fn = 3) && scope ≤ 5))
  | _ => order = 0 && scope = 0

/-- The MOD payloads an instruction admits (R288). -/
def modAdmitted (major fn : Nat) (m : Mod) : Bool :=
  (actsOnLanes major fn || (m.pred = 0 && !m.neg)) &&
  (typeCodes major fn).contains m.type.toNat &&
  (m.round.toNat < roundCodes major fn m.type.toNat) &&
  (!m.sat || admitsSat major fn m.type.toNat) &&
  (spaceCodes major fn).contains m.space.toNat &&
  (m.hint = 0 || admitsHint major fn) &&
  orderScopeOk major fn m.order.toNat m.scope.toNat m.space.toNat

/-- Whether a field holds only bits its class uses (R284). -/
def Fld.holds (c : Fld) (f : BitVec 7) : Bool :=
  match c with
  | .z => f = 0
  | .v | .s => true
  | .p | .t | .a => f.toNat < 16
  | .imm n => f.toNat < 2 ^ n

/-- Whether a field names a register, so that REP may step it (R289). -/
def Fld.isReg : Fld → Bool
  | .v | .s | .p | .t | .a => true
  | _ => false

/-- The step a step code names (R289). -/
def repStep (c : BitVec 2) : Nat :=
  match c.toNat with
  | 0 => 0
  | 1 => 1
  | 2 => 2
  | _ => 4

/-- The number of repeats (R289). -/
def Rep.n (r : Rep) : Nat := if r.count = 0 then 64 else r.count.toNat

/-- Whether the register a field reaches at the last repeat exists in its class (R290); a v field is judged against
the block by the machine. -/
def Fld.reachOk (c : Fld) (f : BitVec 7) (step n : Nat) : Bool :=
  match c with
  | .s => f.toNat + (n - 1) * step ≤ 127
  | .p | .t | .a => f.toNat + (n - 1) * step ≤ 15
  | _ => true

/-- The state-register numbers that MFS and MTS take (R294). -/
def stateRegReadable (n : Nat) : Bool :=
  n ≤ 3 || (0x10 ≤ n && n ≤ 0x14) || (0x20 ≤ n && n ≤ 0x22)

/-- The state registers that MTS may write; SEQSLOT from Carillon's context only, which the machine checks (R294). -/
def stateRegWritable (n : Nat) : Bool := n ≤ 3 || n = 0x20

/-- A reserved fn of a family whose fn selects a variant: VCMP and the shapes of VLD, VST and VLDNF (R292). -/
def variantReserved (major fn : Nat) : Bool :=
  (major = 0x18 || major = 0x23 || major = 0x24 || major = 0x25) && fn = 7

/-- The limits that entries place on the main word beyond field widths: reserved selectors, tokens of s0, operand
blocks past s127 (R293, R294, R309 to R311, R328, R336, R343, R357, R373, R377, R392, R393, R399, R404). -/
def mainLimits (major : Nat) (b : Body) : Bool :=
  match b with
  | .br r => if major = 6 then r.cc = 0 else r.cc.toNat < 6 || r.a.toNat < 16
  | .ri r => major != 0x11 || r.imm.extractLsb' 6 3 = 0
  | .rrr fn r =>
    let fn := fn.toNat
    let d := r.d.toNat
    let a := r.a.toNat
    let bb := r.b.toNat
    match major with
    | 0x05 => match fn with
      | 5 => 1 ≤ bb && bb ≤ 32
      | 6 => stateRegReadable (bb * 128 + a)
      | 7 => stateRegWritable (bb * 128 + d)
      | _ => true
    | 0x18 | 0x23 | 0x24 | 0x25 => !variantReserved major fn
    | 0x1F => fn != 0 || ((1 ≤ bb && bb ≤ 16) || bb = 18)
    | 0x21 => fn != 7 || bb ≤ 4
    | 0x29 => d != 0 &&
      a + (match fn with | 0 => 1 | 1 => 2 | 2 => 3 | 3 => 3 | 4 => 3 | 5 => 1 | _ => 0) ≤ 127
    | 0x2B => match fn with
      | 2 => d != 0 && 1 ≤ bb && bb + 3 ≤ 127
      | 6 => d != 0
      | _ => true
    | 0x2C => if fn ≤ 1 then d != 0 && 1 ≤ a && a + 5 ≤ 127 else true
    | 0x30 => match fn with
      | 2 => bb ≤ 2 && 1 ≤ d && d ≤ 126
      | 3 => if bb ≤ 2 then 1 ≤ d && d ≤ 126 else bb ≤ 4 && d = 0
      | _ => true
    | 0x31 => fn != 6 || d != 14
    | 0x32 => fn != 2 || (1 ≤ a && a ≤ 126)
    | 0x34 => fn != 0 || (1 ≤ d && d + 3 ≤ 127)
    | _ => true
  | _ => true

/-- Whether the main word of a code breaks none of R284, R285 and the entries' limits. -/
def Code.mainOk (c : Code) : Bool :=
  match c.body with
  | .rrr fn r =>
    let k := fieldClasses c.major.toNat fn.toNat
    let w := waitBits c.major.toNat fn.toNat
    k.1.holds r.d && k.2.1.holds r.a && k.2.2.holds r.b && (!r.wa || w.1) && (!r.wb || w.2) &&
      mainLimits c.major.toNat c.body
  | _ => mainLimits c.major.toNat c.body

/-- The fn that selects an instruction's MOD row: its fn field, or 0 in the formats without one. -/
def Code.fnNat (c : Code) : Nat :=
  match c.body with
  | .rrr fn _ => fn.toNat
  | _ => 0

/-- Whether the REP prefix steps only registers and stays in range (R289, R290). -/
def Code.repOk (c : Code) : Bool :=
  match c.pfx.rep, c.body with
  | some q, .rrr fn r =>
    let k := fieldClasses c.major.toNat fn.toNat
    (q.ds = 0 || k.1.isReg) && (q.as = 0 || k.2.1.isReg) && (q.bs = 0 || k.2.2.isReg) &&
      k.1.reachOk r.d (repStep q.ds) q.n && k.2.1.reachOk r.a (repStep q.as) q.n &&
      k.2.2.reachOk r.b (repStep q.bs) q.n
  | _, _ => true

/-- The word, counted from the main word as 0 and the prefixes as 1, 2, 3 in the order they stand, that the first
breach of R291 names; `none` when decoding finds no breach. -/
def Code.breach (c : Code) : Option Nat :=
  let major := c.major.toNat
  let nRep := if c.pfx.rep.isSome then 1 else 0
  let nMod := nRep + if c.pfx.mod.isSome then 1 else 0
  let nExt := nMod + 1
  if c.pfx.rep.isSome && !acceptsRep major then some 1
  else if c.pfx.mod.isSome && !acceptsMod major then some nMod
  else if !variantReserved major c.fnNat && !(c.pfx.mod.all (modAdmitted major c.fnNat)) then some nMod
  else if c.pfx.ext.isSome && !acceptsExt major then some nExt
  else if !c.mainOk then some 0
  else if !c.repOk then some 1
  else none

end Sys2Proof
end

