-- ==== Sys2Proof/WellFormed.lean ====
section
/-!
DEFINITION. Which terms of `Instr` an encoding exists for: the fields and prefixes of an instruction break none of the
checks of R284, R285, R288, R289 and R290 that need no machine state.  The checks themselves stand in
Sys2Proof/Machine/Encoding.lean.
-/
namespace Sys2Proof

/-- An instruction is well formed when its code breaks no static check of R291; an event is no word and is always
well formed. -/
def Instr.wf (i : Instr) : Bool :=
  match i.code with
  | some c => c.breach.isNone
  | none => true

/-- Whether a row of the table is an encoded instruction rather than an event. -/
def Instr.isEncoded (i : Instr) : Bool := i.code.isSome

end Sys2Proof
end

