-- ==== Sys2Proof/Decode.lean ====
section
/-!
DEFINITION. Decoding of instruction words (R280 to R292) and, after it, the encoder written from the same tables.
Words come in the order they stand in memory; bytes are little-endian (R4).
-/
namespace Sys2Proof

/-- What decoding the words at a PC gives: an instruction and its number of words, a breach with the word that DETAIL
names (R229, R291), or the need for a further word. -/
inductive Decoded where
  | ok (i : Instr) (words : Nat)
  | illegal (detail : Nat)
  | short
  deriving DecidableEq, Repr

/-- The MOD fields of a prefix payload (R287). -/
def Mod.ofPayload (w : Word) : Mod :=
  { pred := w.extractLsb' 20 4, neg := w.getLsbD 19, type := w.extractLsb' 14 5, order := w.extractLsb' 12 2,
    scope := w.extractLsb' 9 3, space := w.extractLsb' 6 3, hint := w.extractLsb' 4 2, round := w.extractLsb' 1 3,
    sat := w.getLsbD 0 }

/-- The REP fields of a prefix payload (R287). -/
def Rep.ofPayload (w : Word) : Rep :=
  ⟨w.extractLsb' 18 6, w.extractLsb' 16 2, w.extractLsb' 14 2, w.extractLsb' 12 2⟩

/-- The fields of a main word below its major, in the format its major has (R283, R292). -/
def Body.ofWord (w : Word) : Body :=
  let major := (w.extractLsb' 26 6).toNat
  if major = 2 ∨ major = 3 then .j (w.extractLsb' 0 26)
  else if major = 4 ∨ major = 6 then .br (.ofWord w)
  else if major = 7 ∨ major = 8 then .li (.ofWord w)
  else if 0x0D ≤ major ∧ major ≤ 0x13 then .ri (.ofWord w)
  else if major = 0x2D ∨ major = 0x2E then .ts (.ofWord w)
  else .rrr (w.extractLsb' 2 3) (.ofWord w)

/-- The code that prefixes and a main word make. -/
def Code.ofWord (x : Pfx) (w : Word) : Code := ⟨x, w.extractLsb' 26 6, .ofWord w⟩

/-- The first prefix that the main word's major does not accept, counted from 1; 0 when it accepts them all. -/
def Pfx.unaccepted (x : Pfx) (major : Nat) : Nat :=
  let nRep := if x.rep.isSome then 1 else 0
  let nMod := nRep + if x.mod.isSome then 1 else 0
  if x.rep.isSome && !acceptsRep major then 1
  else if x.mod.isSome && !acceptsMod major then nMod
  else if x.ext.isSome && !acceptsExt major then nMod + 1
  else 0

/-- Decoding of a main word after the prefixes `x`, of which there are n (R291, R292).  DEDUCED (log 5): a word of an
illegal major accepts no prefix, so a prefix before it is the first breach. -/
def decodeMain (x : Pfx) (n : Nat) (w : Word) : Decoded :=
  match Instr.ofMain x w with
  | none => .illegal (x.unaccepted (w.extractLsb' 26 6).toNat)
  | some i =>
    match (Code.ofWord x w).breach with
    | some detail => .illegal detail
    | none => .ok i (n + 1)

/-- Decoding of the words at a PC after the prefixes `x`, of which there are n (R280, R291).  A prefix that breaks the
order of R280, kind 3 and a REP with low bits set are breaches of the word just read. -/
def decodeFrom (x : Pfx) (n : Nat) : List Word → Decoded
  | [] => .short
  | w :: ws =>
    if w.extractLsb' 26 6 = 0x3C#6 then
      match (w.extractLsb' 24 2).toNat with
      | 0 =>
        if x.mod.isSome || x.ext.isSome then .illegal (n + 1)
        else decodeFrom { x with mod := some (Mod.ofPayload w) } (n + 1) ws
      | 1 =>
        if x.rep.isSome || x.mod.isSome || x.ext.isSome || w.extractLsb' 0 12 != 0 then .illegal (n + 1)
        else decodeFrom { x with rep := some (Rep.ofPayload w) } (n + 1) ws
      | 2 =>
        if x.ext.isSome then .illegal (n + 1)
        else decodeFrom { x with ext := some (w.extractLsb' 0 24) } (n + 1) ws
      | _ => .illegal (n + 1)
    else decodeMain x n w

/-- The instruction at the head of a list of words. -/
def decode (ws : List Word) : Decoded := decodeFrom Pfx.none 0 ws

/-- The little-endian words of a list of bytes (R4); trailing bytes that fill no word are dropped. -/
def wordsOfBytes : List Byte → List Word
  | b0 :: b1 :: b2 :: b3 :: bs => (b3 ++ b2 ++ b1 ++ b0) :: wordsOfBytes bs
  | _ => []

/-- The instruction at the head of a list of bytes. -/
def decodeBytes (bs : List Byte) : Decoded := decode (wordsOfBytes bs)

/-- The MOD prefix word (R287). -/
def Mod.word (m : Mod) : Word :=
  0x3C#6 ++ 0#2 ++ m.pred ++ BitVec.ofBool m.neg ++ m.type ++ m.order ++ m.scope ++ m.space ++ m.hint ++ m.round ++
    BitVec.ofBool m.sat

/-- The REP prefix word (R287). -/
def Rep.word (q : Rep) : Word := 0x3C#6 ++ 1#2 ++ q.count ++ q.ds ++ q.as ++ q.bs ++ 0#12

/-- The EXT prefix word (R287). -/
def extWord (e : BitVec 24) : Word := 0x3C#6 ++ 2#2 ++ e

/-- The prefix words in the order of R280. -/
def Pfx.words (x : Pfx) : List Word :=
  (x.rep.map Rep.word).toList ++ (x.mod.map Mod.word).toList ++ (x.ext.map extWord).toList

/-- The words of an instruction (R280, R283); none for an event. -/
def encode (i : Instr) : List Word :=
  match i.code with
  | some c => c.pfx.words ++ [c.word]
  | none => []

/-- The little-endian bytes of a word (R4). -/
def Word.bytes (w : Word) : List Byte :=
  [w.extractLsb' 0 8, w.extractLsb' 8 8, w.extractLsb' 16 8, w.extractLsb' 24 8]

/-- The bytes of an instruction. -/
def encodeBytes (i : Instr) : List Byte := (encode i).flatMap Word.bytes

/-- The words of a numbered instruction: bit 0 is the least significant bit of the first word, a later word's bits
count on from it, and every bit from `nbits` up is 0; four words are the longest instruction (R280). -/
def tableWords (nbits w : Nat) : List Word :=
  let v := w % 2 ^ nbits
  [BitVec.ofNat 32 v, BitVec.ofNat 32 (v >>> 32), BitVec.ofNat 32 (v >>> 64), BitVec.ofNat 32 (v >>> 96)]

/-- The instruction the decoder reads from an instruction whose bits are w, numbered as the table numbers them. -/
def decodeTableWord (nbits w : Nat) : Option Instr :=
  match decodeBytes ((tableWords nbits w).flatMap Word.bytes) with
  | .ok i _ => some i
  | _ => none

end Sys2Proof
end

