-- ==== Sys2Proof/Config.lean ====
section
/-!
DEFINITION. What an implementation fixes and the free values: constants without a body, so that nothing can be proved of
which value they are.  Each is applied to what it depends on, or to the counter of free draws (log 4).
-/
namespace Sys2Proof.Config

/-- A value that the spec leaves open, for the n-th draw (log 4). -/
opaque freeValue : Nat → BitVec 64

/-- Whether the part of a core that a counter of R449 watches was busy, or stalled, in the i-th clk in which it could be: for
the core, the counter and i (log 4). -/
opaque partBusy : Nat → Nat → Nat → Bool

/-- Which of the results that R267 allows a special function returns: for the function (major and fn), the type code and
the operand, a position in the list of allowed neighbours (log 8).  R267: the same input gives the same bits always. -/
opaque sfuChoice : Nat → Nat → Nat → Nat

/-- The set of an MTU's leaf cache that a leaf of an ASID, a start and a level goes to, modulo 4,096 (R27; log 10). -/
opaque tlbSet : BitVec 16 → Nat → Nat → Nat

/-- Which way of a full set of the leaf cache the n-th walk replaces, modulo 16 (R27; log 10). -/
opaque tlbWay : Nat → Nat

/-- Whether the n-th walk still finds the entry of a level in a walk cache (R27; log 10). -/
opaque walkHit : Nat → Nat → Bool

/-- Whether the zero that a sum of operands of unlike signs gives is negative (log 14): for the rounding code and the first
operand's sign, magnitude and exponent. -/
opaque zeroSumNeg : Nat → Bool → Nat → Int → Bool

/-- Byte i of what AES-256-GCM gives under a key and a nonce for associated data and a text: the ciphertext, then the
16 bytes of its tag (R452, R464; log 13). -/
opaque gcm : BitVec 256 → BitVec 96 → List Byte → List Byte → Nat → Byte

/-- Byte i of the SHAKE256 digest of a text (R458, R462, R463; log 13). -/
opaque shake : List Byte → Nat → Byte

/-- Byte i of the shared secret that ML-KEM-1024 decapsulates from a ciphertext with the module's key (R463; log 13). -/
opaque decaps : List Byte → Nat → Byte

/-- Byte i of the module's ML-DSA-65 public key (R461; log 13). -/
opaque identityKey : Nat → Byte

/-- Byte i of the module's ML-KEM-1024 encapsulation key (R461; log 13). -/
opaque encapsulationKey : Nat → Byte

/-- Byte i of the ML-DSA-65 signature of a text by the identity key (R462; log 13). -/
opaque signature : List Byte → Nat → Byte

/-- Whether a signed firmware (false) or configuration image (true) verifies (R458; log 13). -/
opaque verifies : Bool → List Byte → Bool

end Sys2Proof.Config
end

