-- ==== Sys2Proof/Machine/Packet.lean ====
section
/-!
DEFINITION. Packets of the fabric as they stand on the wire (R161 to R163): the header flit of each type, the reserved bits
by which a receiver discards one, the flits of a packet and their bytes; and the payload of a replay notice (R44).
-/
namespace Sys2Proof

/-- A number placed at a bit position of a flit. -/
def atBit (lo : Nat) {n : Nat} (x : BitVec n) : Nat := x.toNat * 2 ^ lo

/-- Whether a packet type is one of the responses, whose dword 1 has a layout of its own (R161, R162).  DEDUCED (log 68):
WINACK, PROBEACK and TSYNCRSP are among them. -/
def isResponse (typ : Nat) : Bool := [4, 5, 6, 7, 0x0A, 0x0C, 0x0E, 0x10, 0x12].contains typ

/-- The header of a NOTICE (R163). -/
def Flit.noticeHeader (f : Flit) : BitVec 256 :=
  BitVec.ofNat 256 (atBit 0 f.typ + atBit 5 f.src + atBit 15 f.dst + atBit 25 f.count +
    atBit 29 (f.rsv.extractLsb' 0 11) + atBit 40 f.payload)

/-- Dword 0 of a header (R161). -/
def Flit.dword0 (f : Flit) : BitVec 64 :=
  BitVec.ofNat 64 (atBit 0 f.typ + atBit 5 f.src + atBit 15 f.dst + atBit 25 f.win + atBit 31 f.gen + atBit 39 f.tag +
    atBit 51 f.core + atBit 61 f.scope)

/-- Dword 1 of a header: that of a response or that of every other type (R161). -/
def Flit.dword1 (f : Flit) : BitVec 64 :=
  BitVec.ofNat 64 (if isResponse f.typ.toNat then
      atBit 0 f.status + atBit 8 f.pois + atBit 12 f.dirty + (if f.grant then 2 ^ 16 else 0) +
        atBit 17 (f.rsv.extractLsb' 0 15) + atBit 32 f.tkt
    else
      atBit 0 f.key + atBit 32 f.ticket + atBit 48 f.slot + atBit 52 f.sect + atBit 56 f.order +
        (if f.replay then 2 ^ 58 else 0) + (if f.fc then 2 ^ 59 else 0) + (if f.excl then 2 ^ 60 else 0) +
        (if f.nf then 2 ^ 61 else 0) + atBit 62 (f.rsv.extractLsb' 0 2))

/-- Dword 2 of a header (R161). -/
def Flit.dword2 (f : Flit) : BitVec 64 :=
  BitVec.ofNat 64 (atBit 0 f.line + atBit 50 f.aop + atBit 53 f.atype + atBit 58 (f.rsv.extractLsb' 15 6))

/-- The header flit of a packet (R161, R163). -/
def Flit.header (f : Flit) : BitVec 256 :=
  if f.typ = 8 then f.noticeHeader else f.bmask ++ f.dword2 ++ f.dword1 ++ f.dword0

/-- Whether a header has a reserved TYPE or a nonzero reserved bit (R162). -/
def headerBad (h : BitVec 256) : Bool :=
  let typ := (h.extractLsb' 0 5).toNat
  decide (typ = 0 ∨ 0x12 < typ) ||
    if typ = 8 then h.extractLsb' 29 11 != 0
    else h.extractLsb' 186 6 != 0 || (if isResponse typ then h.extractLsb' 81 15 != 0 else h.extractLsb' 126 2 != 0)

/-- A line as two data flits, byte 0 first. -/
def lineFlits (d : BitVec 512) : List (BitVec 256) := [d.extractLsb' 0 256, d.extractLsb' 256 256]

/-- The data flits that follow a header (R162). -/
def Flit.dataFlits (f : Flit) : List (BitVec 256) :=
  match f.typ.toNat with
  | 2 => lineFlits f.data
  | 3 => lineFlits f.data ++ if f.aop = 7 then lineFlits f.cmp else []
  | 4 | 6 => if f.status = 0 then lineFlits f.data else []
  | 0x0A => [f.desc]
  | 0x10 => if f.dirty = 0 then [] else lineFlits f.data
  | _ => []

/-- The flits of a packet in the order they are sent. -/
def Flit.flits (f : Flit) : List (BitVec 256) := f.header :: f.dataFlits

/-- The bytes of a packet, byte 0 of each flit first (R161). -/
def Flit.bytes (f : Flit) : List Byte :=
  f.flits.flatMap fun w => (List.range 32).map fun i => w.extractLsb' (8 * i) 8

/-- The payload of a replay notice (R44): slot i holds a ticket and its status, and the slots beyond are zero. -/
def noticePayload (es : List (BitVec 16 × BitVec 2)) : BitVec 216 :=
  BitVec.ofNat 216 ((List.range es.length).map fun i =>
    let e := es.getD i (0, 0)
    atBit (18 * i) e.1 + atBit (18 * i + 16) e.2).sum

/-- The slots of a NOTICE below its COUNT (R44, R163). -/
def Flit.noticeSlots (f : Flit) : List (BitVec 16 × BitVec 2) :=
  (List.range (min 12 f.count.toNat)).map fun i => (f.payload.extractLsb' (18 * i) 16, f.payload.extractLsb' (18 * i + 16) 2)

/-- The control plane between two nodes (R154). -/
def ctlPlane (src dst : BitVec 10) : BitVec 6 := (src ^^^ dst).extractLsb' 0 6

end Sys2Proof
end

