-- ==== Sys2Proof/Machine/Map.lean ====
section
/-!
DEFINITION. Sparse tables as plain data: a list of (key, value) pairs with strictly rising keys in which no entry equals
the default that an unlisted key reads as, so that equal tables are equal lists.
-/
namespace Sys2Proof.Machine

/-- A table from numbers to values. -/
abbrev Tab (α : Type) : Type := List (Nat × α)

/-- The entry at a key, if the table lists one. -/
def Tab.find {α : Type} : Tab α → Nat → Option α
  | [], _ => none
  | (j, v) :: m, k => if k = j then some v else Tab.find m k

/-- The value at a key, `d` where the table lists none. -/
def Tab.get {α : Type} (d : α) (m : Tab α) (k : Nat) : α := (Tab.find m k).getD d

/-- Put a value at a key, keeping the keys in order. -/
def Tab.put {α : Type} : Tab α → Nat → α → Tab α
  | [], k, v => [(k, v)]
  | (j, w) :: m, k, v =>
    if k < j then (k, v) :: (j, w) :: m
    else if k = j then (k, v) :: m
    else (j, w) :: Tab.put m k v

/-- Take a key out. -/
def Tab.drop {α : Type} : Tab α → Nat → Tab α
  | [], _ => []
  | (j, w) :: m, k => if k = j then Tab.drop m k else (j, w) :: Tab.drop m k

/-- Set the value at a key in a table whose unlisted keys read `d`: writing `d` takes the entry out. -/
def Tab.set {α : Type} [DecidableEq α] (d : α) (m : Tab α) (k : Nat) (v : α) : Tab α :=
  if v = d then Tab.drop m k else Tab.put m k v

/-- The canonical form: keys strictly rising from `lo`, no entry equal to the default. -/
def Tab.wfFrom {α : Type} [DecidableEq α] (d : α) : Nat → Tab α → Bool
  | _, [] => true
  | lo, (j, v) :: m => decide (lo ≤ j) && decide (v ≠ d) && Tab.wfFrom d (j + 1) m

/-- The canonical form of a table with default `d`. -/
def Tab.wf {α : Type} [DecidableEq α] (d : α) (m : Tab α) : Bool := Tab.wfFrom d 0 m

/-- Change the entry at a key, if there is one. -/
def Tab.modify {α : Type} (m : Tab α) (k : Nat) (f : α → α) : Tab α :=
  m.map fun e => if e.1 = k then (e.1, f e.2) else e

/-- The least number from `n` on that no key of the table equals, trying `fuel` numbers. -/
def Tab.fresh {α : Type} (m : Tab α) : Nat → Nat → Nat
  | 0, n => n
  | fuel + 1, n => if (Tab.find m n).isSome then Tab.fresh m fuel (n + 1) else n

/-- The values of a table in key order. -/
def Tab.vals {α : Type} (m : Tab α) : List α := m.map (·.2)

/-- The keys of a table in order. -/
def Tab.keys {α : Type} (m : Tab α) : List Nat := m.map (·.1)

/-- The number of entries whose value meets a test. -/
def Tab.count {α : Type} (m : Tab α) (p : α → Bool) : Nat := (m.filter fun e => p e.2).length

/-- The least key whose value meets a test. -/
def Tab.first {α : Type} (m : Tab α) (p : α → Bool) : Option Nat := (m.find? fun e => p e.2).map (·.1)

end Sys2Proof.Machine
end

