-- ==== Sys2Proof/Machine/State.lean ====
section
/-!
DEFINITION. The state of one IZ640-M module, as plain data: scheduling, memory, registers of the register interface,
contexts, grids, teams, groups, cores, operations in flight, translation, fabric, serving units, saves, trace and
platform; the reasons a step can stop; and the state after reset.
-/
namespace Sys2Proof.Machine

/-- One turn of the agenda (log 1): how many time-stamp ticks pass, and the event that then happens, or, with none, the
group that may issue (by core and slot; none leaves the choice to R214). -/
structure Turn where
  dt : Nat
  ev : Option Instr
  who : Option (Nat × Nat)
  deriving DecidableEq, Repr

/-- What a core issues (R214): the group's core and slot, the issue resource, and the banks its vector sources lie in. -/
structure Issued where
  core : Nat
  slot : Nat
  res : Nat
  banks : List Nat
  deriving DecidableEq, Repr

/-- One lane word of a v block register (R186, R191, R195). -/
structure VEl where
  val : Word
  full : Bool
  pois : Bool
  zf : Bool
  deriving DecidableEq, Repr

/-- A v lane word at group start (R187): zero, full, flagged zero. -/
def VEl.zero : VEl := ⟨0, true, false, true⟩

/-- A scalar register (R186, R191). -/
structure SEl where
  val : BitVec 64
  full : Bool
  pois : Bool
  deriving DecidableEq, Repr

/-- A scalar register at group start (R187). -/
def SEl.zero : SEl := ⟨0, true, false⟩

/-- A predicate register (R186, R191): bit L for lane L. -/
structure PEl where
  bits : BitVec 64
  full : Bool
  deriving DecidableEq, Repr

/-- A predicate register at group start (R187). -/
def PEl.zero : PEl := ⟨0, true⟩

/-- An element of a tile or accumulator (R191). -/
structure AEl where
  val : Word
  pois : Bool
  deriving DecidableEq, Repr

/-- A tile or accumulator element at team start (R187). -/
def AEl.zero : AEl := ⟨0, false⟩

/-- How a group stopped (R227): before its instruction, at an instruction boundary, or after its instruction. -/
inductive StopKind where
  | precise | boundary | after
  deriving DecidableEq, Repr

/-- A group's stop (R230, R232): cause, kind, the lanes still to do and the operations that an OP 0 restarts. -/
structure Stop where
  cause : BitVec 8
  kind : StopKind
  mask : BitVec 64
  ops : List Nat
  deriving DecidableEq, Repr

/-- An open speculative region (R184, R185): condition register, predicted value, shadowed accumulators and the
outcome once decided, with the issue site of its MSPEC. -/
structure Spec where
  cond : BitVec 7
  pred : BitVec 64
  shadowed : BitVec 8
  decided : Option Bool
  poisoned : Bool
  pc : BitVec 64
  seq : BitVec 32
  word : Word
  deriving DecidableEq, Repr

/-- A resident group (R176, R196). -/
structure Group where
  core : Nat
  slot : Nat
  gid : Nat
  team : Nat
  grid : Nat
  asid : BitVec 16
  width : Nat
  role : Option Nat
  pc : BitVec 64
  repIdx : Nat
  flags : BitVec 64
  trapen : BitVec 64
  part : BitVec 64
  wbase : BitVec 64
  blockN : Nat
  base : Nat
  v : Tab VEl
  s : Tab SEl
  p : Tab PEl
  rstream : BitVec 128
  seqNo : BitVec 32
  seqSlot : BitVec 64
  kargs : BitVec 64
  rampSlot : BitVec 64
  gridId : BitVec 64
  teamId : BitVec 64
  laneBase : BitVec 64
  spec : Option Spec
  accOwned : BitVec 16
  stop : Option Stop
  late : List Stop
  reissue : Option (BitVec 64)
  holds : List Nat
  waiting : Bool
  onEmpty : Bool
  waitsIn : Option (BitVec 3 × BitVec 16)
  ibuf : Option (BitVec 64 × List Word)
  ibufWait : Option Nat
  staged : List Nat
  traceMask : BitVec 7
  startedAt : Nat
  lastRetire : Nat
  saved : Bool
  lastTape : Option (BitVec 64)
  barSeen : Tab Bool
  rampWait : Option (Nat × Nat)
  sampleAt : Nat
  growSince : Option Nat
  zeroWrites : Nat
  quiesce : Bool
  tokens : BitVec 128
  tileOld : Option (BitVec 16)
  deriving DecidableEq, Repr

/-- A barrier of a team (R364): the groups that have arrived in the current phase, the expected count and the phase. -/
structure Bar where
  arrived : List Nat
  expected : Nat
  phase : Bool
  deriving DecidableEq, Repr

/-- An accumulator (R186, R191, R375): elements, full bit and the group that owns it. -/
structure Acc where
  els : Tab AEl
  full : Bool
  owner : Option Nat
  deriving DecidableEq, Repr

/-- An accumulator before any group owned it: zero and full (R187). -/
def Acc.zero : Acc := ⟨[], true, none⟩

/-- Where a team stands between placement and start (R223). -/
inductive RampState where
  | waiting | started
  deriving DecidableEq, Repr

/-- A placed team (R182, R186, R209). -/
structure Team where
  grid : Nat
  asid : BitVec 16
  lin : Nat
  core : Nat
  paired : Bool
  width : Nat
  nGroups : Nat
  slots : List (Nat × Nat × Nat)
  ended : Nat
  tregs : Nat
  aregs : Nat
  sram : BitVec 64
  spBase : Nat
  spBase1 : Nat
  rings : BitVec 16
  phases : BitVec 32
  bars : Tab Bar
  tiles : Tab AEl
  rowEmpty : Tab Bool
  accs : Tab Acc
  repl : Bool
  ramp : RampState
  placedAt : Nat
  rampSlot : Nat
  deriving DecidableEq, Repr

/-- A grid (R201, R204 to R207, R210). -/
structure Grid where
  desc : List (BitVec 64)
  descVa : BitVec 64
  gridId : BitVec 64
  asid : BitVec 16
  source : BitVec 2
  queue : BitVec 6
  order : Nat
  depMet : BitVec 4
  readyAt : Option Nat
  next : Nat
  teams : Nat
  endedTeams : Nat
  drain : Option Nat
  lastAt : Option Nat
  discarded : Bool
  frame : Option Nat
  deriving DecidableEq, Repr

/-- A range lock (R140). -/
structure RLock where
  op : Nat
  space : Nat
  asid : BitVec 16
  lo : Nat
  hi : Nat
  write : Bool
  deriving DecidableEq, Repr

/-- What a core holds beside its groups (R32, R140, R208, R449). -/
structure Core where
  absent : Bool
  fenced : Bool
  drain : Bool
  split : BitVec 24
  splitv : Bool
  asid : BitVec 16
  lastAsid : Option (BitVec 16)
  filter : List (BitVec 16 × Nat)
  locks : Tab RLock
  counters : Tab (BitVec 64)
  latched : Tab (BitVec 64)
  ballast : BitVec 24
  reserved : Option Nat
  deriving DecidableEq, Repr

/-- A core after reset: present, unfenced, empty. -/
def Core.zero : Core :=
  ⟨false, false, false, 0, false, 0, none, [], [], [], [], 0, none⟩

/-- What a memory operation does (R192): the accesses of a group, its instruction fetch through a window (R281), a
bitmap read (R402), a result that only its arrival is late (R392), and an engine's read (R360, R382). -/
inductive MemKind where
  | load | nfload | store | atomic | fetch | bitmap | result | engine
  deriving DecidableEq, Repr

/-- Where the destination elements of a memory operation lie: nowhere, v block registers, scalar registers, rows of a
tile, or a predicate register. -/
inductive DstKind where
  | none | v | s | t | p
  deriving DecidableEq, Repr

/-- Where a lane of a memory operation stands: waiting for its MTU (R33), translated to a place in storage, with one
64-bit half of its 128-bit element there still to do (R126; 1 the high one), sent through the fabric, or done. -/
inductive LaneAt where
  | unconfirmed
  | placed (loc : Nat)
  | half (loc half : Nat)
  | fabric
  | done
  deriving DecidableEq, Repr

/-- One lane of a memory operation: its address, its data or operand and compare value, where it stands, the bit of the
status predicate (R340), and whether its data is poisoned. -/
structure LaneAcc where
  lane : Nat
  addr : BitVec 64
  data : BitVec 128
  cmp : BitVec 64
  at_ : LaneAt
  ok : Bool
  pois : Bool
  deriving DecidableEq, Repr

/-- Where a fabric line of an operation stands (R46 to R53): not yet sent, sent under a tag, ticketed, with its notice
arrived, or settled. -/
inductive LineAt where
  | queued
  | sent (tag : BitVec 12)
  | ticketed (ticket : BitVec 16)
  | noticed (ticket : BitVec 16)
  | done
  deriving DecidableEq, Repr

/-- One fabric line of an operation, with its one ticket-table entry (R46) and what its requests carry (R160, R161): the
lanes of the packet under way and those of the AT packets to come (R348), the mask of all of them, the ticket that is
being replayed, the ticket's first time, the window's ticket timeout in tk, the owner node, LINE, key, generation, and
whether the window is fabric-coherent or the host's; of a load the sectors that its request asks for, those it awaits in
requests of others that it joined, and whether a later request may still join its own (R84). -/
structure FabLine where
  line : BitVec 64
  lanes : List Nat
  later : List (List Nat)
  mask : BitVec 64
  at_ : LineAt
  replayOf : Option (BitVec 16)
  sect : BitVec 4
  joined : BitVec 4
  kept : Bool
  firstTicket : Option Nat
  tmo : Nat
  node : Nat
  own : BitVec 50
  key : BitVec 32
  gen : BitVec 8
  fc : Bool
  host : Bool
  joinable : Bool
  deriving DecidableEq, Repr

/-- A memory operation in flight (R82, R192).  `per` is how many lane entries share a bit of the lane mask: 1 for
lanes, 32 for the elements of a tile row (R390), 4 for the words of a bitmap; `engine` names the copy (0) or matrix (1)
operation it serves, or (2) the group whose instruction reads a buffer of its own (BTST, R395) or a stop set behind a window (SEQEMIT, R418). -/
structure MemOp where
  kind : MemKind
  core : Nat
  slot : Nat
  gid : Nat
  team : Nat
  asid : BitVec 16
  pc : BitVec 64
  repIdx : Nat
  word : Word
  seq : BitVec 32
  space : Nat
  order : Nat
  scope : Nat
  hint : Nat
  type : Nat
  bytes : Nat
  aop : Nat
  dstKind : DstKind
  dst : Nat
  nreg : Nat
  lanes : List LaneAcc
  lines : List FabLine
  per : Nat
  mask : BitVec 64
  writesP : Option Nat
  engine : Option (Nat × Nat)
  deriving DecidableEq, Repr

/-- A result on its way from the special-function unit (R326): the destination lane words and the exceptions. -/
structure SfuOp where
  core : Nat
  slot : Nat
  dst : Nat
  res : List (Nat × Word × Bool)
  exc : BitVec 7
  deriving DecidableEq, Repr

/-- An operation of a core's copy engine (R357 to R362): form (fn of major 0x29), issue site, token, the operand
registers and control word captured at issue, the chunks done, the bytes in all; whether it is to be cancelled, stopped
on a fault, detached from its group (R240; `site` keeps the slot of its issue), with the places of the scratchpad image and of the group image; the memory
operation its chunk waits for; the source words of the chunk with their poison; whether the unit has taken it (R115), and
the descriptors it reads. -/
structure CopyOp where
  form : Nat
  core : Nat
  slot : Nat
  site : Nat
  gid : Nat
  team : Nat
  asid : BitVec 16
  token : Nat
  pc : BitVec 64
  seq : BitVec 32
  word : Word
  modw : BitVec 24
  regs : List (BitVec 64)
  ctl : BitVec 64
  chunk : Nat
  bytes : Nat
  cancel : Bool
  stopped : Bool
  detached : Option (Nat × Nat)
  wait : Option Nat
  buf : List (BitVec 32 × Bool)
  phase : Nat
  pages : List Nat
  deriving DecidableEq, Repr

/-- An operation of a core's matrix unit (R376 to R388): operation code of R242, issue site, token or status register,
accumulator, whether it runs into a shadow, captured operands, whether an invalid operation poisons (the TRAPEN in force
when it issued, R312), the clk of its issue, the other members of its share group and the words of A read for K-blocks
(R383), K-steps done, exceptions, the rounding stream it started from, the status, whether it is stopped on a fault or finished, and the memory operation it waits for. -/
structure MatOp where
  op : Nat
  core : Nat
  slot : Nat
  gid : Nat
  team : Nat
  asid : BitVec 16
  dst : Nat
  acc : Nat
  shadow : Bool
  pc : BitVec 64
  seq : BitVec 32
  word : Word
  modw : BitVec 24
  regs : List (BitVec 64)
  ctl : BitVec 64
  trapNv : Bool
  issuedAt : Option Nat
  mates : List Nat
  fetched : List (Nat × List (Nat × Bool))
  kdone : Nat
  exc : BitVec 7
  stream : BitVec 128
  status : BitVec 64
  stopped : Bool
  finished : Bool
  wait : Option Nat
  deriving DecidableEq, Repr

/-- An operation that has arrived at the page-store unit (R105, R149). -/
structure PsOp where
  kind : Nat
  core : Nat
  slot : Nat
  asid : BitVec 16
  copy : Option Nat
  word : Word
  pc : BitVec 64
  seq : BitVec 32
  dst : Nat
  a : List (BitVec 64)
  b : BitVec 64
  done : Bool
  deriving DecidableEq, Repr

/-- A page being moved between tiers (R114). -/
structure PsMove where
  pdi : Nat
  frame : Nat
  toLpddr : Bool
  deriving DecidableEq, Repr

/-- A cached leaf (R27): the address it maps, its level, the leaf as walked and where it lies. -/
structure Leaf where
  asid : BitVec 16
  base : Nat
  level : Nat
  entry : BitVec 64
  at_ : Nat
  deriving DecidableEq, Repr

/-- A range of an invalidation (R29, R30). -/
structure InvRange where
  allAsid : Bool
  asid : BitVec 16
  size : BitVec 2
  va : Nat
  deriving DecidableEq, Repr

/-- A ticket that this package owns (R43); `arrived` tells that its replayed access has come, of which more AT packets may
follow (R46, R348; log 63). -/
structure OwnedTicket where
  die : Nat
  peer : Nat
  core : Nat
  slot : BitVec 4
  ofs : Nat
  asid : BitVec 16
  win : BitVec 6
  access : BitVec 2
  queued : Bool
  arrived : Bool
  sentAt : Option Nat
  timeout : Nat
  deriving DecidableEq, Repr

/-- A notice entry that waits to be sent (R44). -/
structure NoticeEnt where
  peer : Nat
  ticket : BitVec 16
  status : BitVec 2
  at_ : Nat
  deriving DecidableEq, Repr

/-- A non-leaf entry in a walk cache (R27): its ASID, its level (0 the root), the start of what it maps, and the entry. -/
structure WalkEnt where
  asid : BitVec 16
  level : Nat
  base : Nat
  entry : BitVec 64
  deriving DecidableEq, Repr

/-- What an MTU holds beside its registers (R27, R30, R41, R42, R451), with the time-stamp of the records queued last and
their source numbers, last first, and the records that wait, with their time-stamps, behind a fence's (R253). -/
structure Mtu where
  tlb : List Leaf
  walkCache : List WalkEnt
  closed : List InvRange
  inval : Option InvRange
  pend : List (BitVec 256)
  behind : List (BitVec 256)
  walks : BitVec 64
  records : BitVec 64
  tickAt : Nat
  tickSrc : List Nat
  later : List (Nat × BitVec 256)
  deriving DecidableEq, Repr

/-- An MTU after reset. -/
def Mtu.zero : Mtu := ⟨[], [], [], none, [], [], 0, 0, 0, [], []⟩

/-- A WINREQ that waits for its answer (R355, R171). -/
structure WinWait where
  core : Nat
  slot : Nat
  dst : Nat
  asid : BitVec 16
  peer : Nat
  win : Nat
  key : BitVec 32
  deriving DecidableEq, Repr

/-- An exported window at its owner (R170): its state, holders, recalls outstanding and times. -/
structure Export where
  st : Nat
  desc : BitVec 256
  holders : List Nat
  recalls : Nat
  at_ : Nat
  stuck : Bool
  deriving DecidableEq, Repr

/-- A line a switch slice caches, with its directory (R166 to R168); `perm` has a bit for each access type, RD, WR and AT,
that the owner has answered for under WIN, GEN and KEY. -/
structure SliceLine where
  data : BitVec 512
  pois : BitVec 4
  valid : BitVec 4
  dirty : BitVec 4
  holders : List Nat
  excl : Option Nat
  win : BitVec 6
  gen : BitVec 8
  key : BitVec 32
  perm : BitVec 3
  deriving DecidableEq, Repr

/-- What a pending entry of a switch slice waits for: its turn, the holders' RECACKs, the owner's grant, or the owner's
answer to the request that was forwarded. -/
inductive SliceWait where
  | turn | holders | grant | answer
  deriving DecidableEq, Repr

/-- A packet a switch slice holds back (R155, R166 to R168): its plane, its line, the request or RECALL, what it waits for,
the holders still to answer, and whether the slice serves the request once the line is granted. -/
structure SlicePend where
  plane : Nat
  line : Nat
  req : Flit
  wait : SliceWait
  recalls : List Nat
  serve : Bool
  deriving DecidableEq, Repr

/-- A promoting acquire's probes still unanswered (R137, R169): the owners', and the package's own releases that were in
flight when it issued. -/
structure ProbeWait where
  op : Nat
  peers : List Nat
  ops : List Nat
  deriving DecidableEq, Repr

/-- What the device itself keeps of a saved team (log 21), for which the save area has no place: the team under its key,
its groups, and its operations as they stood. -/
structure Kept where
  key : Nat
  team : Team
  groups : List Group
  copies : Tab CopyOp
  mats : Tab MatOp
  memops : List MemOp
  deriving DecidableEq, Repr

/-- The per-context registers (R465) and what a context holds beside them: a write of ERRPOL.USED that waits for a fence
(R251), the tenant key with its number and the digest
K of what installed it (R462, R463), the trace batch counter (R452), teams lost at a fence (R249), and of its saved
teams (R57, R240): what the device keeps, the tickets it listens for, and the logs of notices and of token fills. -/
structure Ctx where
  cfg : BitVec 64
  evt : BitVec 64
  evn : BitVec 64
  cspg0 : BitVec 64
  cspg1 : BitVec 64
  errpol : BitVec 64
  usedWait : Option (BitVec 16)
  trcCtl : BitVec 64
  trcBase : BitVec 64
  trcHead : BitVec 64
  trcTail : BitVec 64
  nextGrid : BitVec 64
  key : Option (BitVec 256)
  keyDigest : List Byte
  batch : BitVec 64
  lost : List Nat
  kept : List Kept
  savedTickets : List Nat
  noticeLog : List (Nat × BitVec 2)
  fillLog : List (Nat × BitVec 64)
  deriving DecidableEq, Repr

/-- A context after reset (R465): ERRPOL.ESZ 4, TRC_CTL.LOG2N 7, all else zero. -/
def Ctx.zero : Ctx :=
  { cfg := 0, evt := 0, evn := 0, cspg0 := 0, cspg1 := 0, errpol := 0x20, usedWait := none, trcCtl := 0xE000, trcBase := 0, trcHead := 0,
    trcTail := 0, nextGrid := 0, key := none,
    keyDigest := [], batch := 0, lost := [], kept := [], savedTickets := [], noticeLog := [], fillLog := [] }

/-- Carillon (R216 to R221, R252, R471): `reqs` holds the requests since the last boundary in order, each with a slot: 0 a
park for a tool, 1 a park for memory, 2 a wake, 3 the command that CAR_SCMD holds; `trigger` tells that a boundary is due;
`prefill` the slots that the frame under way prefills, with their tokens; `admitted` the admission order of the slots;
`again` tells that a trigger came while the boundary stood at a step; `returns` are the tool returns that a fate of the
batch table holds back, each with its register, its value and the slot at which it stands;
`fault` is the last address recorded for a structure, `faultStep` the step of R218 at which the boundary stands. -/
structure Carillon where
  running : Bool
  frame : Nat
  rp : Nat
  inFrame : Bool
  frameEnded : Bool
  grid : Option Nat
  trigger : Bool
  again : Bool
  returns : List (Nat × BitVec 32 × Nat)
  reqs : List (Nat × Nat)
  prefill : List (Nat × Nat)
  admitted : List Nat
  fault : Option (BitVec 64)
  faultStep : Nat
  evictCursor : Nat
  standby : Bool
  failed : Bool
  failedStandby : Bool
  stopReq : Bool
  deriving DecidableEq, Repr

/-- Carillon after reset. -/
def Carillon.zero : Carillon :=
  { running := false, frame := 0, rp := 0, inFrame := false, frameEnded := false, grid := none,
    trigger := false, again := false, returns := [], reqs := [], prefill := [], admitted := [], fault := none, faultStep := 0,
    evictCursor := 0, standby := false, failed := false, failedStandby := false, stopReq := false }

/-- Damper (R222 to R225, R252, R467): `est` and `floor` are P and F of DMP_EST, `units` the idle matrix units on ballast, `ran`
the ballast cycles that it has asked of each core; `held` keeps, of a register written in the current ramp slot, the slot and the value
that stays in effect in it (R466). -/
structure Damper where
  slot : Nat
  used : Nat
  ballast : Nat
  hot : BitVec 2
  pinned : List Nat
  failed : Bool
  standby : Bool
  sampleAt : Option Nat
  est : Nat
  floor : Nat
  units : List Nat
  ran : Tab (BitVec 64)
  held : List (Nat × (Nat × BitVec 64))
  deriving DecidableEq, Repr

/-- Damper after reset: its first sample falls 100 tk after reset (log 64). -/
def Damper.zero : Damper := ⟨0, 0, 0, 0, [], false, false, some 0, 0, 0, [], [], []⟩

/-- What a guest's access answers (R427): to a sandbox, a RISC-V access fault (false of a load, true of a store or AMO), or
the bytes that a load or AMO read. -/
structure GuestAnswer where
  sandbox : Nat
  fault : Option Bool
  data : List Byte
  deriving DecidableEq, Repr

/-- A save or restore under way (R237 to R243, R249): the context, OP, how far it is (1 quiescing, 2 writing, 3 restoring,
4 saved, 5 area too small, 6 ending the context), the length the driver gave in 4 KiB units, the core it fences, the place of the area, the
records that are still to be restored, by offset, or the teams that a save has written, the length written, whether a
team was lost, while restoring, for a grid and a cluster its
teams were on, the cluster they are on now, and the time-stamp at which it began, or the error was detected. -/
structure Save where
  asid : BitVec 16
  op : BitVec 2
  stage : Nat
  need : Nat
  error : Option Nat
  area : Nat
  todo : List Nat
  length : Nat
  lost : Bool
  clusters : List (Nat × Nat × Nat)
  since : Nat
  deriving DecidableEq, Repr

/-- What stands in memory for a line that has a tag and a write count (R464): the ciphertext of a plaintext; bytes that the
host put in the place of that ciphertext; or plain bytes, which its tag does not match. -/
inductive Seal where
  | sealed (plain : BitVec 512)
  | altered (plain : BitVec 512)
  | opened
  deriving DecidableEq, Repr

/-- The tag and count of a line of storage (R464): the ASID and the key under which it was last written back, how many times
that was before, and what stands in memory. -/
structure CryptLine where
  asid : BitVec 16
  key : BitVec 256
  count : Nat
  form : Seal
  deriving DecidableEq, Repr

/-- A handoff being received (R117): its sender and tag, the receive entry it took with the table's ASID and address,
its token pages, valid tokens and layer groups, the descriptors taken, the chunks that have arrived, and data that came
before the opening message; and of refused handoffs the data messages that are still on their way. -/
structure Receive where
  sender : Nat
  tag : BitVec 32
  entry : Option Nat
  asid : BitVec 16
  bt : BitVec 64
  l : Nat
  k : Nat
  lg : Nat
  pages : List Nat
  got : List Nat
  stash : List HandoffMsg
  drop : List Nat
  deriving DecidableEq, Repr

/-- What the page-store unit sends over Ultra Ethernet (R116, R117): a message with the endpoint's ports and
code point, a completion, or a refusal. -/
inductive UeOut where
  | msg (ports : Nat) (dscp : Nat) (pid : Nat) (m : HandoffMsg)
  | completion (sender : Nat) (tag : BitVec 32)
  | refusal (sender : Nat) (tag : BitVec 32)
  deriving DecidableEq, Repr

/-- A trace buffer of a cluster (R447, R448); `lostAsid` is the context of the last record it dropped (log 35). -/
structure TraceBuf where
  recs : List (BitVec 256)
  lost : Nat
  lostAsid : BitVec 16
  gated : Bool
  gateAt : Option Nat
  deriving DecidableEq, Repr

/-- A trace buffer after reset. -/
def TraceBuf.zero : TraceBuf := ⟨[], 0, 0, false, none⟩

/-- The package (both dies) and what the model adds to run it. -/
structure State where
  now : BitVec 64
  clk : Nat
  agenda : List Turn
  cur : Option (Nat × Nat)
  lastOn : Tab (List Nat)
  clkIssue : Option Issued
  freeCount : Nat
  nextId : Nat
  mem : List Host.Cell
  poisoned : List Nat
  l1 : Tab (BitVec 128)
  l1pois : List Nat
  crypt : Tab CryptLine
  cfLines : Tab (BitVec 16)
  regs : Tab (BitVec 64)
  ctxs : Tab Ctx
  groups : Tab Group
  teams : Tab Team
  grids : Tab Grid
  cores : Tab Core
  csHold : Tab Nat
  memops : Tab MemOp
  sfuops : Tab SfuOp
  copies : Tab CopyOp
  matops : Tab MatOp
  psq : Tab PsOp
  moves : List PsMove
  mtus : Tab Mtu
  owned : Tab OwnedTicket
  notices : List NoticeEnt
  winWaits : List WinWait
  killedGens : List (Nat × BitVec 8)
  exports : Tab Export
  slices : Tab SliceLine
  slicePend : List SlicePend
  sliceFwd : List Flit
  lent : Tab (List Nat)
  recalling : List Nat
  ownerQ : List (Nat × Flit)
  fabDir : Tab SliceLine
  probes : List ProbeWait
  probeHeld : List (Flit × List Nat)
  out : List Flit
  held : List Flit
  orphans : List FabLine
  portErrors : Tab Nat
  expGo : Option Nat
  pcie : List Flit
  txTag : BitVec 12
  noCredit : List Nat
  portFail : List Nat
  tsync : BitVec 64
  tsyncAt : Nat
  slew : Nat
  carillon : Carillon
  notify : Tab (BitVec 64)
  receives : List Receive
  handoffs : List HandoffMsg
  damper : Damper
  saves : List Save
  traces : Tab TraceBuf
  tatAt : Option (BitVec 64)
  tatFree : Nat
  tatClk : Nat
  tatIndex : BitVec 64
  tatDrops : Nat
  units : Tab (BitVec 64)
  frozen : Bool
  firmware : List Byte
  image : List Byte
  secVersion : Nat
  hostOut : List (List Byte)
  toolGuest : Bool
  guestOut : List GuestAnswer
  ueOut : List UeOut
  deriving DecidableEq, Repr

/-- Why a step of the model stops.  No behaviour of the hardware ends here: each is a use of the model that the spec
gives no meaning. -/
inductive Fault where
  /-- Raised by `exec` of a group instruction when no group is chosen to issue it: safe, since the device issues an
  instruction only from a group. -/
  | noGroup
  /-- Raised by `step` when the agenda names an encoded instruction as an event: safe, since the agenda is the model's
  own and lists events only. -/
  | agendaNotEvent
  deriving DecidableEq, Repr

/-- Why an instruction is refused. -/
inductive Refusal where
  /-- Raised by an arm of `exec` whose instruction has no meaning yet: safe, nothing is claimed of it. -/
  | notModelled (mnemonic : String)
  deriving DecidableEq, Repr

/-- The machine right after module reset: no group, nothing in memory, every register at its reset value. -/
def State.reset : State :=
  { now := 0, clk := 0, agenda := [], cur := none, lastOn := [], clkIssue := none, freeCount := 0, nextId := 0, mem := [], poisoned := [], l1 := [],
    l1pois := [], crypt := [], cfLines := [], regs := [], ctxs := [], groups := [], teams := [], grids := [], cores := [],
    csHold := [], memops := [], sfuops := [], copies := [], matops := [], psq := [], moves := [], mtus := [],
    owned := [], notices := [], winWaits := [], killedGens := [], exports := [], slices := [],
    slicePend := [], sliceFwd := [], lent := [], recalling := [], ownerQ := [], fabDir := [], probes := [], probeHeld := [], out := [], held := [],
    orphans := [], portErrors := [], expGo := none, pcie := [], txTag := 0, noCredit := [], portFail := [], tsync := 0,
    tsyncAt := 0, slew := 0, carillon := Carillon.zero, notify := [], receives := [], handoffs := [], damper := Damper.zero, saves := [],
    traces := [], tatAt := none, tatFree := 0, tatClk := 0, tatIndex := 0, tatDrops := 0, units := [], frozen := false, firmware := [], image := [], secVersion := 0,
    hostOut := [], toolGuest := false, guestOut := [], ueOut := [] }

end Sys2Proof.Machine
end

