-- ==== Sys2Proof/Machine/Regs.lean ====
section
/-!
DEFINITION. The registers of the register interface (R454) as one table of 64-bit values by byte offset: reset values,
reading, writing a value and the fields that the units use.
-/
namespace Sys2Proof.Machine

/-- The value after module reset of the register at an offset of BAR0 (R9, R454). -/
def regReset (off : Nat) : BitVec 64 :=
  match off with
  | 0x1020 | 0x2020 => 7
  | 0x3000 => 0x3F
  | 0x4000 => 0x38
  | 0x4020 => 0x0000002000800100
  | 0x4038 | 0x4048 => 4
  | 0x5018 => 0x7FFFFFF
  | 0x7000 => 0xC800C8
  | 0x7008 => 0xCD0030
  | 0x7020 | 0x7028 => 0x348000
  | 0x8000 => 0x120
  | _ =>
    if 0x3100 ≤ off ∧ off < 0x3900 ∧ off % 0x20 = 8 then 4
    else if 0x6040 ≤ off ∧ off ≤ 0x6078 ∧ off % 8 = 0 then
      0x8786858483828180 + BitVec.ofNat 64 ((off - 0x6040) / 8 * 8) * 0x0101010101010101
    else 0

/-- The value of a register. -/
def State.reg (s : State) (off : Nat) : BitVec 64 := (Tab.find s.regs off).getD (regReset off)

/-- Set a register's value, keeping the table free of values that equal the reset value. -/
def State.setReg (s : State) (off : Nat) (v : BitVec 64) : State :=
  { s with regs := if v = regReset off then Tab.drop s.regs off else Tab.put s.regs off v }

/-- A field of a value: n bits from bit lo. -/
def fld (w : BitVec 64) (lo n : Nat) : Nat := w.toNat / 2 ^ lo % 2 ^ n

/-- A value with a field replaced: n bits from bit lo. -/
def setFld (w : BitVec 64) (lo n v : Nat) : BitVec 64 :=
  BitVec.ofNat 64 (w.toNat - fld w lo n * 2 ^ lo + v % 2 ^ n * 2 ^ lo)

/-- The offset of a register of the MTU of a die (R29, R40, R454). -/
def mtuReg (die off : Nat) : Nat := 0x1000 * (die + 1) + off

end Sys2Proof.Machine
end

