-- ==== Sys2Proof/Machine/Ops.lean ====
section
/-!
DEFINITION. The named operations over the state: groups and their registers, storage, fault records and the stop of a
group (the machine's one way of taking a fault, R227 to R232) with the return from it, trace records, and the issue of
one instruction by the current group.
-/
namespace Sys2Proof.Machine

/-! ### Groups, teams, cores, contexts -/

/-- The key of a group's entry (R175): core and slot. -/
def gkey (core slot : Nat) : Nat := core * 16 + slot

/-- The group at a core and slot. -/
def State.group (s : State) (core slot : Nat) : Option Group := Tab.find s.groups (gkey core slot)

/-- Put a group back. -/
def State.setGroup (s : State) (g : Group) : State := { s with groups := Tab.put s.groups (gkey g.core g.slot) g }

/-- Change the group at a core and slot, if there is one. -/
def State.modGroup (s : State) (core slot : Nat) (f : Group → Group) : State :=
  { s with groups := Tab.modify s.groups (gkey core slot) f }

/-- Change a team. -/
def State.modTeam (s : State) (t : Nat) (f : Team → Team) : State := { s with teams := Tab.modify s.teams t f }

/-- A team. -/
def State.team (s : State) (t : Nat) : Option Team := Tab.find s.teams t

/-- A core; one not listed is as after reset. -/
def State.core (s : State) (c : Nat) : Core := Tab.get Core.zero s.cores c

/-- Set a core. -/
def State.setCore (s : State) (c : Nat) (v : Core) : State := { s with cores := Tab.set Core.zero s.cores c v }

/-- A context's registers; one not listed is as after reset. -/
def State.ctx (s : State) (a : BitVec 16) : Ctx := Tab.get Ctx.zero s.ctxs a.toNat

/-- Set a context's registers. -/
def State.setCtx (s : State) (a : BitVec 16) (v : Ctx) : State := { s with ctxs := Tab.set Ctx.zero s.ctxs a.toNat v }

/-- An MTU; one not listed is as after reset. -/
def State.mtu (s : State) (die : Nat) : Mtu := Tab.get Mtu.zero s.mtus die

/-- Set an MTU. -/
def State.setMtu (s : State) (die : Nat) (v : Mtu) : State := { s with mtus := Tab.set Mtu.zero s.mtus die v }

/-- The die of a core (R1): 320 cores each. -/
def dieOf (core : Nat) : Nat := if core < 320 then 0 else 1

/-- The tk that have passed since the time-stamp stood at a value; the counter wraps (R7, R8). -/
def State.since (s : State) (t : Nat) : Nat := (s.now - BitVec.ofNat 64 t).toNat

/-- A free value (log 4): the counter after the draw and the number it stood at. -/
def State.drawFree (s : State) : State × Nat := ({ s with freeCount := s.freeCount + 1 }, s.freeCount)

/-- A fresh serial number for an operation. -/
def State.newId (s : State) : State × Nat := ({ s with nextId := s.nextId + 1 }, s.nextId)

/-! ### Storage -/

/-- The key of byte 0 of a region of storage (log 2): 0, 1 HBM4 of die 0, 1; 2, 3 LPDDR-6; 4, 5 chip scratchpad; 6 host
memory; 16 + c core scratchpad; 1024 + c lane-private region of core c; 2048 + k cluster-shared region of cluster k. -/
def region (r : Nat) : Nat := r * 2 ^ 64

/-- The place of a physical address in a tier of a die (R23, R93). -/
def physKey (tier die pa : Nat) : Nat := region (2 * tier + die) + pa

/-- The capacity of a tier on each die (R93, R75). -/
def tierSize (tier : Nat) : Nat :=
  match tier with
  | 0 => 2 * 2 ^ 40
  | 1 => 768 * 2 ^ 30
  | 2 => 64 * 2 ^ 20
  | _ => 0

/-- One byte of storage; a byte that nothing has written reads 0 (log 2). -/
def State.byte (s : State) (k : Nat) : Byte := Tab.get 0 s.mem k

/-- n bytes from a place, little-endian (R4). -/
def State.readLE (s : State) (k : Nat) : Nat → Nat
  | 0 => 0
  | n + 1 => (s.byte k).toNat + 256 * State.readLE s (k + 1) n

/-- Write n bytes of a number, little-endian (R4). -/
def writeCells (m : List Host.Cell) (k : Nat) : Nat → Nat → List Host.Cell
  | 0, _ => m
  | n + 1, v => writeCells (Tab.set 0 m k (BitVec.ofNat 8 v)) (k + 1) n (v / 256)

/-- The 16-byte sectors that n bytes from a place touch. -/
def sectorsOf (k n : Nat) : List Nat := (List.range ((k + n - 1) / 16 + 1 - k / 16)).map (k / 16 + ·)

/-- Whether any sector of n bytes from a place is poisoned (R85, R95). -/
def State.isPoisoned (s : State) (k n : Nat) : Bool :=
  decide (0 < n) && (sectorsOf k n).any (s.poisoned.contains ·)

/-- Write n bytes: a store that covers a whole poisoned sector clears its poison (R95). -/
def State.writeLE (s : State) (k n v : Nat) : State :=
  { s with
    mem := writeCells s.mem k n v
    poisoned := if s.poisoned.isEmpty then s.poisoned
      else s.poisoned.filter fun q => !(decide (k ≤ q * 16) && decide (q * 16 + 16 ≤ k + n)) }

/-- Mark the sectors of n bytes poisoned (R95, R236). -/
def State.poison (s : State) (k n : Nat) : State :=
  { s with poisoned := (sectorsOf k n).foldl (fun l q => if l.contains q then l else q :: l) s.poisoned }

/-- A 64-bit read. -/
def State.read64 (s : State) (k : Nat) : BitVec 64 := BitVec.ofNat 64 (s.readLE k 8)

/-- A 64-bit write. -/
def State.write64 (s : State) (k : Nat) (v : BitVec 64) : State := s.writeLE k 8 v.toNat

/-- A list of dwords at a place. -/
def State.readDwords (s : State) (k : Nat) : Nat → List (BitVec 64)
  | 0 => []
  | n + 1 => s.read64 k :: State.readDwords s (k + 8) n

/-! ### Registers of a group -/

/-- The block register that window name k reaches (R188, R301). -/
def Group.vreg (g : Group) (k : Nat) : Nat := fld g.wbase 5 4 * 32 + k

/-- The number of v registers of the block (R186). -/
def Group.blockSize (g : Group) : Nat := 32 * 2 ^ g.blockN

/-- A lane word of the block. -/
def Group.vblk (g : Group) (j lane : Nat) : VEl := Tab.get VEl.zero g.v (j * 64 + lane)

/-- A lane word by its window name. -/
def Group.vel (g : Group) (k lane : Nat) : VEl := g.vblk (g.vreg k) lane

/-- Put a lane word of the block. -/
def Group.putV (g : Group) (j lane : Nat) (e : VEl) : Group := { g with v := Tab.set VEl.zero g.v (j * 64 + lane) e }

/-- Write a lane word of the block (R195): full, the zero flag set by an unpoisoned zero, whose write is suppressed and
counted (R449). -/
def Group.writeBlk (g : Group) (j lane : Nat) (x : Word) (pz : Bool) : Group :=
  let z : Bool := decide (x = 0) && !pz
  { g.putV j lane ⟨x, true, pz, z⟩ with zeroWrites := if z then g.zeroWrites + 1 else g.zeroWrites }

/-- Write a lane word by its window name. -/
def Group.writeV (g : Group) (k lane : Nat) (x : Word) (pz : Bool) : Group := g.writeBlk (g.vreg k) lane x pz

/-- Mark a lane word empty (R192). -/
def Group.emptyV (g : Group) (j lane : Nat) : Group := g.putV j lane { g.vblk j lane with full := false }

/-- Mark a lane word full again, as it stood. -/
def Group.refillV (g : Group) (j lane : Nat) : Group := g.putV j lane { g.vblk j lane with full := true }

/-- A scalar register; s0 reads zero (R186). -/
def Group.sel (g : Group) (k : Nat) : SEl := if k = 0 then SEl.zero else Tab.get SEl.zero g.s k

/-- The value of a scalar register. -/
def Group.sv (g : Group) (k : Nat) : BitVec 64 := (g.sel k).val

/-- Put a scalar register; a write to s0 is ignored (R186). -/
def Group.putS (g : Group) (k : Nat) (e : SEl) : Group := if k = 0 then g else { g with s := Tab.set SEl.zero g.s k e }

/-- Write a scalar register full. -/
def Group.writeS (g : Group) (k : Nat) (x : BitVec 64) (pz : Bool) : Group := g.putS k ⟨x, true, pz⟩

/-- Mark a scalar register empty (R192). -/
def Group.emptyS (g : Group) (k : Nat) : Group := g.putS k { g.sel k with full := false }

/-- The mask of the group's lanes. -/
def Group.allLanes (g : Group) : BitVec 64 := BitVec.ofNat 64 (2 ^ g.width - 1)

/-- A predicate register; p0 reads all-true (R186). -/
def Group.pel (g : Group) (k : Nat) : PEl := if k = 0 then ⟨g.allLanes, true⟩ else Tab.get PEl.zero g.p k

/-- Put a predicate register; a write to p0 is ignored (R186). -/
def Group.putP (g : Group) (k : Nat) (e : PEl) : Group := if k = 0 then g else { g with p := Tab.set PEl.zero g.p k e }

/-- Write the bits of a mask of lanes into a predicate register, full. -/
def Group.writeP (g : Group) (k : Nat) (mask bits : BitVec 64) : Group :=
  g.putP k ⟨((g.pel k).bits &&& ~~~mask) ||| (bits &&& mask), true⟩

/-- Mark a predicate register empty (R340). -/
def Group.emptyP (g : Group) (k : Nat) : Group := g.putP k { g.pel k with full := false }

/-- Set FLAGS bits (R234). -/
def Group.raise (g : Group) (e : BitVec 7) : Group := { g with flags := g.flags ||| e.zeroExtend 64 }

/-- Whether FLAGS.FTZ is set (R233, R265). -/
def Group.ftz (g : Group) : Bool := g.flags.getLsbD 8

/-- The lanes of a mask in ascending order. -/
def lanesOf (w : Nat) (m : BitVec 64) : List Nat := (List.range w).filter fun l => m.getLsbD l

/-- The active lanes of a guard (R176, R288). -/
def Group.active (g : Group) (x : Pfx) : BitVec 64 :=
  let p := (g.pel x.m.pred.toNat).bits
  (if x.m.neg then ~~~p else p) &&& g.allLanes

/-- The tile size (R181, R301): a SIZE of 4 in a 16-lane group acts as 0. -/
def Group.tileSize (g : Group) : Nat :=
  let n := fld g.part 0 3
  if n = 0 then g.width else 2 ^ n

/-! ### Waits and fates -/

/-- Why an instruction does not complete at issue: it waits on an empty element, or for anything else, or for a line
that a switch holds, which is recalled (R166), or
it meets a fate (R227) whose dword 0 holds the main word and DETAIL (R229) or a whole dword, and whose record goes to
the issuing core's die or to a die's queue (R37).  `seen` is any of them met once the MTUs had admitted accesses: the
state they left, whose marks stay (R26); `boundary` is the fate of an operand that a unit reads itself, under the boundary
rule (R50, R236); `pages` is a translation fate of several pages, each with its die, CAUSE and address (R37). -/
inductive Halt where
  | waitEmpty
  | wait
  | waitLine (place : Nat)
  | fate (cause detail : Nat) (mask : BitVec 64)
  | fateAt (cause : Nat) (d0 : BitVec 64) (mask : BitVec 64) (access : Nat)
  | fateOn (die cause : Nat) (d0 : BitVec 64) (mask : BitVec 64) (access : Nat)
  | boundary (cause detail : Nat)
  | pages (rs : List (Nat × Nat × BitVec 64)) (mask : BitVec 64) (access : Nat)
  | seen (t : State) (h : Halt)
  deriving DecidableEq, Repr

/-- What the parts of an instruction answer: a value, or the reason it does not complete. -/
abbrev Run (α : Type) : Type := Except Halt α

/-- Add to a count of the Tattoo unit block (R451), named by its offset in the block. -/
def State.bumpUnit (s : State) (ofs k : Nat) : State :=
  { s with units := Tab.set 0 s.units ofs (Tab.get 0 s.units ofs + BitVec.ofNat 64 k) }

/-- A plain wait. -/
def hold {α : Type} : Run α := .error .wait

/-- Go on only when a condition holds; otherwise stop for a reason. -/
def need (b : Bool) (h : Halt) : Run Unit := if b then .ok () else .error h

/-- A part of an instruction that follows accesses which the MTUs have admitted: what stops it carries the state that
they left (R26). -/
def State.seenBy {α : Type} (s : State) (r : Run α) : Run α := r.mapError (.seen s)

/-- The illegal-instruction fate on the main word (R229). -/
def illegalMain : Halt := .fate 0x01 0 0

/-- A 32-byte record from its dwords. -/
def dwords4 (d0 d1 d2 d3 : BitVec 64) : BitVec 256 := d3 ++ d2 ++ d1 ++ d0

/-- A KIND 0 record (R38). -/
def record0 (d0 mask pc : BitVec 64) (access cause : Nat) (seq : BitVec 32) (asid : BitVec 16) (core slot : Nat) :
    BitVec 256 :=
  dwords4 d0 mask (BitVec.ofNat 8 cause ++ BitVec.ofNat 2 access ++ pc.extractLsb' 2 54)
    (0#2 ++ BitVec.ofNat 4 slot ++ BitVec.ofNat 10 core ++ asid ++ seq)

/-- A KIND 2 record (R228). -/
def record2 (d0 : BitVec 64) (slot queue source reason : Nat) (now : BitVec 64) (cause : Nat) (grid : BitVec 32)
    (asid : BitVec 16) (unit : Nat) : BitVec 256 :=
  dwords4 d0 (0#27 ++ BitVec.ofNat 16 reason ++ BitVec.ofNat 2 source ++ BitVec.ofNat 6 queue ++ BitVec.ofNat 13 slot)
    (BitVec.ofNat 8 cause ++ 0#2 ++ now.extractLsb' 0 54)
    (2#2 ++ 0#4 ++ BitVec.ofNat 10 unit ++ asid ++ grid)

/-- A KIND 3 record (R228). -/
def record3 (d0 : BitVec 64) (failed cls : Nat) (lost : Bool) (now : BitVec 64) (cause : Nat) (asid : BitVec 16)
    (unit : Nat) : BitVec 256 :=
  dwords4 d0 (0#44 ++ BitVec.ofBool lost ++ BitVec.ofNat 6 cls ++ 0#3 ++ BitVec.ofNat 10 failed)
    (BitVec.ofNat 8 cause ++ 0#2 ++ now.extractLsb' 0 54)
    (3#2 ++ 0#4 ++ BitVec.ofNat 10 unit ++ asid ++ 0#32)

/-- Whether a die's fault queue is full (R41). -/
def State.fqFull (s : State) (die : Nat) : Bool :=
  let n := 2 ^ fld (s.reg (mtuReg die 0x20)) 0 5
  (fld (s.reg (mtuReg die 0x30)) 0 20 + 1) % n = fld (s.reg (mtuReg die 0x28)) 0 20 % n

/-- Write a record into the ring of a die and advance TAIL (R40, R41). -/
def State.fqWrite (s : State) (die : Nat) (r : BitVec 256) : State :=
  let n := 2 ^ fld (s.reg (mtuReg die 0x20)) 0 5
  let tail := fld (s.reg (mtuReg die 0x30)) 0 20
  let base := (s.reg (mtuReg die 0x18)).toNat
  (s.writeLE (physKey 0 die (base + 32 * tail)) 32 r.toNat).setReg (mtuReg die 0x30) (BitVec.ofNat 64 ((tail + 1) % n))

/-- Queue a fault record at a die (R41): into the ring, else the pending buffer of 512 with OVF set, else the requests
that wait behind it. -/
def State.queueRecord (s : State) (die : Nat) (r : BitVec 256) : State :=
  let m := s.mtu die
  if m.pend.isEmpty && !s.fqFull die then s.fqWrite die r
  else
    let s := s.setReg (mtuReg die 0x38) (s.reg (mtuReg die 0x38) ||| 1)
    if m.pend.length < 512 then s.setMtu die { m with pend := m.pend ++ [r] }
    else s.setMtu die { m with behind := m.behind ++ [r] }

/-- The source number of the unit that a record of a die's queue comes from (R253): a core, the die's MTU for KIND 1, or
the reporting unit. -/
def recordSource (die : Nat) (r : BitVec 256) : Nat :=
  if r.extractLsb' 254 2 = 1 then 640 + die else (r.extractLsb' 240 10).toNat

/-- The record at a place of a die's ring. -/
def State.fqRecord (s : State) (die i : Nat) : BitVec 256 :=
  BitVec.ofNat 256 (s.readLE (physKey 0 die ((s.reg (mtuReg die 0x18)).toNat + 32 * i)) 32)

/-- Take the last record of a die's queue back. -/
def State.unqueue (s : State) (die : Nat) : Option (State × BitVec 256) :=
  let m := s.mtu die
  let n := 2 ^ fld (s.reg (mtuReg die 0x20)) 0 5
  let tail := fld (s.reg (mtuReg die 0x30)) 0 20
  match m.behind.reverse, m.pend.reverse with
  | r :: rs, _ => some (s.setMtu die { m with behind := rs.reverse }, r)
  | [], r :: rs => some (s.setMtu die { m with pend := rs.reverse }, r)
  | [], [] =>
    if tail = fld (s.reg (mtuReg die 0x28)) 0 20 then none
    else
      let at_ := (tail + n - 1) % n
      some (s.setReg (mtuReg die 0x30) (BitVec.ofNat 64 at_), s.fqRecord die at_)

/-- Queue a record ahead of the last n of a die's queue. -/
def State.queueAhead (die : Nat) (r : BitVec 256) : Nat → State → State
  | 0, s => s.queueRecord die r
  | n + 1, s =>
    match s.unqueue die with
    | some (u, q) => (State.queueAhead die r n u).queueRecord die q
    | none => s.queueRecord die r

/-- Queue a record of this time-stamp: among those of one time-stamp the lower source number goes first (R253). -/
def State.queueNow (s : State) (die : Nat) (r : BitVec 256) : State :=
  let m := s.mtu die
  let src := if m.tickAt = s.now.toNat then m.tickSrc else []
  let after := src.takeWhile fun q => decide (recordSource die r < q)
  let s := State.queueAhead die r after.length s
  s.setMtu die { s.mtu die with tickAt := s.now.toNat, tickSrc := after ++ recordSource die r :: src.drop after.length }

/-- Whether the record of a fence that a die reports is still to come and goes before a record of a time-stamp and a
source number (R249, R253). -/
def State.fenceBefore (s : State) (die t q : Nat) : Bool :=
  s.saves.any fun v => v.stage != 3 && match v.error with
    | some core => dieOf core = die && (decide (v.since < t) || (v.since = t && decide (core ≤ q)))
    | none => false

/-- Put a record in its place among those that wait behind a fence's. -/
def insertRecord (die : Nat) (e : Nat × BitVec 256) : List (Nat × BitVec 256) → List (Nat × BitVec 256)
  | [] => [e]
  | x :: l => if x.1 < e.1 ∨ (x.1 = e.1 ∧ recordSource die x.2 ≤ recordSource die e.2) then x :: insertRecord die e l else e :: x :: l

/-- Report a fault record at a die (R41, R253): in the order of detection, behind the record of a fence under way. -/
def State.emit (s : State) (die : Nat) (r : BitVec 256) : State :=
  let m := s.mtu die
  let s := s.setMtu die { m with records := m.records + 1 }
  let t := s.now.toNat
  if s.fenceBefore die t (recordSource die r) then
    s.setMtu die { s.mtu die with later := insertRecord die (t, r) (s.mtu die).later }
  else s.queueNow die r

/-- Report the record of a fence that has ended, detected at a time-stamp, and the records that waited behind it. -/
def State.emitFence (s : State) (die t : Nat) (r : BitVec 256) : State :=
  let m := s.mtu die
  let all := insertRecord die (t, r) m.later
  let go := all.takeWhile fun e => !s.fenceBefore die e.1 (recordSource die e.2)
  go.foldl (fun s e => if e.1 = s.now.toNat then s.queueNow die e.2 else s.queueRecord die e.2)
    (s.setMtu die { m with records := m.records + 1, later := all.drop go.length })

/-! ### Encrypted lines (R464): storage holds what the L2 slices serve; an entry for a line says what stands in memory
behind it, so that what the host reads is ciphertext, and what it alters no longer decrypts. -/

/-- A line of storage as one value. -/
def State.line (s : State) (q : Nat) : BitVec 512 := BitVec.ofNat 512 (s.readLE (64 * q) 64)

/-- The 96-bit nonce of a line: its physical address bits [51:6], then its write count (log 13). -/
def lineNonce (q count : Nat) : BitVec 96 := BitVec.ofNat 96 (q % 2 ^ 46 + count % 2 ^ 32 * 2 ^ 46)

/-- The ciphertext of a line under the key and count of its entry. -/
def lineCipher (q : Nat) (e : CryptLine) (plain : BitVec 512) : BitVec 512 :=
  let text := (List.range 64).map fun i => plain.extractLsb' (8 * i) 8
  let f := Config.gcm e.key (lineNonce q e.count) [] text
  BitVec.ofNat 512 ((List.range 64).foldr (fun i n => (f i).toNat + 256 * n) 0)

/-- Whether a line's stored form decrypts for an ASID: its tag matches under the installed key. -/
def State.tagMatches (s : State) (asid : BitVec 16) (q : Nat) : Bool :=
  match Tab.find s.crypt q with
  | some ⟨a, key, _, .sealed _⟩ => a = asid && (s.ctx asid).key = some key
  | _ => false

/-- The slice of a line encrypts it as it writes it back (R464), for an ASID, under the next count. -/
def State.encryptLine (s : State) (asid : BitVec 16) (q : Nat) : State :=
  let count := match Tab.find s.crypt q with | some e => e.count + 1 | none => 0
  { s with crypt := Tab.put s.crypt q ⟨asid, (s.ctx asid).key.getD 0, count, .sealed (s.line q)⟩ }

/-- Whether the slice of a line holds, for a context with a key, data that it has not written back (R464). -/
def State.lineDirty (s : State) (q : Nat) : Bool :=
  match Tab.find s.cfLines q with
  | some asid => (s.ctx asid).key.isSome && match (Tab.find s.crypt q).map CryptLine.form with
      | some (.sealed p) => s.line q != p
      | some (.altered _) => false
      | _ => true
  | none => false

/-- The slice writes a line back if it holds newer data. -/
def State.writeBackLine (s : State) (q : Nat) : State :=
  if s.lineDirty q then s.encryptLine ((Tab.find s.cfLines q).getD 0) q else s

/-- The bytes that stand in memory for a line become the data: its slice no longer serves the plaintext. -/
def State.exposeLine (s : State) (q : Nat) : State :=
  match Tab.find s.crypt q with
  | none => s
  | some e =>
    let t := { s with crypt := Tab.put s.crypt q { e with form := .opened } }
    match e.form with
    | .sealed p => t.writeLE (64 * q) 64 (lineCipher q e p).toNat
    | _ => t

/-- A line whose tag does not match (R464): its sectors are poisoned, and a CLASS 0 error is recorded at its die. -/
def State.tagMismatch (s : State) (asid : BitVec 16) (q : Nat) : State :=
  let die := q / 2 ^ 58 % 2
  let s := s.exposeLine q
  let e : CryptLine := (Tab.find s.crypt q).getD ⟨asid, 0, 0, .opened⟩
  ({ s with crypt := Tab.put s.crypt q e }.poison (64 * q) 64).emit die
    (record3 (BitVec.ofNat 64 (64 * q)) (640 + die) 0 false s.now 0x08 asid (640 + die))

/-- A line is filled for an access of an ASID, under a page with CF set or not (R464): with CF its tag must match under the
key, and a line of memory that was never written back encrypted has no tag that does (log 13); without CF what stands in
memory is the data.  A line that its slice holds for the ASID needs no fill. -/
def State.fillLine (s : State) (asid : BitVec 16) (cf : Bool) (q : Nat) : State :=
  if cf then
    let holds := Tab.find s.cfLines q = some asid && match (Tab.find s.crypt q).map CryptLine.form with
      | none | some .opened => true
      | _ => false
    if (s.ctx asid).key.isNone || holds || s.tagMatches asid q then s else s.tagMismatch asid q
  else if (Tab.find s.crypt q).isNone && (Tab.find s.cfLines q).isNone then s
  else (s.writeBackLine q).exposeLine q

/-- What the host sees of a line (R457): of an encrypted one its ciphertext. -/
def State.hostLine (s : State) (q : Nat) : BitVec 512 :=
  match Tab.find s.crypt q with
  | some e => match e.form with
    | .sealed p => lineCipher q e p
    | _ => s.line q
  | none => s.line q

/-- The host alters a line (R457, R464): an encrypted one holds what the host wrote until its ciphertext stands there
again. -/
def State.hostSetLine (s : State) (q : Nat) (v : BitVec 512) : State :=
  let keep (e : CryptLine) (p : BitVec 512) : State :=
    if v = lineCipher q e p then
      { s with crypt := Tab.put s.crypt q { e with form := .sealed p } }.writeLE (64 * q) 64 p.toNat
    else { s with crypt := Tab.put s.crypt q { e with form := .altered p } }.writeLE (64 * q) 64 v.toNat
  match Tab.find s.crypt q with
  | some e => match e.form with
    | .sealed p | .altered p => keep e p
    | .opened => s.writeLE (64 * q) 64 v.toNat
  | none => s.writeLE (64 * q) 64 v.toNat

/-! ### Trace (R444 to R448) -/

/-- A trace record (R445) without its LOST field. -/
def traceRecord (now : BitVec 64) (typ : Nat) (pc : BitVec 64) (core : Nat) (seq : BitVec 32) (slot : Nat)
    (asid : BitVec 16) (payload : Nat) : BitVec 256 :=
  dwords4 (0#6 ++ BitVec.ofNat 4 typ ++ now.extractLsb' 0 54) (BitVec.ofNat 10 core ++ pc.extractLsb' 2 54)
    (asid ++ 0#12 ++ BitVec.ofNat 4 slot ++ seq) (BitVec.ofNat 48 payload ++ 0#16)

/-- The ASID of a trace record. -/
def recAsid (r : BitVec 256) : BitVec 16 := r.extractLsb' 176 16

/-- What orders the records of a buffer (R447): the time-stamp, then the core, then the slot. -/
def recKey (r : BitVec 256) : Nat :=
  (r.extractLsb' 0 54).toNat * 2 ^ 14 + (r.extractLsb' 118 10).toNat * 2 ^ 4 + (r.extractLsb' 160 4).toNat

/-- Put a record into a buffer in its order (R447), behind every TYPE 0 record (R448). -/
def putRec (r : BitVec 256) : List (BitVec 256) → List (BitVec 256)
  | [] => [r]
  | q :: qs =>
    if recKey r < recKey q && (q :: qs).all fun x => x.extractLsb' 54 4 != 0 then r :: q :: qs else q :: putRec r qs

/-- A powered cluster's pending loss count goes into the first free entry of its buffer, in a TYPE 0 record (R448; log
35). -/
def TraceBuf.carry (b : TraceBuf) (now : BitVec 64) (cluster : Nat) : TraceBuf :=
  if b.lost ≠ 0 ∧ !b.gated ∧ b.recs.length < 2048 then
    let c := traceRecord now 0 0 (8 * cluster) 0 0 b.lostAsid 0
    { b with recs := b.recs ++ [c ||| (BitVec.ofNat 256 (min b.lost 65535)) <<< 192], lost := 0 }
  else b

/-- Put a record into a buffer, or drop it where none is free (R448). -/
def TraceBuf.put (b : TraceBuf) (r : BitVec 256) : TraceBuf :=
  if b.recs.length < 2048 then { b with recs := putRec r b.recs }
  else { b with lost := b.lost + 1, lostAsid := recAsid r }

/-- Change a cluster's trace buffer. -/
def State.modTraces (s : State) (cluster : Nat) (f : TraceBuf → TraceBuf) : State :=
  { s with traces := Tab.set TraceBuf.zero s.traces cluster (f (Tab.get TraceBuf.zero s.traces cluster)) }

/-- Put a record into the buffer of a core's cluster, behind its pending loss count (R447, R448). -/
def State.tracePut (s : State) (core : Nat) (r : BitVec 256) : State :=
  s.modTraces (core / 8) fun b => (b.carry s.now (core / 8)).put r

/-- Write a trace record of a class for a group, if its context traces that class (R444). -/
def State.trace (s : State) (g : Group) (cls typ : Nat) (pc : BitVec 64) (seq : BitVec 32) (payload : Nat) : State :=
  if (s.ctx g.asid).trcCtl.getLsbD 0 && g.traceMask.getLsbD cls then
    s.tracePut g.core (traceRecord s.now typ pc g.core seq g.slot g.asid payload)
  else s

/-! ### Stops (R227 to R232) -/

/-- Add to a counter of a core (R449). -/
def State.bump (s : State) (core n k : Nat) : State :=
  if k = 0 then s
  else
    let c := s.core core
    s.setCore core { c with counters := Tab.set 0 c.counters n (Tab.get 0 c.counters n + BitVec.ofNat 64 k) }

/-- Count on a core the zero writes of a group that leaves it (R195, R449). -/
def State.countWrites (s : State) (g : Group) : State := s.bump g.core 0x00F g.zeroWrites

/-- Whether a group's watchdog count runs (R215): it is resident, not stopped, not saved, and not waiting in EVWAIT. -/
def Group.wdRuns (g : Group) : Bool :=
  g.stop.isNone && !g.saved && !g.quiesce && !(g.waitsIn.any fun w => w.1 = 3)

/-- A group's watchdog count at a clk (R215): while the count runs `lastRetire` is the clk it counts from, else the count
itself. -/
def Group.wdCount (g : Group) (clk : Nat) : Nat := if g.wdRuns then clk - g.lastRetire else g.lastRetire

/-- The group h that g has become, with g's watchdog count (R215). -/
def Group.recount (h g : Group) (clk : Nat) : Group :=
  { h with lastRetire := if h.wdRuns then clk - g.wdCount clk else g.wdCount clk }

/-- The end of a TYPE 5 interval. -/
def State.waitEnd (s : State) (g : Group) : State :=
  match g.waitsIn with
  | some k => s.trace g 3 5 g.pc g.seqNo (k.1.toNat + k.2.toNat * 8 + 2 ^ 19)
  | none => s

/-- Park a group with a stop (R230).  The group keeps its slot, registers and tickets, and its watchdog count, which then
does not run (R215); a TYPE 5 interval ends, and the TYPE 6 trace record names the cause. -/
def State.parkGroup (s : State) (g : Group) (st : Stop) : State :=
  let s := s.setGroup { g with
    stop := some st, waiting := false, waitsIn := none, reissue := none, growSince := none, lastRetire := g.wdCount s.clk }
  let s := if st.cause = 0x20 then s.bump g.core 0x011 1 else s
  (s.waitEnd g).trace g 4 6 g.pc g.seqNo st.cause.toNat

/-- Park a group with a stop and its record at a die's queue: taking a fault (R227, R230). -/
def State.stopGroup (s : State) (g : Group) (die : Nat) (r : BitVec 256) (st : Stop) : State := (s.emit die r).parkGroup g st

/-- Stop a group precisely at its instruction for a fate whose record goes to the issuing core's die, or, for a
translation fault, to `die` (R37, R230). -/
def State.stopPrecise (s : State) (g : Group) (die cause : Nat) (d0 mask : BitVec 64) (access : Nat) : State :=
  s.stopGroup g die (record0 d0 mask g.pc access cause g.seqNo g.asid g.core g.slot)
    ⟨BitVec.ofNat 8 cause, .precise, mask, []⟩

/-- Stop a group after its instruction: the record names the instruction's site, the saved PC the next one (R227,
R305). -/
def State.stopAfter (s : State) (g : Group) (site : BitVec 64) (cause : Nat) (d0 : BitVec 64) : State :=
  s.stopGroup g (dieOf g.core) (record0 d0 0 site 0 cause g.seqNo g.asid g.core g.slot)
    ⟨BitVec.ofNat 8 cause, .after, 0, []⟩

/-- Stop a group precisely for translation fates on several pages: one record a page, each at its own die, with one mask
(R37). -/
def State.stopPages (s : State) (g : Group) (rs : List (Nat × Nat × BitVec 64)) (mask : BitVec 64) (access : Nat) : State :=
  let rec_ (r : Nat × Nat × BitVec 64) : BitVec 256 := record0 r.2.2 mask g.pc access r.2.1 g.seqNo g.asid g.core g.slot
  match rs with
  | [] => s
  | r :: rest => rest.foldl (fun s r => s.emit r.1 (rec_ r))
      (s.stopGroup g r.1 (rec_ r) ⟨BitVec.ofNat 8 r.2.1, .precise, mask, []⟩)

/-- Stop a group at the boundary before its instruction (R50, R236). -/
def State.stopBoundary (s : State) (g : Group) (cause : Nat) (d0 : BitVec 64) : State :=
  s.stopGroup g (dieOf g.core) (record0 d0 0 g.pc 0 cause g.seqNo g.asid g.core g.slot)
    ⟨BitVec.ofNat 8 cause, .boundary, 0, []⟩

/-- Return from a stop by OP 0 of MTU_REPLAY at a clk (R42, R232): issue resumes and the watchdog count runs on (R215);
after a precise stop on a translation fault only the lanes of the record's mask are reissued, after any other the
instruction is issued afresh. -/
def Group.resume (g : Group) (clk : Nat) : Group :=
  match g.stop with
  | none => g
  | some st =>
    let lanes := st.kind = .precise && decide (0x11 ≤ st.cause.toNat) && decide (st.cause.toNat ≤ 0x13)
    { g with stop := none, reissue := if lanes && decide (st.mask ≠ 0) then some st.mask else none, waiting := false, ibuf := none }.recount g clk

/-! ### Issue -/

/-- The number of words of an instruction (R280). -/
def codeLen (c : Code) : Nat :=
  1 + (if c.pfx.rep.isSome then 1 else 0) + (if c.pfx.mod.isSome then 1 else 0) + (if c.pfx.ext.isSome then 1 else 0)

/-- The register numbers of a word's fields at a repeat: a v field may step past v127 in a block of more registers
(R188, R289). -/
structure RegsAt where
  d : BitVec 9
  a : BitVec 9
  b : BitVec 9
  wa : Bool
  wb : Bool
  deriving DecidableEq, Repr

/-- The field f at repeat i (R289, R301). -/
def repField (f : BitVec 7) (step : BitVec 2) (i : Nat) : BitVec 9 := f.zeroExtend 9 + BitVec.ofNat 9 (i * repStep step)

/-- The register fields of a repeat (R289). -/
def rrrAt (r : RRR) (x : Pfx) (i : Nat) : RegsAt :=
  match x.rep with
  | none => ⟨r.d.zeroExtend 9, r.a.zeroExtend 9, r.b.zeroExtend 9, r.wa, r.wb⟩
  | some q => ⟨repField r.d q.ds i, repField r.a q.as i, repField r.b q.bs i, r.wa, r.wb⟩

/-- The groups of a role-split team may issue only what R182 permits: role 0 copy, 1 matrix, 2 vector. -/
def rolePermits (role major : Nat) : Bool :=
  if major ≤ 0x14 ∨ major = 0x28 ∨ major = 0x2A ∨ major = 0x31 ∨ major = 0x34 ∨ major = 0x35 then true
  else if (0x15 ≤ major ∧ major ≤ 0x27) ∨ major = 0x30 ∨ major = 0x33 then role = 2
  else if 0x2B ≤ major ∧ major ≤ 0x2F then role = 1
  else role = 0

/-- Whether a type code of an element is 64 bits wide. -/
def is64 (t : Nat) : Bool := t = 7 || t = 8

/-- How many consecutive v registers the fields d, a and b of an instruction reach (R284, R303, R328 to R331, R343,
R347, R349). -/
def fieldSpan (major fn type bsel : Nat) : Nat × Nat × Nat :=
  let e := if is64 type then 2 else 1
  match major with
  | 0x05 => (1, if fn = 5 then bsel else 1, 1)
  | 0x15 | 0x16 | 0x17 | 0x18 | 0x21 => (e, e, e)
  | 0x20 => (e, e, 1)
  | 0x19 => if fn ≤ 4 then (e, e, e) else (1, 1, 1)
  | 0x1F => match fn with
    | 0 => (e, if is64 bsel then 2 else 1, 1)
    | 2 => (1, 2, 2)
    | 5 => (4, 1, 1)
    | 6 => (2, 1, 1)
    | _ => (1, 1, 1)
  | 0x23 | 0x24 | 0x25 =>
    (if fn = 1 ∨ fn = 5 then 2 else if fn = 2 then 4 else 1, if fn = 4 ∨ fn = 5 then 2 else 1, 1)
  | 0x26 => (if fn = 7 then 2 * e else e, 2, 1)
  | 0x27 => (if fn = 2 then 1 else 2, 2, 1)
  | 0x28 => (1, 2, 1)
  | _ => (1, 1, 1)

/-- Whether a field's register, reaching n registers, exists for the group (R188, R199, R284). -/
def fldPresent (c : Fld) (g : Group) (tregs f n : Nat) : Bool :=
  match c with
  | .v => decide (g.vreg f + n ≤ g.blockSize)
  | .t => decide (f < tregs)
  | .a => g.accOwned.getLsbD f
  | _ => true

/-- The register fields of a body, and the v field of a TS word, exist for the group (R188, R199). -/
def windowAt (c : Code) (g : Group) (tregs i : Nat) : Bool :=
  match c.body with
  | .rrr fn r =>
    let k := fieldClasses c.major.toNat fn.toNat
    let n := fieldSpan c.major.toNat fn.toNat c.pfx.m.type.toNat r.b.toNat
    let q := rrrAt r c.pfx i
    fldPresent k.1 g tregs q.d.toNat n.1 && fldPresent k.2.1 g tregs q.a.toNat n.2.1 &&
      fldPresent k.2.2 g tregs q.b.toNat n.2.2
  | .ts r => fldPresent .v g tregs r.d.toNat (if g.width = 16 then 2 else 1) && fldPresent .t g tregs r.t.toNat 1
  | _ => true

/-- The number of repeats of an instruction. -/
def repsOf (x : Pfx) : Nat := match x.rep with | some q => q.n | none => 1

/-- The register-window checks of an instruction (R188, R199, R290): the repeat's own registers and, at the first
repeat, those of the last. -/
def windowOk (c : Code) (g : Group) (tregs : Nat) : Bool :=
  windowAt c g tregs g.repIdx && (decide (g.repIdx ≠ 0) || windowAt c g tregs (repsOf c.pfx - 1))

/-- The engine commands of R441. -/
def isEngineCommand (major fn : Nat) : Bool :=
  major = 0x29 || major = 0x32 || (major = 0x2B && (fn = 2 || fn = 6 || fn = 7)) || (major = 0x2C && fn ≤ 1)

/-- The instructions that clear a team's replayable bit whatever their operands hold (R244). -/
def clearsRepl (major fn : Nat) : Bool :=
  major = 0x14 || major = 0x26 || major = 0x27 || major = 0x30 || major = 0x31 || major = 0x32 || major = 0x34 ||
    (major = 0x33 && (fn = 2 || fn = 3)) || (major = 0x2A && (fn = 5 || fn = 7)) ||
    (major = 0x29 && (fn = 3 || fn = 4))

/-- Whether a group can issue: it is not stopped, saved or quiesced, no confirmation holds it (R33), no late fault
waits for its boundary (R50) and no fetch holds it (R281). -/
def Group.canIssue (g : Group) : Bool :=
  g.stop.isNone && !g.saved && !g.quiesce && g.holds.isEmpty && g.late.isEmpty && g.ibufWait.isNone

/-- Let a group wait: it keeps its PC; the first wait at a site begins a TYPE 5 trace interval, and ends one at another
(R446). -/
def State.waitGroup (s : State) (g : Group) (site : Option (BitVec 3 × BitVec 16)) : State :=
  let s := if g.waitsIn = site then s else s.waitEnd g
  let s := s.setGroup ({ g with waiting := true, waitsIn := site }.recount g s.clk)
  match site with
  | some k =>
    if g.waitsIn = site then s else s.trace g 3 5 g.pc g.seqNo (k.1.toNat + k.2.toNat * 8)
  | none => s

/-- The stages of a ring of a team (R201). -/
def Team.ring (t : Team) (r : Nat) : Nat := t.rings.toNat / 16 ^ r % 16

/-- The stage that a round number names: its bit among the team's phase bits (R197, R366). -/
def Team.stage (t : Team) (r : Nat) (round : BitVec 64) : Nat := 8 * r + round.toNat % t.ring r

/-! ### Lines that switches hold (R166) -/

/-- This package's node number (R156). -/
def State.node (s : State) : Nat := fld (s.reg 0x6000) 1 10

/-- The empty flit of a type between two nodes, on their control plane (R154). -/
def flitOf (typ src dst : Nat) : Flit :=
  { typ := BitVec.ofNat 5 typ, src := BitVec.ofNat 10 src, dst := BitVec.ofNat 10 dst, win := 0, gen := 0, tag := 0,
    core := 0, scope := 0, key := 0, ticket := 0, slot := 0, sect := 0, order := 0, replay := false, fc := false,
    excl := false, nf := false, line := 0, aop := 0, atype := 0, bmask := 0, status := 0, pois := 0, dirty := 0,
    grant := false, tkt := 0, data := 0, cmp := 0, desc := 0, count := 0, payload := 0, rsv := 0,
    plane := ctlPlane (BitVec.ofNat 10 src) (BitVec.ofNat 10 dst), port := 0, hop := false }

/-! ### Sending (R152 to R156) -/

/-- Whether the interface is enabled (R156). -/
def State.efiOn (s : State) : Bool := (s.reg 0x6000).getLsbD 0

/-- Whether a logical plane is open and has credit (R152, R156; log 23). -/
def State.planeOpen (s : State) (plane : Nat) : Bool :=
  (s.reg (0x6040 + plane / 8 * 8)).getLsbD (plane % 8 * 8 + 7) && !s.noCredit.contains plane

/-- The physical port of a logical plane (R154). -/
def State.portOf (s : State) (plane : Nat) : Nat := fld (s.reg (0x6040 + plane / 8 * 8)) (plane % 8 * 8) 6

/-- Whether a flit may leave on a plane now (R152, R155, R156): the interface is enabled, the plane is open and has credit,
and no flit is held for it. -/
def State.mayLeave (s : State) (plane : Nat) : Bool :=
  s.efiOn && s.planeOpen plane && s.held.all fun f => f.plane.toNat != plane

/-- After a packet on a plane: whether it took the plane's last credit is a free choice (R152; log 23). -/
def State.spendCredit (s : State) (plane : Nat) : State :=
  let d := s.drawFree
  { d.1 with noCredit := if (Config.freeValue d.2).getLsbD 0 then plane :: d.1.noCredit else d.1.noCredit }

/-- Send a packet on its plane through the plane's port (R154), or hold it until the plane takes it (R152). -/
def State.send (s : State) (f : Flit) : State :=
  if s.mayLeave f.plane.toNat then
    State.spendCredit { s with out := s.out ++ [{ f with port := BitVec.ofNat 6 (s.portOf f.plane.toNat) }] } f.plane.toNat
  else { s with held := s.held ++ [f] }

/-- Send packets in order. -/
def State.sendAll (s : State) (fs : List Flit) : State := fs.foldl State.send s

/-- Send what was held for planes that take packets again, in order. -/
def State.sendHeld (s : State) : State := if s.held.isEmpty then s else State.sendAll { s with held := [] } s.held

/-- What the owner's directory notes of a line that the switch of a plane holds (R166). -/
def lentKey (line : BitVec 50) (plane : BitVec 6) : Nat := line.toNat + plane.toNat * 2 ^ 50

/-- The lines of storage that switches hold owned or shared copies of (R166), for a place. -/
def State.lentAt (s : State) (loc : Nat) : List Nat := Tab.get [] s.lent (loc / 64)

/-- The RECALL of a line that a switch holds (R166): it goes from the owner to the switch of the plane (log 22). -/
def State.recallFlit (s : State) (e : Nat) : Flit :=
  { flitOf 0x0F s.node s.node with line := BitVec.ofNat 50 e, plane := BitVec.ofNat 6 (e / 2 ^ 50), hop := true }

/-- Recall copies that switches hold (R166), each of which has one RECALL under way at most. -/
def State.recallAll (s : State) (es : List Nat) : State :=
  let new := es.eraseDups.filter fun e => !s.recalling.contains e
  State.sendAll { s with recalling := s.recalling ++ new } (new.map s.recallFlit)

/-- Recall the switch copies of a line of storage (R166). -/
def State.recallLine (s : State) (q : Nat) : State := s.recallAll (Tab.get [] s.lent q)

/-! ### L1 copies and entries that await data -/

/-- The kept ticket-table entries of an operation (R46). -/
def MemOp.keptEntries (o : MemOp) : Nat := (o.lines.filter fun l => l.kept && l.at_ != .done).length

/-- Whether an operation has a kept ticket-table entry (R46). -/
def MemOp.ticketed (o : MemOp) : Bool := o.lines.any fun l => l.kept && l.at_ != .done

/-- After an acquire of a core's group, or a write of its, no later request joins what the core awaits (R84, R128): those
requests were sent before it. -/
def State.entriesOld (s : State) (core : Nat) : State :=
  if s.memops.all fun e => e.2.lines.isEmpty then s
  else { s with memops := s.memops.map fun e =>
      if e.2.core = core then (e.1, { e.2 with lines := e.2.lines.map fun f => { f with joinable := false } }) else e }

/-- Invalidate a core's L1 (R79, R135). -/
def State.l1Drop (s : State) (core : Nat) : State :=
  State.entriesOld { s with
    l1 := s.l1.filter fun e => decide (e.1 / 2 ^ 72 ≠ core)
    l1pois := s.l1pois.filter fun k => decide (k / 2 ^ 72 ≠ core) } core

/-- The part of an acquire at T that the model's state shows (R79, R148): where the scope's point is not the core's L1, the
L1 is invalidated. -/
def State.acquireT (s : State) (g : Group) : State :=
  if ((s.team g.team).map Team.paired).getD false then s.l1Drop g.core else s.entriesOld g.core

/-! ### Settling -/

/-- Whether a place of a die's HBM4 lies in the table that a walk went through (R22, R27). -/
def WalkEnt.holds (c : WalkEnt) (die k : Nat) : Bool :=
  let table := if c.level = 0 then fld c.entry 19 33 * 2 ^ 19 else fld c.entry 8 44 * 2 ^ 8
  let size := if c.level = 0 then 2 ^ 19 else if c.level = 3 then 256 else 4096
  decide (physKey 0 die table ≤ k) && decide (k < physKey 0 die table + size)

/-- Keep of a state t that an operation had reached what the MTUs and slices did for its admitted accesses: the marks in
leaves, those of leaves that are no longer cached too (R26), what the MTUs cached and counted (R27), and the lines that were
filled (R464). -/
def State.adoptMarks (s t : State) : State :=
  let marked (e : Host.Cell) : Bool := decide (e.1 % 8 = 0) && e.2.getLsbD 0 && e.2.getLsbD 1 && s.byte e.1 != e.2 &&
    (s.byte e.1 &&& ~~~0x60) = (e.2 &&& ~~~0x60) && (s.byte e.1 &&& e.2) = s.byte e.1 &&
    [0, 1].any fun die => ((s.mtu die).tlb.any fun l => physKey 0 die l.at_ = e.1) ||
      (t.mtu die).walkCache.any fun c => c.holds die e.1
  let s := { s with mem := (t.mem.filter marked).foldl (fun (m : List Host.Cell) (e : Host.Cell) => Tab.set 0 m e.1 e.2) s.mem }
  let s := [0, 1].foldl (fun s die =>
    let m := t.mtu die
    s.setMtu die { s.mtu die with tlb := m.tlb, walkCache := m.walkCache, walks := m.walks }) s
  let filled := (Tab.keys s.crypt ++ Tab.keys t.crypt).eraseDups.filter fun q => Tab.find t.crypt q != Tab.find s.crypt q
  { filled.foldl (fun s q => s.fillLine ((Tab.find t.cfLines q).getD 0) (Tab.find t.cfLines q).isSome q) s with
    cfLines := t.cfLines }

/-- The kind and index by which a trace record names a wait in an instruction, whatever it waits for (R446 TYPE 5): BAR,
BARWAIT, STAGEACQ, EVWAIT, DEPWAIT and WSLOT.  DESIGN CHOICE (log 35): where the operand that gives the index is still
empty, the index is what its register holds. -/
def State.waitSite (s : State) (g : Group) (w : Word) : Option (BitVec 3 × BitVec 16) :=
  let r := RRR.ofWord w
  let a := g.sv r.a.toNat
  match (w.extractLsb' 26 6).toNat, (w.extractLsb' 2 3).toNat with
  | 0x2A, 0 => some (0, BitVec.ofNat 16 r.b.toNat)
  | 0x2A, 2 => some (1, BitVec.ofNat 16 r.b.toNat)
  | 0x2A, 3 => some (2, BitVec.ofNat 16 (((s.team g.team).map fun t => t.stage (r.b.toNat % 4) a).getD 0))
  | 0x2A, 6 => some (3, a.extractLsb' 0 16)
  | 0x34, 3 => some (4, a.extractLsb' 2 16)
  | 0x34, 4 => some (5, (g.sv r.b.toNat).extractLsb' 0 16)
  | _, _ => none

/-- Settle a halt: wait, or stop precisely with the record of R38 and R229. -/
def State.settle (s : State) (g : Group) (w : Word) (h : Halt) : State :=
  match h with
  | .seen t h => (s.adoptMarks t).settle g w h
  | .waitEmpty => s.waitGroup { g with onEmpty := true } (s.waitSite g w)
  | .wait => s.waitGroup { g with onEmpty := false } (s.waitSite g w)
  | .waitLine k => (s.recallLine (k / 64)).waitGroup { g with onEmpty := false } (s.waitSite g w)
  | .fate c detail mask => s.stopPrecise g (dieOf g.core) c (BitVec.ofNat 32 detail ++ w) mask 0
  | .fateAt c d0 mask access => s.stopPrecise g (dieOf g.core) c d0 mask access
  | .fateOn die c d0 mask access => s.stopPrecise g die c d0 mask access
  | .boundary c detail => s.stopBoundary g c (BitVec.ofNat 32 detail ++ w)
  | .pages rs mask access => s.stopPages g rs mask access

/-- How many v registers from field d an instruction reads as a source: the old destination (R315, R318, R320, R322),
the data of a store (R345), the operands of an atomic (R347, R349). -/
def dReads (major fn type : Nat) : Nat :=
  let e := if is64 type then 2 else 1
  match major with
  | 0x15 => if fn = 4 then e else 0
  | 0x17 => if fn = 7 then e else 0
  | 0x19 => if fn = 1 then e else 0
  | 0x1A => if fn = 3 ∨ fn = 4 then 1 else 0
  | 0x24 => if fn = 1 ∨ fn = 5 then 2 else if fn = 2 then 4 else 1
  | 0x26 => if fn = 7 then 2 * e else e
  | 0x27 => if fn = 2 then 0 else 2
  | 0x33 => if fn ≤ 3 then 1 else 0
  | _ => 0

/-- The v registers that an instruction reads at a repeat, each with its number of registers (R195); RPF reads no value
(R311). -/
def vSources (c : Code) (g : Group) : List (Nat × Nat) :=
  match c.body with
  | .rrr fn r =>
    if c.major = 0x05 then [] else
    let k := fieldClasses c.major.toNat fn.toNat
    let n := fieldSpan c.major.toNat fn.toNat c.pfx.m.type.toNat r.b.toNat
    let q := rrrAt r c.pfx g.repIdx
    [(q.d.toNat, dReads c.major.toNat fn.toNat c.pfx.m.type.toNat)] ++
      (if k.2.1 = .v then [(q.a.toNat, n.2.1)] else []) ++ (if k.2.2 = .v then [(q.b.toNat, n.2.2)] else [])
  | .ts r => if c.major = 0x2D then [(r.d.toNat, if g.width = 16 then 2 else 1)] else []
  | _ => []

/-- The lanes whose words an instruction reads: those it acts on, or the one that VEXTR names (R321). -/
def vSourceLanes (c : Code) (g : Group) : List Nat :=
  match c.body with
  | .rrr _ r =>
    if c.major = 0x19 ∧ c.fnNat = 3 then [(g.sv (rrrAt r c.pfx g.repIdx).b.toNat).toNat % g.width]
    else lanesOf g.width (g.reissue.getD (g.active c.pfx))
  | _ => lanesOf g.width (g.active c.pfx)

/-- The v lane words an instruction reads through zero flags (R195, R449; DESIGN CHOICE, log 36: each source word once for
each lane the instruction acts on). -/
def zeroReads (c : Code) (g : Group) : Nat :=
  ((vSources c g).map fun e => ((List.range e.2).map fun i =>
    ((vSourceLanes c g).filter fun l => (g.vel (e.1 + i) l).zf).length).sum).sum

/-- How many consecutive s registers an instruction reads from its fields d, a and b where they name s registers: blocks of
an engine's operands (R357 to R362, R376, R385), of RNGSET, and what SATOM.CAS, SST and BTST read in field d. -/
def sReads (major fn : Nat) : Nat × Nat × Nat :=
  match major with
  | 0x14 => (if fn = 7 then 1 else 0, 1, 1)
  | 0x29 => (0, if fn = 1 then 3 else if 2 ≤ fn ∧ fn ≤ 4 then 4 else 2, 1)
  | 0x2B => (0, 1, if fn = 2 then 4 else 1)
  | 0x2C => (0, 6, 1)
  | 0x30 => (if fn = 3 then 2 else 0, 1, 1)
  | 0x31 => (if fn = 1 then 1 else 0, 1, 1)
  | 0x32 => (0, if fn = 2 then 2 else 1, 1)
  | _ => (0, 1, 1)

/-- The scalar registers that an instruction reads. -/
def sRead (c : Code) (g : Group) : List Nat :=
  match c.body with
  | .rrr fn r =>
    let k := fieldClasses c.major.toNat fn.toNat
    let n := sReads c.major.toNat fn.toNat
    let q := rrrAt r c.pfx g.repIdx
    let from_ (cls : Fld) (f n : Nat) : List Nat := if cls = .s then (List.range n).map (f + ·) else []
    from_ k.1 q.d.toNat n.1 ++ from_ k.2.1 q.a.toNat n.2.1 ++ from_ k.2.2 q.b.toNat n.2.2 ++
      if c.major = 0x05 ∧ fn = 1 then [127] else []
  | .ri r => if c.major = 0x13 then [r.d.toNat, r.a.toNat] else [r.a.toNat]
  | .li r => if c.major = 0x08 then [r.d.toNat] else []
  | .br r => if c.major = 0x04 ∧ 6 ≤ r.cc.toNat then [] else [r.a.toNat]
  | .ts r => [r.s.toNat]
  | .j _ => []

/-- The scalar registers whose value an instruction replaces. -/
def sWritten (c : Code) (g : Group) : List Nat :=
  match c.body with
  | .rrr fn r =>
    let keeps := (c.major = 0x29 ∧ fn = 6) ∨ (c.major = 0x30 ∧ fn = 3) ∨ (c.major = 0x31 ∧ fn = 1)
    if (fieldClasses c.major.toNat fn.toNat).1 = .s ∧ ¬keeps then [(rrrAt r c.pfx g.repIdx).d.toNat] else []
  | .ri r => if c.major = 0x13 then [] else [r.d.toNat]
  | .li r => [r.d.toNat]
  | .br r => if c.major = 0x04 then [] else [r.a.toNat]
  | .j _ => if c.major = 0x03 then [127] else []
  | .ts _ => []

/-- An instruction that reads a filled token is an acquire at T (R79, R143), every one that does until the register holds
another value.  The wider of two operand blocks is taken where a control word decides; an acquire more takes nothing but
copies that may go at any time. -/
def State.tokenAcquire (s : State) (c : Code) (g : Group) : State :=
  if g.tokens != 0 && (sRead c g).any fun k => g.tokens.getLsbD k then s.acquireT g else s

/-- The registers that still hold a filled token after an instruction. -/
def tokensLeft (c : Code) (g : Group) (t : BitVec 128) : BitVec 128 :=
  if t = 0 then t else (sWritten c g).foldl (fun t k => t &&& ~~~(1#128 <<< k)) t

/-- What an instruction's own part answers: the state, its group and, for a control transfer, the next PC; `after` is
the CAUSE and DETAIL of a stop after the instruction (R227), `keep` is false when the group has ended. -/
structure Done where
  s : State
  g : Group
  pc : Option (BitVec 64) := none
  after : Option (Nat × Nat) := none
  keep : Bool := true

/-- Retire one instruction or repeat (R280, R289): advance the PC or REPIDX, count it, clear the watchdog, number an
engine command (R441) and trace it (one of major 0x32 when it went to its unit, R446), clear REPL (R244). -/
def State.retire (d : Done) (c : Code) (before : Group) : State :=
  let fn := c.fnNat
  let major := c.major.toNat
  let eng := isEngineCommand major fn
  let g := d.g
  let more := decide (before.repIdx + 1 < repsOf c.pfx)
  let g := { g with
    pc := match d.pc with
      | some p => p
      | none => if more then g.pc else g.pc + BitVec.ofNat 64 (4 * codeLen c)
    repIdx := if more then before.repIdx + 1 else 0
    seqNo := if eng then g.seqNo + 1 else g.seqNo
    waiting := false, waitsIn := none, reissue := none, lastRetire := d.s.clk, tokens := tokensLeft c before g.tokens,
    ibuf := if more then g.ibuf else none }
  let s := (d.s.tokenAcquire c before).waitEnd before
  let s := if d.keep then s.setGroup g else s
  let s := s.bump g.core 0x001 1
  let s := s.bump g.core 0x00E (zeroReads c before)
  let s := if eng && major != 0x32 then s.trace g 1 2 before.pc before.seqNo (major + fn * 64) else s
  let s := if clearsRepl major fn then s.modTeam g.team fun t => { t with repl := false } else s
  match d.after with
  | some (cause, detail) => s.stopAfter g before.pc cause (BitVec.ofNat 32 detail ++ c.word)
  | none => s

/-- The issue of one instruction, or one repeat, by the current group: operand limits judged on values once the guard is full (rank 1
of R231; R229), then the role, then the register window, then the instruction's own part.  A group that cannot issue waits. -/
def issueWith (i : Instr) (limit : State → Group → Bool) (body : State → Group → Run Done) (s : State) :
    Host.Outcome State Fault Refusal :=
  match s.cur, i.code with
  | some (core, slot), some c =>
    match s.group core slot with
    | none => .fault .noGroup
    | some g =>
      if !g.canIssue then .next (s.setGroup { g with waiting := true })
      else if (g.pel c.pfx.m.pred.toNat).full && limit s g then
        .next (s.settle g c.word (.fate 0x01 0 (if actsOnLanes c.major.toNat c.fnNat then g.active c.pfx else 0)))
      else if !(g.role.all fun r => rolePermits r c.major.toNat) then
        .next (s.settle g c.word (.fate 0x40 (g.role.getD 0) (if actsOnLanes c.major.toNat c.fnNat then g.active c.pfx else 0)))
      else if !windowOk c g (match s.team g.team with | some t => t.tregs | none => 0) then
        .next (s.settle g c.word (.fate 0x42 0 (if actsOnLanes c.major.toNat c.fnNat then g.active c.pfx else 0)))
      else
        match body s g with
        | .ok d => .next (State.retire d c g)
        | .error h => .next (s.settle g c.word h)
  | _, _ => .fault .noGroup

/-- No limit on operand values. -/
def noLimit (_ : State) (_ : Group) : Bool := false

/-- Issue of an instruction that changes its group alone. -/
def issueG (i : Instr) (body : Group → Run Group) (s : State) : Host.Outcome State Fault Refusal :=
  issueWith i noLimit (fun s g => (body g).map fun g' => { s := s, g := g' }) s

/-- Issue of an instruction that changes the state and its group. -/
def issueS (i : Instr) (limit : State → Group → Bool) (body : State → Group → Run (State × Group)) (s : State) :
    Host.Outcome State Fault Refusal :=
  issueWith i limit (fun s g => (body s g).map fun r => { s := r.1, g := r.2 }) s

/-- Issue of a control transfer: the group and, when taken, the target. -/
def issueJ (i : Instr) (body : Group → Run (Group × Option (BitVec 64))) (s : State) :
    Host.Outcome State Fault Refusal :=
  issueWith i noLimit (fun s g => (body g).map fun r => { s := s, g := r.1, pc := r.2 }) s

end Sys2Proof.Machine
end

