-- ==== Sys2Proof/Machine/Mtu.lean ====
section
/-!
DEFINITION. Owner-side translation (R17 to R28): address forms, the four-level walk, permissions, the accessed and dirty
marks, and the leaf cache; and the reading of instruction words through it (R281).
-/
namespace Sys2Proof.Machine

/-- Whether bits [63:57] of an address are zero (R18). -/
def addrOk (va : BitVec 64) : Bool := decide (va.toNat < 2 ^ 57)

/-- Whether an address lies in fabric space (R17). -/
def isFabric (va : BitVec 64) : Bool := va.getLsbD 56

/-- The owning die of a package-local address (R17, R19). -/
def vaDie (va : BitVec 64) : Nat := fld va 55 1

/-- The offset of a package-local address in its die's space (R17). -/
def vaOfs (va : BitVec 64) : Nat := fld va 0 55

/-- The bytes a leaf of a level maps (R22). -/
def pageSize (level : Nat) : Nat :=
  match level with
  | 2 => 2 ^ 30
  | 3 => 2 ^ 21
  | _ => 2 ^ 16

/-- The levels of a walk: level, shift of its index, entries, and the bytes of the next table (R22). -/
def walkLevels : List (Nat × Nat × Nat × Nat) :=
  [(1, 39, 65536, 4096), (2, 30, 512, 4096), (3, 21, 512, 256), (4, 16, 32, 1)]

/-- Whether a leaf has a format error at a level (R23, R24). -/
def leafBad (level : Nat) (e : BitVec 64) : Bool :=
  let tier := fld e 8 2
  let frame := fld e 16 36 * 2 ^ 16
  level = 1 || fld e 10 6 ≠ 0 || fld e 52 12 ≠ 0 || frame % pageSize level ≠ 0 || tier = 3 ||
    decide (tierSize tier < frame + pageSize level)

/-- Whether a non-leaf entry has a format error at a level whose next table has `size` bytes (R23, R24); a next table
beyond the die's HBM4 is one too (DESIGN CHOICE, log 10). -/
def tableBad (level size : Nat) (e : BitVec 64) : Bool :=
  let next := fld e 8 44 * 2 ^ 8
  level = 4 || fld e 2 6 ≠ 0 || fld e 52 12 ≠ 0 || next % size ≠ 0 || decide (tierSize 0 < next + size)

/-- The table entry of a level that a walk uses (R27): the word in memory, or, where a walk cache holds another one, that
one as long as the cache keeps it (log 10). -/
def State.walkEntry (s : State) (die : Nat) (asid : BitVec 16) (level base at_ : Nat) : BitVec 64 :=
  let m := s.mtu die
  let e := s.read64 (physKey 0 die at_)
  match m.walkCache.find? fun c => c.asid = asid && c.level = level && c.base = base with
  | some c => if c.entry = e then e else if Config.walkHit m.walks.toNat level then c.entry else e
  | none => e

/-- A walk over the remaining levels from a table at a physical address of a die (R22 to R25): the leaf with its level
and place, or the CAUSE; and the non-leaf entries that it used. -/
def walkFrom (s : State) (die : Nat) (asid : BitVec 16) (ofs : Nat) :
    Nat → List (Nat × Nat × Nat × Nat) → Except Nat Leaf × List WalkEnt
  | _, [] => (.error 0x13, [])
  | table, (level, shift, n, size) :: rest =>
    let at_ := table + 8 * (ofs / 2 ^ shift % n)
    let base := ofs / 2 ^ shift * 2 ^ shift
    let e := s.walkEntry die asid level base at_
    if !e.getLsbD 0 then (.error 0x11, [])
    else if e.getLsbD 1 then
      (if leafBad level e then .error 0x13 else .ok ⟨asid, ofs / pageSize level * pageSize level, level, e, at_⟩, [])
    else if tableBad level size e then (.error 0x13, [])
    else
      let r := walkFrom s die asid ofs (fld e 8 44 * 2 ^ 8) rest
      (r.1, ⟨asid, level, base, e⟩ :: r.2)

/-- The walk of an ASID's tables on a die (R21, R25, R29), with the non-leaf entries that it used. -/
def walk (s : State) (die : Nat) (asid : BitVec 16) (ofs : Nat) : Except Nat Leaf × List WalkEnt :=
  let b := s.reg (mtuReg die 0)
  if !b.getLsbD 0 then (.error 0x11, [])
  else
    let e := s.walkEntry die asid 0 0 (fld b 19 33 * 2 ^ 19 + 8 * asid.toNat)
    if !e.getLsbD 0 then (.error 0x11, [])
    else if fld e 1 18 ≠ 0 ∨ fld e 52 12 ≠ 0 then (.error 0x13, [])
    else
      let r := walkFrom s die asid ofs (fld e 19 33 * 2 ^ 19) walkLevels
      (r.1, ⟨asid, 0, 0, e⟩ :: r.2)

/-- The walk caches with the entries of a walk (R27). -/
def Mtu.cacheWalk (m : Mtu) (es : List WalkEnt) : Mtu :=
  { m with walkCache := es ++ m.walkCache.filter fun c =>
      !es.any fun e => e.asid = c.asid && e.level = c.level && e.base = c.base }

/-- The leaf cache with one more leaf (R27): 4,096 sets of 16 ways; which set a leaf goes to, and which way of a full set
makes room, is open (log 10). -/
def Mtu.cacheLeaf (m : Mtu) (l : Leaf) : Mtu :=
  if m.tlb.length < 16 then { m with tlb := l :: m.tlb }
  else
    let set (x : Leaf) : Nat := Config.tlbSet x.asid x.base x.level % 4096
    let ways := m.tlb.filter fun x => set x = set l
    match if ways.length < 16 then none else ways[Config.tlbWay m.walks.toNat % 16]? with
    | some x => { m with tlb := l :: m.tlb.erase x }
    | none => { m with tlb := l :: m.tlb }

/-- Whether a leaf maps an offset of an ASID. -/
def Leaf.maps (l : Leaf) (asid : BitVec 16) (ofs : Nat) : Bool :=
  l.asid = asid && decide (l.base ≤ ofs) && decide (ofs < l.base + pageSize l.level)

/-- The permissions an access needs (R25): 0 read, 1 write, 2 atomic, 3 fetch. -/
def leafPermits (e : BitVec 64) (access : Nat) : Bool :=
  match access with
  | 0 => e.getLsbD 2
  | 1 => e.getLsbD 3
  | 2 => e.getLsbD 2 && e.getLsbD 3
  | _ => e.getLsbD 4

/-- The place of an offset under a leaf (R23). -/
def Leaf.place (l : Leaf) (die ofs : Nat) : Nat :=
  physKey (fld l.entry 8 2) die (fld l.entry 16 36 * 2 ^ 16 + (ofs - l.base))

/-- The leaf with the marks of an access (R26): AC, and DT for a write or an atomic. -/
def leafMarked (e : BitVec 64) (access : Nat) : BitVec 64 :=
  e ||| 0x20 ||| if access = 1 ∨ access = 2 then 0x40 else 0

/-- The leaf an MTU finds: its cached one, else the walk's, which it then caches with the non-leaf entries of the walk
(R27). -/
def State.leaf (s : State) (die : Nat) (asid : BitVec 16) (ofs : Nat) : State × Except Nat Leaf :=
  let m := s.mtu die
  match m.tlb.find? fun l => l.maps asid ofs with
  | some l => (s, .ok l)
  | none =>
    let r := walk s die asid ofs
    let m := { m.cacheWalk r.2 with walks := m.walks + 1 }
    match r.1 with
    | .ok l => (s.setMtu die (m.cacheLeaf l), .ok l)
    | .error c => (s.setMtu die m, .error c)

/-- Mark a leaf for an access by a compare-and-set against the value the walk read (R26). -/
def State.markLeaf (s : State) (die : Nat) (l : Leaf) (access : Nat) : State :=
  let e := leafMarked l.entry access
  if e = l.entry then s
  else
    let k := physKey 0 die l.at_
    if s.read64 k = l.entry then
      let m := s.mtu die
      (s.write64 k e).setMtu die
        { m with tlb := m.tlb.map fun t => if t = l then { l with entry := e } else t }
    else s

/-- Translate an access of an ASID to an offset of a die's space (R21 to R26): the place it reaches, with the leaf
marked, the line filled and, of a page with CF, its ASID noted (R464), or the CAUSE of its fate. -/
def State.translate (s : State) (die : Nat) (asid : BitVec 16) (ofs access : Nat) : State × Except Nat Nat :=
  if !(s.reg (mtuReg die 0)).getLsbD 0 then (s, .error 0x11)
  else
    match s.leaf die asid ofs with
    | (s, .error c) => (s, .error c)
    | (s, .ok l) =>
      if leafPermits l.entry access then
        let q := l.place die ofs / 64
        let s := (s.markLeaf die l access).fillLine asid (l.entry.getLsbD 7) q
        ({ s with cfLines := if l.entry.getLsbD 7 then Tab.put s.cfLines q asid else Tab.drop s.cfLines q },
          .ok (l.place die ofs))
      else (s, .error 0x12)

/-- Whether an offset is resident, without any mark (R36). -/
def State.residency (s : State) (die : Nat) (asid : BitVec 16) (ofs : Nat) : State × Option Nat :=
  if !(s.reg (mtuReg die 0)).getLsbD 0 then (s, some 0x11)
  else
    match s.leaf die asid ofs with
    | (s, .error c) => (s, some c)
    | (s, .ok _) => (s, none)

/-- What the fetch of the words at a PC gives: an instruction, a breach (DETAIL and the word named), a fate with its
address, or the need to wait for a fabric answer. -/
inductive Fetched where
  | ok (i : Instr) (ws : List Word)
  | illegal (detail : Nat) (ws : List Word)
  | lent (place : Nat)
  | fate (cause die : Nat) (va : BitVec 64)
  | fabric (va : BitVec 64) (ws : List Word)
  deriving DecidableEq, Repr

end Sys2Proof.Machine
end

