-- ==== Sys2Proof/Machine/Fetch.lean ====
section
/-!
DEFINITION. Instruction fetch (R281, R282): the words at a group's PC, read through the owning MTU with ACCESS 3 until
they decode or break a check.
-/
namespace Sys2Proof.Machine

/-- The place of one instruction word of an ASID at a package-local address (R281). -/
def State.fetchWord (s : State) (asid : BitVec 16) (va : BitVec 64) : State × Except Nat Nat :=
  s.translate (vaDie va) asid (vaOfs va) 3

/-- Fetch words until they decode (R280, R282): `have_` are those read so far, `fuel` how many more may be read. -/
def State.fetchFrom (s : State) (asid : BitVec 16) (pc : BitVec 64) : Nat → List Word → State × Fetched
  | 0, ws => (s, .illegal 0 ws)
  | fuel + 1, ws =>
    match decode ws with
    | .ok i _ => (s, .ok i ws)
    | .illegal d => (s, .illegal d ws)
    | .short =>
      let va := pc + BitVec.ofNat 64 (4 * ws.length)
      if !addrOk va then (s, .fate 0x10 2 va)
      else if isFabric va then (s, .fabric va ws)
      else
        match s.fetchWord asid va with
        | (s, .ok k) =>
          if (s.lentAt k).isEmpty then State.fetchFrom s asid pc fuel (ws ++ [BitVec.ofNat 32 (s.readLE k 4)]) else (s, .lent k)
        | (s, .error c) => (s, .fate c (vaDie va) va)

/-- The words a group has buffered for its PC. -/
def Group.buffered (g : Group) : List Word :=
  match g.ibuf with
  | some (pc, ws) => if pc = g.pc then ws else []
  | none => []

/-- Fetch the instruction at a group's PC, starting from its buffer. -/
def State.fetch (s : State) (g : Group) : State × Fetched := s.fetchFrom g.asid g.pc 6 g.buffered

/-- The lanes that the record of an illegal instruction names (R229): those its guard makes active when the main word was
read and names an instruction that acts on lanes, and else none (log 19). -/
def illegalLanes (g : Group) (ws : List Word) : BitVec 64 :=
  let w := ws.getLastD 0
  let x : Pfx := { Pfx.none with mod := (ws.dropLast.find? fun p => p.extractLsb' 24 8 = 0xF0#8).map Mod.ofPayload }
  let c := Code.ofWord x w
  if (Instr.ofMain x w).isSome && actsOnLanes c.major.toNat c.fnNat then g.active x else 0

/-- The word that DETAIL names among the words of an illegal instruction (R229, R291). -/
def illegalWord (d : Nat) (ws : List Word) : Word := if d = 0 then ws.getLastD 0 else (ws[d - 1]?).getD 0

/-- Stop a group precisely for what its fetch met (R281, R291): an illegal word names itself, a translation fate its
address with ACCESS 3; a line that a switch holds is recalled, and the group waits (R166), in the instruction where it
waited already (R446). -/
def State.fetchStop (s : State) (g : Group) (f : Fetched) : State :=
  match f with
  | .illegal d ws => s.stopPrecise g (dieOf g.core) 0x01 (BitVec.ofNat 32 d ++ illegalWord d ws) (illegalLanes g ws) 0
  | .fate c die va => s.stopPrecise g (if die = 2 then dieOf g.core else die) c va 0 3
  | .lent k => (s.recallLine (k / 64)).waitGroup { g with onEmpty := false } g.waitsIn
  | _ => s

end Sys2Proof.Machine
end

