-- ==== Sys2Proof/Machine/Flags.lean ====
section
/-!
DEFINITION. The sticky exception bits of FLAGS (R233): what every computation answers beside its value, and what
`Group.raise` sets; each flag's own rule is with the arithmetic that can set it (R255, R264 to R269).
-/
namespace Sys2Proof.Machine

/-- The sticky exception bits of FLAGS, bits 6 to 0 (R233). -/
abbrev Exc := BitVec 7

/-- Invalid operation (R233). -/
def Exc.nv : Exc := 1
/-- Floating divide by zero (R233). -/
def Exc.dz : Exc := 2
/-- Overflow (R233). -/
def Exc.of : Exc := 4
/-- Underflow (R233). -/
def Exc.uf : Exc := 8
/-- Inexact (R233). -/
def Exc.nx : Exc := 16
/-- Integer overflow (R233). -/
def Exc.iov : Exc := 32
/-- Integer divide by zero (R233). -/
def Exc.idz : Exc := 64

end Sys2Proof.Machine
end

