-- ==== Sys2Proof/Machine/Num.lean ====
section
/-!
DEFINITION. Number formats and arithmetic (R254 to R269, R276, R277): exact values, rounding, overflow, conversions and
the two linear congruential generators.  Every function here is evaluated on numerals by the kernel.
-/
namespace Sys2Proof.Machine

/-- Which special encodings a floating format has (R256). -/
inductive Specials where
  | ieee | e4m3 | finite
  deriving DecidableEq, Repr

/-- A floating format (R256): exponent bits, fraction bits, bias and specials. -/
structure Fmt where
  eb : Nat
  mb : Nat
  bias : Nat
  sp : Specials
  deriving DecidableEq, Repr

/-- F32 (R256). -/
def Fmt.f32 : Fmt := ⟨8, 23, 127, .ieee⟩
/-- F16 (R256). -/
def Fmt.f16 : Fmt := ⟨5, 10, 15, .ieee⟩
/-- BF16 (R256). -/
def Fmt.bf16 : Fmt := ⟨8, 7, 127, .ieee⟩
/-- E5M2 (R256). -/
def Fmt.e5m2 : Fmt := ⟨5, 2, 15, .ieee⟩
/-- E4M3 (R256). -/
def Fmt.e4m3 : Fmt := ⟨4, 3, 7, .e4m3⟩
/-- E3M2 (R256). -/
def Fmt.e3m2 : Fmt := ⟨3, 2, 3, .finite⟩
/-- E2M3 (R256). -/
def Fmt.e2m3 : Fmt := ⟨2, 3, 1, .finite⟩
/-- E2M1 (R256). -/
def Fmt.e2m1 : Fmt := ⟨2, 1, 1, .finite⟩

/-- What a type code names (R254). -/
inductive Ty where
  | int (bits : Nat) (signed : Bool)
  | flt (f : Fmt)
  | scale
  | mxi8
  deriving DecidableEq, Repr

/-- The format of a type code (R254); codes 0 and 19 to 31 name none. -/
def Ty.ofCode : Nat → Option Ty
  | 1 => some (.int 8 true) | 2 => some (.int 8 false) | 3 => some (.int 16 true) | 4 => some (.int 16 false)
  | 5 => some (.int 32 true) | 6 => some (.int 32 false) | 7 => some (.int 64 true) | 8 => some (.int 64 false)
  | 9 => some (.flt .f16) | 10 => some (.flt .bf16) | 11 => some (.flt .f32) | 12 => some (.flt .e4m3)
  | 13 => some (.flt .e5m2) | 14 => some (.flt .e3m2) | 15 => some (.flt .e2m3) | 16 => some (.flt .e2m1)
  | 17 => some .scale | 18 => some .mxi8
  | _ => none

/-- The width of a floating format in bits. -/
def Fmt.bits (f : Fmt) : Nat := f.eb + f.mb + 1

/-- The width of a format in bits (R254). -/
def Ty.bits : Ty → Nat
  | .int n _ => n
  | .flt f => f.bits
  | .scale => 8
  | .mxi8 => 8

/-- The value of a floating encoding: a NaN (signalling or quiet), an infinity, or (-1)^neg * m * 2^e. -/
inductive Fl where
  | nan (signalling : Bool)
  | inf (neg : Bool)
  | fin (neg : Bool) (m : Nat) (e : Int)
  deriving DecidableEq, Repr

/-- The number of significant bits of a number. -/
def bitLen (n : Nat) : Nat := if n = 0 then 0 else n.log2 + 1

/-- The exponent of the least normal value. -/
def Fmt.emin (f : Fmt) : Int := 1 - (f.bias : Int)

/-- The greatest finite encoding without its sign (R256). -/
def Fmt.maxFinite (f : Fmt) : Nat :=
  match f.sp with
  | .ieee => (2 ^ f.eb - 1) * 2 ^ f.mb - 1
  | .e4m3 => 2 ^ (f.eb + f.mb) - 2
  | .finite => 2 ^ (f.eb + f.mb) - 1

/-- The exponent of the greatest finite value (R262, R271). -/
def Fmt.emax (f : Fmt) : Int := ((f.maxFinite / 2 ^ f.mb : Nat) : Int) - f.bias

/-- The canonical NaN (R257); the formats without one deliver +0 (R268). -/
def Fmt.qnan (f : Fmt) : Nat :=
  match f.sp with
  | .ieee => (2 ^ f.eb - 1) * 2 ^ f.mb + 2 ^ (f.mb - 1)
  | .e4m3 => 2 ^ (f.eb + f.mb) - 1
  | .finite => 0

/-- A magnitude with its sign bit. -/
def Fmt.signed (f : Fmt) (neg : Bool) (mag : Nat) : Nat := if neg then 2 ^ (f.eb + f.mb) + mag else mag

/-- The encoding of infinity where the format has one (R256), the largest finite value otherwise. -/
def Fmt.infinity (f : Fmt) (neg : Bool) : Nat :=
  match f.sp with
  | .ieee => f.signed neg ((2 ^ f.eb - 1) * 2 ^ f.mb)
  | _ => f.signed neg f.maxFinite

/-- The value an encoding stands for (R256, R257). -/
def Fmt.decode (f : Fmt) (w : Nat) : Fl :=
  let neg := w / 2 ^ (f.eb + f.mb) % 2 = 1
  let mag := w % 2 ^ (f.eb + f.mb)
  let ex := mag / 2 ^ f.mb
  let fr := mag % 2 ^ f.mb
  if mag > f.maxFinite then
    match f.sp with
    | .ieee =>
      if fr = 0 then .inf neg
      else .nan (decide (f.mb ≠ 2) && decide (fr < 2 ^ (f.mb - 1)))
    | _ => .nan false
  else if ex = 0 then .fin neg fr (f.emin - f.mb)
  else .fin neg (2 ^ f.mb + fr) (f.emin - f.mb + ((ex - 1 : Nat) : Int))

/-- How an instruction rounds: the code of R261, the draw of R262, saturation (R264, R268) and flushing (R265). -/
structure Rnd where
  mode : Nat
  draw : Nat
  sat : Bool
  ftz : Bool
  deriving DecidableEq, Repr

/-- Round to nearest even, no saturation, no flushing. -/
def Rnd.rne : Rnd := ⟨0, 0, false, false⟩

/-- Whether rounding m / 2^sh (plus something positive and smaller than the last bit when `sticky`) goes up from its
floor (R261, R262). -/
def roundsUp (r : Rnd) (neg : Bool) (m sh : Nat) (sticky : Bool) : Bool :=
  let q := m >>> sh
  let rem := m - (q <<< sh)
  let inexact := rem != 0 || sticky
  let half := 2 ^ sh
  match r.mode with
  | 0 => decide (2 * rem > half) || (decide (2 * rem = half) && (sticky || q % 2 = 1))
  | 1 => false
  | 2 => neg && inexact
  | 3 => !neg && inexact
  | 4 => decide (2 * rem ≥ half)
  | _ => inexact && decide (r.draw < (rem <<< 16) >>> sh)

/-- m * 2^e as a whole number of units 2^q: the floor, its shift and whether bits were lost. -/
def scaleTo (m : Nat) (e q : Int) : Nat × Nat :=
  if e ≥ q then (m <<< (e - q).toNat, 0) else (m, (q - e).toNat)

/-- What a finite overflow delivers (R264, R268). -/
def Fmt.overflow (f : Fmt) (r : Rnd) (neg : Bool) : Nat :=
  let largest := f.signed neg f.maxFinite
  if r.sat then largest
  else match f.sp with
    | .ieee =>
      match r.mode with
      | 1 => largest
      | 2 => if neg then f.infinity true else largest
      | 3 => if neg then largest else f.infinity false
      | _ => f.infinity neg
    | .e4m3 => f.qnan
    | .finite => largest

/-- The exact value (-1)^neg * (m + sticky) * 2^e rounded into a format, with the flags it sets (R261 to R265).  A
`sticky` value needs m to hold at least 17 bits more than the format's precision. -/
def Fmt.round (f : Fmt) (r : Rnd) (neg : Bool) (m : Nat) (e : Int) (sticky : Bool) : Nat × Exc :=
  if m = 0 then (f.signed neg 0, 0)
  else
    let top : Int := e + bitLen m - 1
    let q0 : Int := top - f.mb
    let qmin : Int := f.emin - f.mb
    let q := max q0 qmin
    let v := scaleTo m e q
    let lowMant := v.1 >>> v.2
    let exact := !sticky && decide ((lowMant <<< v.2) = v.1)
    let lowMag := (q - qmin).toNat * 2 ^ f.mb + lowMant
    -- the stochastic choice above the largest finite value is between it and 2^(emax+1) (R262)
    let beyond := r.mode = 5 && (decide (lowMag > f.maxFinite) || (decide (lowMag = f.maxFinite) && !exact))
    let mag :=
      if beyond then
        let lo := scaleTo (2 ^ f.mb + f.maxFinite % 2 ^ f.mb) (f.emax - f.mb) e
        let hi := scaleTo 1 (f.emax + 1) e
        -- in units of 2^e, or of 2^(e - shift) where e is above the quantum
        let k := max lo.2 hi.2
        let vv := m <<< k
        let l := lo.1 <<< (k - lo.2)
        let h := hi.1 <<< (k - hi.2)
        if r.draw < ((vv - l) <<< 16) / (h - l) then f.maxFinite + 1 else f.maxFinite
      else lowMag + if roundsUp r neg v.1 v.2 sticky then 1 else 0
    if mag > f.maxFinite then (f.overflow r neg, Exc.of ||| Exc.nx)
    else if beyond then (f.signed neg mag, Exc.nx)
    else
      let v0 := scaleTo m e q0
      let up0 := roundsUp r neg v0.1 v0.2 sticky
      let tiny :=
        if r.mode = 5 then decide (mag < 2 ^ f.mb)
        else decide (top < f.emin) &&
          !(decide (top = f.emin - 1) && up0 && decide ((v0.1 >>> v0.2) + 1 = 2 ^ (f.mb + 1)))
      if r.ftz && decide (f.bits > 8) && decide (0 < mag) && decide (mag < 2 ^ f.mb) then
        (f.signed neg 0, Exc.uf ||| Exc.nx)
      else if exact then (f.signed neg mag, 0)
      else (f.signed neg mag, if tiny then Exc.uf ||| Exc.nx else Exc.nx)

/-- A subnormal input read under FTZ: zero of its sign (R265). -/
def Fmt.flushIn (f : Fmt) (ftz : Bool) (w : Nat) : Nat :=
  if ftz && decide (f.bits > 8) && decide (w % 2 ^ (f.eb + f.mb) < 2 ^ f.mb) then
    w / 2 ^ (f.eb + f.mb) * 2 ^ (f.eb + f.mb)
  else w

/-- A NaN operand's flag: NV when it signals (R266). -/
def Fl.nanExc : Fl → Exc
  | .nan true => Exc.nv
  | _ => 0

/-- A value converted into a format (R268). -/
def Fmt.ofFl (f : Fmt) (r : Rnd) (v : Fl) : Nat × Exc :=
  match v with
  | .nan sig =>
    match f.sp with
    | .finite => (0, Exc.nv)
    | _ => (f.qnan, if sig then Exc.nv else 0)
  | .inf neg =>
    match f.sp with
    | .ieee => (f.infinity neg, 0)
    | .e4m3 => (f.qnan, Exc.nv)
    | .finite => (f.signed neg f.maxFinite, Exc.nv)
  | .fin neg m e => f.round r neg m e false

/-- The exact sum of two finite values as a signed whole number of units 2^e. -/
def addExact (n1 : Bool) (m1 : Nat) (e1 : Int) (n2 : Bool) (m2 : Nat) (e2 : Int) : Int × Int :=
  let e := min e1 e2
  let a : Int := m1 <<< (e1 - e).toNat
  let b : Int := m2 <<< (e2 - e).toNat
  ((if n1 then -a else a) + (if n2 then -b else b), e)

/-- The sign of an exact zero sum: the common sign, else a free choice (log 14). -/
def zeroSumNeg (r : Rnd) (n1 : Bool) (m1 : Nat) (e1 : Int) (n2 : Bool) : Bool :=
  if n1 = n2 then n1 else Config.zeroSumNeg r.mode n1 m1 e1

/-- A signed exact value rounded into a format; `zneg` is the sign of an exact zero. -/
def Fmt.roundInt (f : Fmt) (r : Rnd) (zneg : Bool) (v : Int) (e : Int) : Nat × Exc :=
  if v = 0 then (f.signed zneg 0, 0) else f.round r (decide (v < 0)) v.natAbs e false

/-- x + y (R322): IEEE 754 addition with the canonical NaN. -/
def Fmt.add (f : Fmt) (r : Rnd) (x y : Fl) : Nat × Exc :=
  match x, y with
  | .nan a, y => (f.qnan, (if a then Exc.nv else 0) ||| y.nanExc)
  | x, .nan b => (f.qnan, (if b then Exc.nv else 0) ||| x.nanExc)
  | .inf a, .inf b => if a = b then (f.infinity a, 0) else (f.qnan, Exc.nv)
  | .inf a, .fin .. => (f.infinity a, 0)
  | .fin .., .inf b => (f.infinity b, 0)
  | .fin n1 m1 e1, .fin n2 m2 e2 =>
    let v := addExact n1 m1 e1 n2 m2 e2
    f.roundInt r (zeroSumNeg r n1 m1 e1 n2) v.1 v.2

/-- A value with its sign inverted; a NaN stays as it is. -/
def Fl.neg : Fl → Fl
  | .nan s => .nan s
  | .inf n => .inf (!n)
  | .fin n m e => .fin (!n) m e

/-- A value with its sign cleared; a NaN stays as it is. -/
def Fl.abs : Fl → Fl
  | .nan s => .nan s
  | .inf _ => .inf false
  | .fin _ m e => .fin false m e

/-- Whether a value is a zero. -/
def Fl.isZero : Fl → Bool
  | .fin _ 0 _ => true
  | _ => false

/-- Whether a value is a NaN. -/
def Fl.isNan : Fl → Bool
  | .nan _ => true
  | _ => false

/-- The sign of a value that is not a NaN. -/
def Fl.sign : Fl → Bool
  | .nan _ => false
  | .inf n => n
  | .fin n _ _ => n

/-- The exact product of two values, with NV for 0 times infinity (R266). -/
def Fl.mul (x y : Fl) : Fl × Exc :=
  match x, y with
  | .nan a, y => (.nan false, (if a then Exc.nv else 0) ||| y.nanExc)
  | x, .nan b => (.nan false, (if b then Exc.nv else 0) ||| x.nanExc)
  | .inf a, .inf b => (.inf (a != b), 0)
  | .inf a, .fin b m _ => if m = 0 then (.nan false, Exc.nv) else (.inf (a != b), 0)
  | .fin a m _, .inf b => if m = 0 then (.nan false, Exc.nv) else (.inf (a != b), 0)
  | .fin a m1 e1, .fin b m2 e2 => (.fin (a != b) (m1 * m2) (e1 + e2), 0)

/-- x * y, rounded once (R322). -/
def Fmt.mul (f : Fmt) (r : Rnd) (x y : Fl) : Nat × Exc :=
  let p := Fl.mul x y
  let v := f.ofFl r p.1
  (v.1, v.2 ||| p.2)

/-- x * y + z, rounded once (R322). -/
def Fmt.fma (f : Fmt) (r : Rnd) (x y z : Fl) : Nat × Exc :=
  let p := Fl.mul x y
  let v := f.add r p.1 z
  (v.1, v.2 ||| p.2)

/-- x / y, rounded once (R267, R326). -/
def Fmt.div (f : Fmt) (r : Rnd) (x y : Fl) : Nat × Exc :=
  match x, y with
  | .nan a, y => (f.qnan, (if a then Exc.nv else 0) ||| y.nanExc)
  | x, .nan b => (f.qnan, (if b then Exc.nv else 0) ||| x.nanExc)
  | .inf _, .inf _ => (f.qnan, Exc.nv)
  | .inf a, .fin b _ _ => (f.infinity (a != b), 0)
  | .fin a _ _, .inf b => (f.signed (a != b) 0, 0)
  | .fin a m1 e1, .fin b m2 e2 =>
    if m2 = 0 then if m1 = 0 then (f.qnan, Exc.nv) else (f.infinity (a != b), Exc.dz)
    else if m1 = 0 then (f.signed (a != b) 0, 0)
    else
      let k := 64 + bitLen m2
      let q := (m1 <<< k) / m2
      f.round r (a != b) q (e1 - e2 - k) (decide (q * m2 ≠ m1 <<< k))

/-- The integer square root by bits, from bit `fuel - 1` of the root down. -/
def isqrtFrom (n : Nat) : Nat → Nat → Nat
  | 0, acc => acc
  | fuel + 1, acc =>
    let t := acc + 2 ^ fuel
    isqrtFrom n fuel (if t * t ≤ n then t else acc)

/-- The integer square root. -/
def isqrt (n : Nat) : Nat := isqrtFrom n (bitLen n / 2 + 1) 0

/-- The square root, rounded once (R267). -/
def Fmt.sqrt (f : Fmt) (r : Rnd) (x : Fl) : Nat × Exc :=
  match x with
  | .nan a => (f.qnan, if a then Exc.nv else 0)
  | .inf n => if n then (f.qnan, Exc.nv) else (f.infinity false, 0)
  | .fin n m e =>
    if m = 0 then (f.signed n 0, 0)
    else if n then (f.qnan, Exc.nv)
    else
      let m2 := if e % 2 = 0 then m <<< 96 else m <<< 97
      let e2 := if e % 2 = 0 then e - 96 else e - 97
      let q := isqrt m2
      f.round r false q (e2 / 2) (decide (q * q ≠ m2))

/-- An exact value rounded to a whole number in a mode, with whether it was inexact (R269). -/
def roundWhole (r : Rnd) (neg : Bool) (m : Nat) (e : Int) : Nat × Bool :=
  let v := scaleTo m e 0
  let q := v.1 >>> v.2
  (q + (if roundsUp r neg v.1 v.2 false then 1 else 0), decide ((q <<< v.2) ≠ v.1))

/-- The bounds of an integer format (R255). -/
def intBounds (bits : Nat) (signed : Bool) : Int × Int :=
  if signed then (-(2 ^ (bits - 1) : Nat), (2 ^ (bits - 1) : Nat) - 1) else (0, (2 ^ bits : Nat) - 1)

/-- An integer's encoding: its residue modulo 2^bits. -/
def encodeInt (bits : Nat) (v : Int) : Nat := (v % (2 ^ bits : Nat)).toNat

/-- The integer an encoding stands for (R255). -/
def decodeInt (bits : Nat) (signed : Bool) (w : Nat) : Int :=
  let u := w % 2 ^ bits
  if signed && decide (2 ^ (bits - 1) ≤ u) then (u : Int) - (2 ^ bits : Nat) else u

/-- R255: an exact integer result into an integer format, wrapped or clamped, with IOV when it is out of range. -/
def clampInt (bits : Nat) (signed sat : Bool) (v : Int) : Nat × Exc :=
  let b := intBounds bits signed
  if v < b.1 then (encodeInt bits (if sat then b.1 else v), Exc.iov)
  else if b.2 < v then (encodeInt bits (if sat then b.2 else v), Exc.iov)
  else (encodeInt bits v, 0)

/-- A value into a clamped whole-number format with bounds (R269): NV for a NaN and for a result beyond the range. -/
def flToBounded (r : Rnd) (lo hi : Int) (shift : Int) (x : Fl) : Int × Exc :=
  match x with
  | .nan _ => (0, Exc.nv)
  | .inf n => (if n then lo else hi, Exc.nv)
  | .fin n m e =>
    let v := roundWhole r n m (e + shift)
    let i : Int := if n then -(v.1 : Int) else v.1
    if i < lo then (lo, Exc.nv) else if hi < i then (hi, Exc.nv) else (i, if v.2 then Exc.nx else 0)

/-- The value of an encoding of a type (R254 to R259), without flushing. -/
def Ty.value (t : Ty) (w : Nat) : Fl :=
  match t with
  | .int b s => let i := decodeInt b s w; .fin (decide (i < 0)) i.natAbs 0
  | .flt f => f.decode w
  | .scale => if w % 256 = 255 then .nan false else .fin false 1 ((w % 256 : Nat) - 127)
  | .mxi8 => let i := decodeInt 8 true w; .fin (decide (i < 0)) i.natAbs (-6)

/-- `convert` (R268, R269): an encoding of one type into another, in a rounding mode. -/
def convert (r : Rnd) (src dst : Ty) (w : Nat) : Nat × Exc :=
  let w := match src with
    | .flt f => f.flushIn r.ftz w
    | _ => w
  match dst with
  | .flt f => f.ofFl r (src.value w)
  | .int b s =>
    match src with
    | .int b' s' => clampInt b s r.sat (decodeInt b' s' w)
    | _ =>
      let bs := intBounds b s
      let v := flToBounded r bs.1 bs.2 0 (src.value w)
      (encodeInt b v.1, v.2)
  | .mxi8 =>
    let v := flToBounded r (-127) 127 6 (src.value w)
    (encodeInt 8 v.1, v.2)
  | .scale => (w % 256, 0)

/-- The multiplier of both generators (R276). -/
def lcgM : BitVec 128 := 0x9E6C63D0876A1F45B2C70A39D4E81B65#128

/-- The increment of the rounding stream (R263). -/
def roundInc : BitVec 128 := 0x6A3D11E50C97B24F2D81F65A93CE4B07#128

/-- The output of a generator state (R263, R276). -/
def lcgOut (st : BitVec 128) : BitVec 64 :=
  ((st.extractLsb' 64 64) ^^^ (st.extractLsb' 0 64)).rotateRight (st.extractLsb' 122 6).toNat

/-- One step of a generator with increment C (R276). -/
def lcgNext (c st : BitVec 128) : BitVec 128 := st * lcgM + c

/-- The advance of R277: `fuel` bits of n from bit i on. -/
def lcgJumpFrom (n : BitVec 128) : Nat → Nat → BitVec 128 → BitVec 128 → BitVec 128 → BitVec 128 →
    BitVec 128 × BitVec 128
  | 0, _, am, ac, _, _ => (am, ac)
  | fuel + 1, i, am, ac, cm, cc =>
    let am' := if n.getLsbD i then am * cm else am
    let ac' := if n.getLsbD i then ac * cm + cc else ac
    lcgJumpFrom n fuel (i + 1) am' ac' (cm * cm) ((cm + 1) * cc)

/-- A state advanced by n draws (R277). -/
def lcgJump (c n st : BitVec 128) : BitVec 128 :=
  let a := lcgJumpFrom n 128 0 1 0 lcgM c
  a.1 * st + a.2

/-- The rounding stream after a draw, and the draw (R263). -/
def roundDraw (st : BitVec 128) : Nat × BitVec 128 :=
  let st' := lcgNext roundInc st
  (((lcgOut st').extractLsb' 0 16).toNat, st')

end Sys2Proof.Machine
end

