-- ==== Sys2Proof/Machine/Operands.lean ====
section
/-!
DEFINITION. Operand forms: the wait-or-trap rule of R193 and R194 as one gate over the elements an instruction reads
and writes, poison uses (R236, R472), elements of every width in lane words (R303), and the immediates (R286).
-/
namespace Sys2Proof.Machine

/-- Elements an instruction reads or writes: n v registers from window name k over a mask of lanes, n scalar
registers from k, or a predicate register. -/
inductive Opd where
  | v (k n : Nat) (lanes : BitVec 64)
  | s (k n : Nat)
  | p (k : Nat)
  deriving DecidableEq, Repr

/-- The lanes of a mask whose word of register k is empty. -/
def Group.emptyLanes (g : Group) (k : Nat) (lanes : BitVec 64) : List Nat :=
  (lanesOf g.width lanes).filter fun l => !(g.vel k l).full

/-- A list of lanes as a mask. -/
def maskOf (ls : List Nat) : BitVec 64 := ls.foldl (fun m l => m ||| (1#64 <<< l)) 0

/-- Whether every element of an operand is full (R191). -/
def Opd.isFull (o : Opd) (g : Group) : Bool :=
  match o with
  | .v k n lanes => (List.range n).all fun i => (g.emptyLanes (k + i) lanes).isEmpty
  | .s k n => (List.range n).all fun i => (g.sel (k + i)).full
  | .p k => (g.pel k).full

/-- The read-of-empty fate of an operand (R193, R229): class and number of the first empty register, and its empty
lanes; `act` is the mask of a lane instruction's active lanes, 0 for a scalar one.  DESIGN CHOICE (log 66): the number of a
register past v127, which a step of a REP reaches, takes the bits above DETAIL[41:35] too. -/
def Opd.trap (o : Opd) (g : Group) (act : BitVec 64) : Halt :=
  match o with
  | .v k n lanes =>
    let i := ((List.range n).find? fun i => !(g.emptyLanes (k + i) lanes).isEmpty).getD 0
    .fate 0x41 ((k + i) * 8) (maskOf (g.emptyLanes (k + i) lanes))
  | .s k n =>
    let i := ((List.range n).find? fun i => !(g.sel (k + i)).full).getD 0
    .fate 0x41 (1 + (k + i) * 8) act
  | .p k => .fate 0x41 (2 + k * 8) act

/-- The first operand, in order, that traps. -/
def firstTrap (g : Group) (act : BitVec 64) : List (Opd × Bool) → Option Halt
  | [] => none
  | (o, t) :: os => if t && !o.isFull g then some (o.trap g act) else firstTrap g act os

/-- The wait-or-trap gate of an instruction (R193, R194): a guard that is empty waits; then a source whose bit is 1 and
which holds an empty element traps (DESIGN CHOICE, log 6: before any wait of another source); then the other sources,
and the destinations, wait. -/
def gate (g : Group) (x : Pfx) (lane : Bool) (srcs : List (Opd × Bool)) (dsts : List Opd) : Run Unit :=
  if !(g.pel x.m.pred.toNat).full then .error .waitEmpty
  else
    match firstTrap g (if lane then g.active x else 0) srcs with
    | some h => .error h
    | none =>
      if (srcs.all fun o => o.1.isFull g) && (dsts.all fun o => o.isFull g) then .ok () else .error .waitEmpty

/-- The poison-use fate with its DETAIL (R229). -/
def poisonUse (detail : Nat) (mask : BitVec 64) : Halt := .fate 0x05 detail mask

/-- Whether some of n scalar registers from k is poisoned. -/
def Group.spois (g : Group) (k n : Nat) : Bool := (List.range n).any fun i => (g.sel (k + i)).pois

/-- Whether a scalar operand is full, not poisoned, and at or above a limit (R231, R339). -/
def Group.over (g : Group) (k n : Nat) : Bool :=
  (g.sel k).full && !(g.sel k).pois && decide (n ≤ (g.sv k).toNat)

/-- The lanes of a mask with a poisoned word among n registers from k. -/
def Group.vpoisLanes (g : Group) (k n : Nat) (lanes : BitVec 64) : BitVec 64 :=
  maskOf ((lanesOf g.width lanes).filter fun l => (List.range n).any fun i => (g.vel (k + i) l).pois)

/-- The poison of a lane's element of n words. -/
def Group.vpois (g : Group) (k n lane : Nat) : Bool := (List.range n).any fun i => (g.vel (k + i) lane).pois

/-- A 64-bit element of a register pair (R303). -/
def Group.v64 (g : Group) (k lane : Nat) : BitVec 64 := (g.vel (k + 1) lane).val ++ (g.vel k lane).val

/-- The element of a lane for a type code, as an unsigned number: the pair for a 64-bit code, else the lane word's low
bits (R303). -/
def Group.velem (g : Group) (k lane type bits : Nat) : Nat :=
  if is64 type then (g.v64 k lane).toNat else (g.vel k lane).val.toNat % 2 ^ bits

/-- Write an element as R303 says: both words of a pair; a narrow result zero-extended, S8 and S16 sign-extended. -/
def Group.writeElem (g : Group) (k lane type : Nat) (x : Nat) (pz : Bool) : Group :=
  if is64 type then (g.writeV k lane (BitVec.ofNat 32 x) pz).writeV (k + 1) lane (BitVec.ofNat 32 (x / 2 ^ 32)) pz
  else
    let w : Word := match type with
      | 1 => (BitVec.ofNat 8 x).signExtend 32
      | 3 => (BitVec.ofNat 16 x).signExtend 32
      | _ => BitVec.ofNat 32 x
    g.writeV k lane w pz

/-- Fold an instruction's lanes into its group in ascending logical lane order (R301). -/
def Group.eachLane (g : Group) (lanes : BitVec 64) (f : Group → Nat → Group) : Group :=
  (lanesOf g.width lanes).foldl f g

/-- The immediate of a main field of n bits under an optional EXT (R286), sign-extended. -/
def immSigned {n : Nat} (e : Option (BitVec 24)) (f : BitVec n) : BitVec 64 :=
  match e with
  | some x => (x ++ f).signExtend 64
  | none => f.signExtend 64

/-- The immediate of a main field under an optional EXT (R286), zero-extended. -/
def immUnsigned {n : Nat} (e : Option (BitVec 24)) (f : BitVec n) : BitVec 64 :=
  match e with
  | some x => (x ++ f).zeroExtend 64
  | none => f.zeroExtend 64

/-- The number a bit vector shows in two's complement (R301). -/
def signed {n : Nat} (x : BitVec n) : Int := x.toInt

end Sys2Proof.Machine
end

