-- ==== Sys2Proof/Machine/Control.lean ====
section
/-!
DEFINITION. Control flow, the register window and block, and the state registers: majors 0x01 to 0x06 (R304, R305, R307
to R312, R189, R235), less EXIT.
-/
namespace Sys2Proof.Machine

/-- Whether a program-earlier instruction of a group that can set FLAGS has not filled (R235): special functions,
matrix loops and drains. -/
def State.flagsPending (s : State) (g : Group) : Bool :=
  (s.sfuops.any fun e => e.2.core = g.core && e.2.slot = g.slot) ||
    (s.matops.any fun e => e.2.core = g.core && e.2.slot = g.slot && decide (e.2.op ≤ 7))

/-- NOP (R304): nothing. -/
def execNop (s : State) : Host.Outcome State Fault Refusal := issueG .nop (fun g => .ok g) s

/-- The oldest of some groups (R214): ties go to the lower slot. -/
def oldestOf (gs : List Group) : Option Group :=
  gs.foldl (fun (b : Option Group) g =>
    match b with
    | some h => if g.startedAt < h.startedAt then some g else some h
    | none => some g) none

/-- Whether groups of these widths may share a vector slot (R179): their lanes fit, and a group of 32 lanes shares it with
one of 16 at most. -/
def packs (ws : List Nat) : Bool := decide (ws.sum ≤ 64) && (!ws.contains 32 || decide (ws.count 16 ≤ 1))

/-- The issue resources of a core that last issued from a slot turn to another slot (R304): on a vector slot the other takes
its place in the pack, or the whole slot where it does not pack with the rest. -/
def State.turnTo (s : State) (core slot other : Nat) : State :=
  let turned (l : List Nat) : List Nat :=
    let l := l.filter (fun k => k ≠ slot && k ≠ other) ++ [other]
    if packs ((l.filterMap fun k => s.group core k).map Group.width) then l else [other]
  { s with lastOn := s.lastOn.map fun (e : Nat × List Nat) =>
      if e.1 / 8 = core ∧ e.2.contains slot then (e.1, turned e.2) else e }

/-- YIELD (R304): no effect to state but that, in normal service, the issue resources that last issued from the group turn
to the oldest other ready group of its core. -/
def execYield (s : State) : Host.Outcome State Fault Refusal :=
  match issueG .yield (fun g => .ok g) s, s.cur with
  | .next t, some (c, k) =>
    if (s.reg 0x3000).getLsbD 0 then .next t
    else
      match oldestOf ((Tab.vals t.groups).filter fun g => g.core = c && g.slot != k && g.canIssue && !g.waiting) with
      | some o => .next (t.turnTo c k o.slot)
      | none => .next t
  | o, _ => o

/-- TRAPFENCE (R235): wait for the earlier flag setters; an enabled FLAGS bit is cleared and stops the group after the
instruction with cause 0x04. -/
def execTrapfence (s : State) : Host.Outcome State Fault Refusal :=
  issueWith .trapfence noLimit (fun s g =>
    if s.flagsPending g then hold
    else
      let hit := g.flags &&& g.trapen &&& 0x7F
      if hit = 0 then .ok { s := s, g := g }
      else .ok { s := s, g := { g with flags := g.flags &&& ~~~hit }, after := some (0x04, hit.toNat) }) s

/-- BKPT (R305): stop after the instruction with cause 0x02. -/
def execBkpt (r : RRR) (s : State) : Host.Outcome State Fault Refusal :=
  issueWith (.bkpt r) noLimit (fun s g => .ok { s := s, g := g, after := some (0x02, 0) }) s

/-- TRAP (R305): stop after the instruction with cause 0x03. -/
def execTrap (r : RRR) (s : State) : Host.Outcome State Fault Refusal :=
  issueWith (.trap r) noLimit (fun s g => .ok { s := s, g := g, after := some (0x03, 0) }) s

/-- PMARK (R305, R446 TYPE 1): a marker record with n while tracing is on. -/
def execPmark (r : RRR) (s : State) : Host.Outcome State Fault Refusal :=
  issueS (.pmark r) noLimit (fun s g => .ok (s.trace g 0 1 g.pc g.seqNo (r.a.toNat * 128 + r.b.toNat), g)) s

/-- TSTAMP (R305): the time-stamp at issue. -/
def execTstamp (r : RRR) (s : State) : Host.Outcome State Fault Refusal :=
  issueS (.tstamp r) noLimit (fun s g => do
    gate g Pfx.none false [] [.s r.d.toNat 1]
    return (s, g.writeS r.d.toNat s.now false)) s

/-- A branch target: PC plus four times a signed word offset (R280). -/
def branchTo (pc off : BitVec 64) : BitVec 64 := pc + (off <<< 2)

/-- The address after the main word of an instruction with an optional EXT (R307). -/
def afterExt (pc : BitVec 64) (e : Option (BitVec 24)) : BitVec 64 := pc + if e.isSome then 8 else 4

/-- BRA (R307). -/
def execBra (e : Option (BitVec 24)) (r : BitVec 26) (s : State) : Host.Outcome State Fault Refusal :=
  issueJ (.bra e r) (fun g => .ok (g, some (branchTo g.pc (immSigned e r)))) s

/-- CALL (R307): the link goes to s127, which waits while empty (R194). -/
def execCall (e : Option (BitVec 24)) (r : BitVec 26) (s : State) : Host.Outcome State Fault Refusal :=
  issueJ (.call e r) (fun g => do
    gate g Pfx.none false [] [.s 127 1]
    return (g.writeS 127 (afterExt g.pc e) false, some (branchTo g.pc (immSigned e r)))) s

/-- The condition of BCC on a scalar (R293). -/
def bccScalar (cc : Nat) (v : Int) : Bool :=
  match cc with
  | 0 => v = 0
  | 1 => v ≠ 0
  | 2 => v < 0
  | 3 => 0 ≤ v
  | 4 => 0 < v
  | _ => v ≤ 0

/-- BCC (R293, R307): a signed test of a scalar, or of the tile of lane 0 of a predicate; a poisoned scalar is a poison
use. -/
def execBcc (e : Option (BitVec 24)) (r : BR) (s : State) : Host.Outcome State Fault Refusal :=
  issueJ (.bcc e r) (fun g => do
    let a := r.a.toNat
    if r.cc.toNat < 6 then
      gate g Pfx.none false [(.s a 1, false)] []
      need (!g.spois a 1) (poisonUse 0 0)
      return (g, if bccScalar r.cc.toNat (g.sv a).toInt then some (branchTo g.pc (immSigned e r.off)) else none)
    else
      gate g Pfx.none false [(.p a, false)] []
      let any := (g.pel a).bits.toNat % 2 ^ g.tileSize ≠ 0
      return (g, if (r.cc = 6) = any then some (branchTo g.pc (immSigned e r.off)) else none)) s

/-- LOOP (R308): leave when the count is zero, else count down and go on. -/
def execLoop (e : Option (BitVec 24)) (r : BR) (s : State) : Host.Outcome State Fault Refusal :=
  issueJ (.loop e r) (fun g => do
    let a := r.a.toNat
    gate g Pfx.none false [(.s a 1, false)] []
    need (!g.spois a 1) (poisonUse 0 0)
    if g.sv a = 0 then return (g, some (branchTo g.pc (immSigned e r.off)))
    else return (g.writeS a (g.sv a - 1) false, none)) s

/-- The checks of a register jump target (R309): poison, then bits [1:0] and [63:57] (log 19). -/
def jumpTarget (t : BitVec 64) (pz : Bool) : Run Unit := do
  need (!pz) (poisonUse 0 0)
  need (t.toNat % 4 = 0 && t.toNat < 2 ^ 57) (.fateAt 0x10 t 0 3)

/-- JR (R309): jump to S(a), the return address to S(d). -/
def execJr (r : RRR) (s : State) : Host.Outcome State Fault Refusal :=
  issueJ (.jr r) (fun g => do
    let a := r.a.toNat
    gate g Pfx.none false [(.s a 1, r.wa)] [.s r.d.toNat 1]
    jumpTarget (g.sv a) (g.spois a 1)
    return (g.writeS r.d.toNat (g.pc + 4) false, some (g.sv a))) s

/-- RET (R309): jump to s127. -/
def execRet (s : State) : Host.Outcome State Fault Refusal :=
  issueJ .ret (fun g => do
    gate g Pfx.none false [(.s 127 1, false)] []
    jumpTarget (g.sv 127) (g.spois 127 1)
    return (g, some (g.sv 127))) s

/-- Set the register window (R188, R310): a base at or past the block has the register-window fate; the staging buffer
empties. -/
def setWindow (g : Group) (v : BitVec 64) : Run Group := do
  need (v.toNat < g.blockSize) (.fate 0x42 0 0)
  return { g with wbase := v, staged := [] }

/-- WBASE (R310). -/
def execWbase (r : RRR) (s : State) : Host.Outcome State Fault Refusal :=
  issueG (.wbase r) (fun g => setWindow g (BitVec.ofNat 64 (r.b.toNat * 32))) s

/-- The granules a block takes (R188). -/
def Group.granules (g : Group) : Nat := g.blockSize * g.width / 512

/-- The groups of a core, in slot order. -/
def State.groupsOf (s : State) (core : Nat) : List Group :=
  (s.groups.filter fun e => e.2.core = core).map (·.2)

/-- The free register granules of a core (R188, R208). -/
def State.freeGranules (s : State) (core : Nat) : Nat :=
  256 - ((s.groupsOf core).map Group.granules).sum

/-! ### The buddy allocator and compaction (R188, R190; log 7) -/

/-- The granules of a group's block: the first and how many. -/
def Group.regBlock (g : Group) : Nat × Nat := (g.base, g.granules)

/-- Whether compaction must leave a block where it is: it holds an empty element (R190). -/
def Group.pinned (g : Group) : Bool := !(g.v.all fun e => e.2.full)

/-- Whether n granules from b are clear of blocks. -/
def clearOf (used : List (Nat × Nat)) (b n : Nat) : Bool := used.all fun u => decide (b + n ≤ u.1) || decide (u.1 + u.2 ≤ b)

/-- The place of a new block of n granules: the lowest free one, aligned to its size. -/
def layOne (used : List (Nat × Nat)) (n : Nat) : Option Nat :=
  ((List.range (256 / n)).map fun i => i * n).find? fun b => clearOf used b n

/-- The places of several new blocks, one after another. -/
def layAll (used : List (Nat × Nat)) : List Nat → Option (List Nat)
  | [] => some []
  | n :: ns => (layOne used n).bind fun b => (layAll ((b, n) :: used) ns).map fun bs => b :: bs

/-- Room on a core for new blocks of sizes ns, beside the blocks of its groups but some and beside others that are held:
where they lie free, no block moves; else compaction lays them and every block it may move anew, the largest first.  The
moves, by slot, and the places. -/
def State.makeRoom (s : State) (core : Nat) (but : Nat → Bool) (held : List (Nat × Nat)) (ns : List Nat) :
    Option (List (Nat × Nat) × List Nat) :=
  let gs := (s.groupsOf core).filter fun g => !but g.slot
  match layAll (held ++ gs.map Group.regBlock) ns with
  | some bs => some ([], bs)
  | none =>
    let items := (gs.filter fun g => !g.pinned).map (fun g => (g.slot, g.granules)) ++ ns.mapIdx fun i n => (16 + i, n)
    let sorted := [128, 64, 32, 16, 8, 4, 2, 1].flatMap fun k => items.filter fun e => e.2 = k
    (layAll (held ++ (gs.filter Group.pinned).map Group.regBlock) (sorted.map (·.2))).map fun bs =>
      let laid := (sorted.map (·.1)).zip bs
      (laid.filter fun e => decide (e.1 < 16), (List.range ns.length).map fun i => (Tab.find laid (16 + i)).getD 0)

/-- Compaction moves blocks (R190): values and bits stay, and the staging buffers of their groups empty (R92). -/
def State.moveBlocks (s : State) (core : Nat) (ms : List (Nat × Nat)) : State :=
  ms.foldl (fun s m => s.modGroup core m.1 fun g => if g.base = m.2 then g else { g with base := m.2, staged := [] }) s

/-- The place for a group's block of twice the size (R189): in its own place where that is free, else anywhere on the core,
with its own granules free; its own block too stays where it is while it holds an empty element. -/
def State.growPlace (s : State) (g : Group) : Option (List (Nat × Nat) × Nat) :=
  let n := 2 * g.granules
  let others := ((s.groupsOf g.core).filter fun h => h.slot ≠ g.slot).map Group.regBlock
  if g.base % n = 0 && clearOf others g.base n then some ([], g.base)
  else if !g.pinned then (s.makeRoom g.core (· = g.slot) [] [n]).map fun r => (r.1, r.2.headD 0)
  else if g.base % n = 0 then (s.makeRoom g.core (· = g.slot) [(g.base, n)] []).map fun r => (r.1, g.base)
  else none

/-! ### The core map (R208) -/

/-- The teams with a part on a core. -/
def State.teamsOn (s : State) (core : Nat) : List Team :=
  (s.teams.filter fun e => e.2.core = core || (e.2.paired && e.2.core + 1 = core)).map (·.2)

/-- The free tiles of a core. -/
def State.freeTiles (s : State) (core : Nat) : Nat :=
  16 - ((s.teamsOn core).map fun t => if t.core = core then t.tregs else 0).sum

/-- The free accumulators of a core. -/
def State.freeAccs (s : State) (core : Nat) : Nat := 16 - ((s.teamsOn core).map Team.aregs).sum

/-- The free group slots of a core. -/
def State.freeSlots (s : State) (core : Nat) : Nat := 16 - (s.groupsOf core).length

/-- The free scratchpad of a core under a split, in 512-byte units. -/
def State.freeSp (s : State) (core : Nat) (split : BitVec 24) : Nat :=
  (split.extractLsb' 6 6).toNat * 32 - ((s.teamsOn core).map fun t => fld t.sram 24 12).sum

/-- Write a core's entry of the core map, once the boot has placed the map (R456, R458).  FREESP and ASID of a core
with no split in force are free values (log 4). -/
def State.putCmap (s : State) (core : Nat) : State :=
  if fld (s.reg 8) 0 3 ≠ 3 then s
  else
    let c := s.core core
    let d := s.drawFree
    let x := Config.freeValue d.2
    let sp := if c.splitv then s.freeSp core c.split else fld x 0 12
    let asid := if c.splitv then c.asid else x.extractLsb' 16 16
    let d0 := (if c.absent then 0 else 1) + (if c.fenced then 2 else 0) + c.split.toNat * 4 + (if c.splitv then 2 ^ 26 else 0) +
      s.freeGranules core * 2 ^ 27 + s.freeSlots core * 2 ^ 36 + s.freeTiles core * 2 ^ 41 + s.freeAccs core * 2 ^ 46 +
      (if c.drain then 2 ^ 51 else 0)
    let k := physKey 0 0 (s.reg 0x10).toNat + 16 * core
    let s := if c.splitv then s else d.1
    (s.write64 k (BitVec.ofNat 64 d0)).write64 (k + 8) (BitVec.ofNat 64 (sp + asid.toNat * 2 ^ 12))

/-- Whether an earlier REGGROW of the group's core still waits (R212). -/
def State.growBehind (s : State) (g : Group) : Bool :=
  (s.groupsOf g.core).any fun h => h.slot ≠ g.slot &&
    match h.growSince, g.growSince with
    | some a, some b => decide (a < b)
    | some _, none => true
    | none, _ => false

/-- The core map follows a change of a block's size (R208). -/
def State.remap (s : State) (o : Host.Outcome State Fault Refusal) : Host.Outcome State Fault Refusal :=
  match o, s.cur with
  | .next t, some (c, _) => .next (if t.freeGranules c = s.freeGranules c then t else t.putCmap c)
  | o, _ => o

/-- REGGROW (R189, R208, R212): double the block, its new half zero and full; wait, in order, while no block is free and
compaction cannot form one. -/
def execReggrow (s : State) : Host.Outcome State Fault Refusal :=
  let o := issueS .reggrow noLimit (fun s g =>
    if g.blockN ≥ 4 then .error (.fate 0x43 0 0)
    else
      match if s.growBehind g then none else s.growPlace g with
      | none => hold
      | some (ms, b) => .ok (s.moveBlocks g.core ms, { g with blockN := g.blockN + 1, base := b, staged := [], growSince := none })) s
  match s.remap o, s.cur with
  | .next t, some (c, k) =>
    match t.group c k with
    | some g =>
      if g.waiting && g.growSince.isNone && g.canIssue then
        .next { t.setGroup { g with growSince := some t.nextId } with nextId := t.nextId + 1 }
      else .next t
    | none => .next t
  | o, _ => o

/-- REGSHRINK (R189, R208): wait until the upper half holds no empty element, then discard it. -/
def execRegshrink (s : State) : Host.Outcome State Fault Refusal :=
  s.remap <| issueG .regshrink (fun g => do
    let half := g.blockSize / 2
    need (g.blockN ≠ 0) (.fate 0x43 0 0)
    need (g.wbase.toNat < half) (.fate 0x42 0 0)
    need (g.v.all fun e => decide (e.1 < half * 64) || e.2.full) .waitEmpty
    return { g with blockN := g.blockN - 1, v := g.v.filter (fun e => decide (e.1 < half * 64)), staged := [] }) s

/-- RPF (R311): the staging buffer holds n registers from va; timing only. -/
def execRpf (r : RRR) (s : State) : Host.Outcome State Fault Refusal :=
  issueG (.rpf r) (fun g => .ok { g with staged := (List.range r.b.toNat).map fun i => g.vreg (r.a.toNat + i) }) s

/-- The kept ticket-table entries of a group (R46, R294). -/
def State.tickets (s : State) (g : Group) : Nat :=
  (s.memops.map fun e => if e.2.core = g.core ∧ e.2.slot = g.slot then e.2.keptEntries else 0).sum

/-- The value MFS reads from a state register (R294). -/
def State.stateReg (s : State) (g : Group) (n : Nat) : BitVec 64 :=
  match n with
  | 0x000 => g.flags
  | 0x001 => g.trapen
  | 0x002 => g.part
  | 0x003 => g.wbase
  | 0x010 => BitVec.ofNat 64 g.gid
  | 0x011 => g.teamId
  | 0x012 => g.gridId
  | 0x013 => g.laneBase
  | 0x014 => g.kargs
  | 0x020 => g.seqSlot
  | 0x021 => BitVec.ofNat 64 (s.tickets g)
  | 0x022 => g.rampSlot
  | _ => 0

/-- MFS (R294, R312): FLAGS waits for the earlier flag setters. -/
def execMfs (r : RRR) (s : State) : Host.Outcome State Fault Refusal :=
  issueS (.mfs r) noLimit (fun s g => do
    let n := r.b.toNat * 128 + r.a.toNat
    need (n ≠ 0 || !s.flagsPending g) .wait
    gate g Pfx.none false [] [.s r.d.toNat 1]
    return (s, g.writeS r.d.toNat (s.stateReg g n) false)) s

/-- Whether a value is a reserved value of a state register: a SIZE of 5 to 7 in PART, a value outside SEQSLOT's layout
(R10, R181, R294). -/
def stateRegBad (n : Nat) (v : BitVec 64) : Bool :=
  match n with
  | 0x002 => decide (5 ≤ fld v 0 3)
  | 0x020 => decide (2 ^ 13 ≤ v.toNat) && decide (v ≠ BitVec.allOnes 64)
  | _ => false

/-- The fields of a state register that a write reaches; ones in the rest are ignored (R9, R10, R181, R188, R233). -/
def stateRegMask (n : Nat) : BitVec 64 :=
  match n with
  | 0x000 => 0x17F
  | 0x001 => 0x7F
  | 0x002 => 0x7
  | 0x003 => 0x1E0
  | _ => BitVec.allOnes 64

/-- Carillon's ASID (R216). -/
def State.carAsid (s : State) : BitVec 16 := BitVec.ofNat 16 (fld (s.reg 0x4000) 11 16)

/-- The operand limits of MTS: a reserved value that is full and not poisoned, and SEQSLOT from another context than
Carillon's (R294, R231). -/
def mtsLimit (r : RRR) (s : State) (g : Group) : Bool :=
  let n := r.b.toNat * 128 + r.d.toNat
  let e := g.sel r.a.toNat
  (n = 0x020 && g.asid != s.carAsid) || (e.full && !e.pois && stateRegBad n e.val)

/-- MTS (R294, R312): write a state register, with the checks of WBASE and PART; poison is a use, DETAIL 4. -/
def execMts (r : RRR) (s : State) : Host.Outcome State Fault Refusal :=
  issueS (.mts r) (mtsLimit r) (fun s g => do
    let n := r.b.toNat * 128 + r.d.toNat
    let a := r.a.toNat
    need (n ≠ 0 || !s.flagsPending g) .wait
    gate g Pfx.none false [(.s a 1, r.wa)] []
    need (!g.spois a 1) (poisonUse 4 0)
    let v := g.sv a &&& stateRegMask n
    match n with
    | 0x000 => return (s, { g with flags := v })
    | 0x001 => return (s, { g with trapen := v })
    | 0x002 => return (s, { g with part := v })
    | 0x003 => return (s, ← setWindow g v)
    | _ => return (s, { g with seqSlot := v })) s

end Sys2Proof.Machine
end

