-- ==== Sys2Proof/Machine/MemOps.lean ====
section
/-!
DEFINITION. Memory operations in flight: filling destinations (R85, R192), L1 copies (R77, R79, R81), performing loads,
stores and atomics at their place in storage (R124, R134, R144, R145), the orders that hold an operation back (R127,
R128), and its end.
-/
namespace Sys2Proof.Machine

/-! ### Fills -/

/-- Fill a scalar register late (R192): a speculative region whose condition it is has its outcome decided (R185). -/
def Group.fillS (g : Group) (k : Nat) (x : BitVec 64) (pz : Bool) : Group :=
  let g := match g.spec with
    | some p =>
      if p.cond.toNat = k ∧ p.decided.isNone then
        { g with spec := some { p with decided := some (decide (x = p.pred) && !pz), poisoned := pz } }
      else g
    | none => g
  g.writeS k x pz

/-- A narrow or full element extended to a lane word (R303). -/
def extendWord (type x : Nat) : Word :=
  match type with
  | 1 => (BitVec.ofNat 8 x).signExtend 32
  | 2 | 12 | 13 | 14 | 15 | 16 => BitVec.ofNat 32 (x % 2 ^ 8)
  | 3 => (BitVec.ofNat 16 x).signExtend 32
  | 4 | 9 | 10 => BitVec.ofNat 32 (x % 2 ^ 16)
  | _ => BitVec.ofNat 32 x

/-- An element extended to a scalar register (R341). -/
def extendScalar (type x : Nat) : BitVec 64 :=
  match type with
  | 1 => (BitVec.ofNat 8 x).signExtend 64
  | 2 => BitVec.ofNat 64 (x % 2 ^ 8)
  | 3 => (BitVec.ofNat 16 x).signExtend 64
  | 4 | 9 | 10 => BitVec.ofNat 64 (x % 2 ^ 16)
  | 5 => (BitVec.ofNat 32 x).signExtend 64
  | 6 | 11 => BitVec.ofNat 64 (x % 2 ^ 32)
  | _ => BitVec.ofNat 64 x

/-- The place of an element of a tile in its team's table. -/
def tileKey (t row col : Nat) : Nat := t * 1024 + row * 32 + col

/-- Fill the destination of a lane of an operation (R85): block registers, scalar registers, or a tile element. -/
def State.fillLane (s : State) (o : MemOp) (lane : Nat) (x : Nat) (pz : Bool) : State :=
  match o.dstKind with
  | .v => s.modGroup o.core o.slot fun g =>
    if o.nreg = 1 then g.writeBlk o.dst lane (extendWord o.type x) pz
    else (List.range o.nreg).foldl (fun g k => g.writeBlk (o.dst + k) lane (BitVec.ofNat 32 (x / 2 ^ (32 * k))) pz) g
  | .s => s.modGroup o.core o.slot fun g =>
    if o.nreg = 1 then g.fillS o.dst (extendScalar o.type x) pz
    else (List.range o.nreg).foldl (fun g k => g.fillS (o.dst + k) (BitVec.ofNat 64 (x / 2 ^ (64 * k))) pz) g
  | .t => s.modTeam o.team fun t => { t with tiles := Tab.set AEl.zero t.tiles (o.dst * 1024 + lane) ⟨BitVec.ofNat 32 x, pz⟩ }
  | .p | .none => s

/-- Mark the destinations of an operation's lanes empty (R192) or full again. -/
def Group.markDst (g : Group) (o : MemOp) (full : Bool) : Group :=
  match o.dstKind with
  | .v => (if o.kind = .bitmap then lanesOf 64 o.mask else o.lanes.map LaneAcc.lane).foldl (fun g l =>
      (List.range o.nreg).foldl (fun g k => g.putV (o.dst + k) l { g.vblk (o.dst + k) l with full := full }) g) g
  | .s => (List.range o.nreg).foldl (fun g k => g.putS (o.dst + k) { g.sel (o.dst + k) with full := full }) g
  | _ => g

/-- Mark the rows of an operation's tile empty or full. -/
def State.markRows (s : State) (o : MemOp) (full : Bool) : State :=
  if o.dstKind = .t then
    s.modTeam o.team fun t => { t with rowEmpty := (o.lanes.map fun l => l.lane / 32).foldl (fun m r =>
      Tab.set false m (o.dst * 32 + r) (!full)) t.rowEmpty }
  else s

/-! ### Operations -/

/-- Whether an operation is a non-temporal store (R81, R138). -/
def MemOp.isNT (o : MemOp) : Bool := o.kind = .store && o.hint = 1 && o.space = 0

/-- Whether an operation carries acquire order. -/
def MemOp.acquires (o : MemOp) : Bool := o.order = 1 || o.order = 3

/-- Whether an operation carries release order. -/
def MemOp.releases (o : MemOp) : Bool := o.order = 2 || o.order = 3

/-- Whether an access is a release to global memory with a lane that a test accepts (R137). -/
def MemOp.releasesLine (o : MemOp) (p : LaneAcc → Bool) : Bool :=
  o.engine.isNone && o.kind != .fetch && o.kind != .result && o.releases && o.space = 0 && o.lanes.any p

/-- Whether every lane of an operation is done. -/
def MemOp.isDone (o : MemOp) : Bool := o.lanes.all fun l => l.at_ = .done

/-- Change the operation of a key. -/
def State.modOp (s : State) (k : Nat) (f : MemOp → MemOp) : State := { s with memops := Tab.modify s.memops k f }

/-- Set the lane entries of an operation for which a test holds. -/
def MemOp.onLanes (o : MemOp) (p : LaneAcc → Bool) (f : LaneAcc → LaneAcc) : MemOp :=
  { o with lanes := o.lanes.map fun l => if p l then f l else l }

/-- The lane mask of some of an operation's lanes; a bitmap read serves every lane of its mask. -/
def MemOp.maskFor (o : MemOp) (ls : List LaneAcc) : BitVec 64 :=
  if o.kind = .bitmap then o.mask else maskOf ((ls.map fun l => l.lane / o.per).eraseDups)

/-- The accesses of a group that are in flight (R128): neither an engine's nor a fetch nor a bare result. -/
def MemOp.isAccess (o : MemOp) : Bool := o.engine.isNone && o.kind != .fetch && o.kind != .result

/-- The accesses of a group in flight, oldest first. -/
def State.accessesOf (s : State) (core slot : Nat) : List (Nat × MemOp) :=
  s.memops.filter fun e => e.2.core = core && e.2.slot = slot && e.2.isAccess

/-- Whether a ticket of a group is unsettled (R52). -/
def State.ticketsOpen (s : State) (core slot : Nat) : Bool :=
  (s.accessesOf core slot).any fun e => e.2.ticketed

/-- Whether every earlier access of a group but non-temporal stores is performed, and its tickets settled (R128,
R135). -/
def State.quiet (s : State) (core slot : Nat) : Bool :=
  ((s.accessesOf core slot).all fun e => e.2.isNT) && !s.ticketsOpen core slot

/-- Whether every earlier acquire of a group is performed (R128). -/
def State.acquired (s : State) (core slot : Nat) : Bool := (s.accessesOf core slot).all fun e => !e.2.acquires

/-- Whether two accesses touch a common byte through one address of one space (R127); lane slices are private (R68). -/
def MemOp.overlaps (o p : MemOp) : Bool :=
  o.space = p.space &&
    o.lanes.any fun l => l.at_ != .done && p.lanes.any fun m => m.at_ != .done &&
      (o.space != 1 || l.lane = m.lane) &&
      decide (l.addr.toNat < m.addr.toNat + p.bytes) && decide (m.addr.toNat < l.addr.toNat + o.bytes)

/-- Whether operation o, later in program order, must wait for operation p of its group (R128); a release waits for every
ticket, a non-temporal store's too (R52). -/
def MemOp.waitsFor (o p : MemOp) : Bool := p.acquires || (o.releases && (!p.isNT || p.ticketed)) || o.overlaps p

/-- Whether a promoting acquire still waits for its probes (R137, R169): an owner's answer, or a release of the package
that was in flight. -/
def State.probing (s : State) (k : Nat) : Bool :=
  s.probes.any fun q => q.op = k && (!q.peers.isEmpty || q.ops.any fun j => (Tab.find s.memops j).isSome)

/-- Whether no program-earlier access holds operation k back (R127, R128, R137). -/
def State.mayPerform (s : State) (k : Nat) (o : MemOp) : Bool :=
  !s.probing k &&
    (!o.isAccess || (s.accessesOf o.core o.slot).all fun e => decide (k ≤ e.1) || !o.waitsFor e.2)

/-! ### L1 copies -/

/-- Whether a scope's point of coherence for a package-local global line is the core's L1 (R79). -/
def State.l1Point (s : State) (o : MemOp) : Bool :=
  o.scope = 0 || (o.scope = 1 && !((s.team o.team).map Team.paired).getD false)

/-- The key of a core's copy of a sector. -/
def l1Key (core sector : Nat) : Nat := core * 2 ^ 72 + sector

/-- Invalidate a core's copies of the sectors of n bytes (R80). -/
def State.l1DropRange (s : State) (core k n : Nat) : State :=
  let hit (j : Nat) : Bool := decide (0 < n) && (sectorsOf k n).any fun q => l1Key core q = j
  { s with l1 := s.l1.filter fun e => !hit e.1, l1pois := s.l1pois.filter fun j => !hit j }

/-- Copy a sector as memory holds it into a core's L1 (R77, R81). -/
def State.l1Fill (s : State) (core sector : Nat) : State :=
  let k := l1Key core sector
  let pz := s.poisoned.contains sector
  { s with
    l1 := Tab.put s.l1 k (BitVec.ofNat 128 (s.readLE (sector * 16) 16))
    l1pois := if pz then (if s.l1pois.contains k then s.l1pois else k :: s.l1pois) else s.l1pois.filter (· ≠ k) }

/-- Read an element through L1 or at its point of coherence (R77, R134): a read served at the point refreshes the
copy, or, when its hint is NT, leaves none (R81, R127; log 9). -/
def State.loadAt (s : State) (o : MemOp) (loc : Nat) (fromL1 : Bool) : State × Nat × Bool :=
  let sector := loc / 16
  let k := l1Key o.core sector
  if o.space = 0 then
    match Tab.find s.l1 k with
    | some v =>
      if fromL1 && s.l1Point o then (s, v.toNat / 2 ^ (8 * (loc % 16)) % 2 ^ (8 * o.bytes), s.l1pois.contains k)
      else
        let s' := if o.hint = 1 then s.l1DropRange o.core loc o.bytes else s.l1Fill o.core sector
        (s', s.readLE loc o.bytes, s.isPoisoned loc o.bytes)
    | none =>
      let s' := (if o.hint = 1 then s else s.l1Fill o.core sector).bump o.core 0x010 1
      (s', s.readLE loc o.bytes, s.isPoisoned loc o.bytes)
  else (s, s.readLE loc o.bytes, s.isPoisoned loc o.bytes)

/-- Put n bytes of a value into a word at a byte position. -/
def bytesPut {w : Nat} (d : BitVec w) (pos n v : Nat) : BitVec w :=
  let m : BitVec w := BitVec.ofNat w (2 ^ (8 * n) - 1) <<< (8 * pos)
  (d &&& ~~~m) ||| (BitVec.ofNat w (v % 2 ^ (8 * n)) <<< (8 * pos))

/-- Update the bytes that a store of n bytes from a place writes in the copies that a core holds (R77). -/
def State.l1Update (s : State) (core k n v : Nat) : State :=
  if s.l1.isEmpty then s
  else (sectorsOf k n).foldl (fun s q =>
    match Tab.find s.l1 (l1Key core q) with
    | some d =>
      let lo := max k (16 * q)
      let hi := min (k + n) (16 * q + 16)
      { s with
        l1 := Tab.put s.l1 (l1Key core q) (bytesPut d (lo - 16 * q) (hi - lo) (v / 2 ^ (8 * (lo - k))))
        l1pois := if hi - lo = 16 then s.l1pois.filter (· ≠ l1Key core q) else s.l1pois }
    | none => s) s

/-- Take anew, from the point of coherence, the copies that a core holds of sectors which were written whole (R77). -/
def State.l1Renew (s : State) (core k n : Nat) : State :=
  if s.l1.isEmpty then s
  else (sectorsOf k n).foldl (fun s q => if (Tab.find s.l1 (l1Key core q)).isSome then s.l1Fill core q else s) s

/-- Store an element, in the storage that the L1 caches too (R76, R77). -/
def State.storeAt (s : State) (o : MemOp) (loc x : Nat) : State :=
  let s := s.writeLE loc o.bytes x
  if o.space = 0 ∨ o.space = 4 then s.l1Update o.core loc o.bytes x else s

/-! ### Atomics -/

/-- The order-preserving key of a score (R349). -/
def okey (x : Word) : Word := if x.getLsbD 31 then ~~~x else x ^^^ 0x80000000

/-- The result of an atomic operation of a type's width (R342, R349): op 0 ADD, 1 MIN, 2 MAX, 3 AND, 4 OR, 5 XOR,
6 XCHG, 7 CAS; F32 sums round to nearest even with subnormals honoured. -/
def atomicOp (op type old v c : Nat) : Nat :=
  let bits := if is64 type then 64 else 32
  let sgn := type = 5 || type = 7
  let less (a b : Nat) : Bool :=
    if sgn then decide (decodeInt bits true a < decodeInt bits true b) else decide (a < b)
  let f (w : Nat) : Fl := Fmt.f32.decode w
  match op with
  | 0 => if type = 11 then (Fmt.f32.add Rnd.rne (f old) (f v)).1 else (old + v) % 2 ^ bits
  | 1 => if type = 11 then fmin old v false else if less v old then v else old
  | 2 => if type = 11 then fmin old v true else if less old v then v else old
  | 3 => old &&& v
  | 4 => old ||| v
  | 5 => old ^^^ v
  | 6 => v
  | _ => if old = c then v else old
where
  /-- The lesser or greater of two F32 values (R323), by the sign-magnitude key in which -0 lies below +0. -/
  fmin (a b : Nat) (max : Bool) : Nat :=
    let x := Fmt.f32.decode a
    let y := Fmt.f32.decode b
    let k (w : Nat) : Nat := (okey (BitVec.ofNat 32 w)).toNat
    if x.isNan && y.isNan then Fmt.f32.qnan
    else if x.isNan then b
    else if y.isNan then a
    else if decide (k a ≤ k b) != max then a else b

/-- Perform an atomic at a place (R144, R145): the old value, its poison, and the status bit; it reads at its point of
coherence, and a copy that the core holds does not outlive what it read (R127). -/
def State.atomicAt (s : State) (o : MemOp) (loc v c : Nat) : State × Nat × Bool × Bool :=
  let old := s.readLE loc o.bytes
  if s.isPoisoned loc o.bytes then (if o.space = 0 ∨ o.space = 4 then s.l1DropRange o.core loc o.bytes else s, old, true, false)
  else (s.storeAt o loc (atomicOp o.aop o.type old v c % 2 ^ (8 * o.bytes)), old, false, true)

/-! ### Performing -/

/-- Whether a lane stands at a place in storage, all of it or one half still to do. -/
def LaneAcc.isPlaced (l : LaneAcc) : Bool := match l.at_ with | .placed _ => true | .half _ _ => true | _ => false

/-- The lanes of an operation that an arrival performs: the placed ones of a mask, with every placed lane of the same
address (R126) and, of a load, of the same sector (R82, R85). -/
def MemOp.lanesNow (o : MemOp) (mask : BitVec 64) : List LaneAcc :=
  let n := if o.kind = .store ∨ o.kind = .atomic then 1 else 16
  let pick := o.lanes.filter fun l => l.isPlaced && mask.getLsbD (l.lane / o.per)
  o.lanes.filter fun l => l.isPlaced &&
    pick.any fun m => m.addr.toNat / n = l.addr.toNat / n && (o.space != 1 || m.lane = l.lane)

/-- Read or write one 64-bit half of a 128-bit element, each half being single-copy atomic (R126): half 1 is the high
one; `last` tells that the other half is done. -/
def State.performHalf (s : State) (k : Nat) (o : MemOp) (fromL1 : Bool) (l : LaneAcc) (loc half : Nat) (last : Bool) : State :=
  let p := loc + 8 * half
  let o8 := { o with bytes := 8 }
  let put (s : State) (x : BitVec 128) (pz : Bool) : State :=
    s.modOp k fun o => o.onLanes (fun m => m.lane = l.lane) fun m =>
      { m with data := x, pois := pz, ok := last, at_ := if last then .done else .half loc (1 - half) }
  if o.kind = .store then
    let s := s.storeAt o8 p (l.data.toNat / 2 ^ (64 * half) % 2 ^ 64)
    let s : State := if last then { s with poisoned := s.poisoned.filter (· ≠ loc / 16) } else s
    put (if last && l.pois then s.poison loc 16 else s) l.data l.pois
  else
    let r := s.loadAt o8 p fromL1
    let x := bytesPut l.data (8 * half) 8 r.2.1
    let pz := l.pois || r.2.2
    put (if last && o.engine.isNone then r.1.fillLane o l.lane x.toNat pz else r.1) x pz

/-- Perform one placed lane of an operation: a read, write or atomic at its place, and the fill of its element; with a
`part` of 1 or 2 only the low or the high half of it (R126). -/
def State.performLane (s : State) (k : Nat) (fromL1 : Bool) (part : Nat) (l : LaneAcc) : State :=
  match Tab.find s.memops k, l.at_ with
  | some o, .half loc h => s.performHalf k o fromL1 l loc h true
  | some o, .placed loc =>
    if part ≠ 0 then s.performHalf k o fromL1 l loc (part - 1) false
    else
    let fin (s : State) (x : Nat) (pz ok : Bool) : State :=
      s.modOp k fun o => o.onLanes (fun m => m.lane = l.lane) fun m =>
        { m with data := BitVec.ofNat 128 x, pois := pz, ok := ok, at_ := .done }
    match o.kind with
    | .store =>
      let s := s.storeAt o loc l.data.toNat
      fin (if l.pois then s.poison loc o.bytes else s) l.data.toNat l.pois true
    | .atomic =>
      let r := s.atomicAt o loc l.data.toNat l.cmp.toNat
      fin (r.1.fillLane o l.lane r.2.1 r.2.2.1) r.2.1 r.2.2.1 r.2.2.2
    | .result => fin (s.fillLane o l.lane l.data.toNat l.pois) l.data.toNat l.pois true
    | .bitmap | .engine | .fetch =>
      let r := s.loadAt o loc fromL1
      fin r.1 r.2.1 r.2.2 true
    | .load | .nfload =>
      let r := s.loadAt o loc fromL1
      fin (r.1.fillLane o l.lane r.2.1 r.2.2) r.2.1 r.2.2 true
  | _, _ => s

/-- The bits of a bitmap read (R401) as words: word i of an operation's lanes. -/
def MemOp.bitmapWord (o : MemOp) (i : Nat) : Nat × Bool :=
  match o.lanes.find? fun l => l.lane = i with
  | some l => (l.data.toNat % 2 ^ 32, l.pois)
  | none => (0, false)

/-- The number of set bits of a number below bit n. -/
def popBelow (w : Nat) : Nat → Nat
  | 0 => 0
  | n + 1 => popBelow w n + w / 2 ^ n % 2

/-- The rank of a position: set bits below it, over the words from i, and whether a word used is poisoned (R401,
R402). -/
def rankIn (ws : List (Nat × Bool)) (pos : Nat) : Nat × Bool :=
  match ws with
  | [] => (0, false)
  | (w, pz) :: rest =>
    if pos = 0 then (0, false)
    else
      let r := rankIn rest (pos - 32)
      (popBelow w (min pos 32) + r.1, pz || r.2)

/-- The position of the set bit of rank k, from position `at_`; `size` where there is none (R401). -/
def selectIn (size k at_ : Nat) : List (Nat × Bool) → Nat × Bool
  | [] => (size, false)
  | (w, pz) :: rest =>
    let n := popBelow w 32
    if k < n then
      (at_ + ((List.range 32).find? fun b => w.testBit b && decide (popBelow w b = k)).getD 0, pz)
    else
      let r := selectIn size (k - n) (at_ + 32) rest
      (r.1, pz || r.2)

/-- The results of BRANK (op 0), BSEL (1) and BCNT (4) once every word has arrived (R401, R402). -/
def State.bitmapDone (s : State) (o : MemOp) : State :=
  let n := o.lanes.length
  let ws := (List.range n).map o.bitmapWord
  let size := 32 * n
  if o.aop = 4 then
    let r := rankIn ws size
    s.modGroup o.core o.slot fun g => g.fillS o.dst (BitVec.ofNat 64 r.1) r.2
  else
    s.modGroup o.core o.slot fun g => g.eachLane o.mask fun g l =>
      let e := g.vblk o.dst l
      let r := if o.aop = 0 then rankIn ws (min e.val.toNat size) else selectIn size e.val.toNat 0 ws
      g.writeBlk o.dst l (BitVec.ofNat 32 r.1) (r.2 || e.pois)

/-- Write the status predicate of an operation (R340, R35): one bit a lane, the same bit in every lane for a scalar one. -/
def State.writeStatus (s : State) (o : MemOp) : State :=
  match o.writesP with
  | some p => s.modGroup o.core o.slot fun g =>
    if o.dstKind = DstKind.s then g.writeP p g.allLanes (if o.lanes.all LaneAcc.ok then g.allLanes else 0)
    else g.writeP p o.mask (maskOf ((o.lanes.filter LaneAcc.ok).map LaneAcc.lane))
  | none => s

/-- A store that gives its first dword to a scalar register as well (BTLD, R395): the register fills when the store is
done. -/
def State.storeDone (s : State) (o : MemOp) : State :=
  match o.lanes.head? with
  | some l => s.fillLane o l.lane (l.data.toNat % 2 ^ 64) l.pois
  | none => s

/-- The lanes of an operation that stand in tile rows whose data has all arrived (R390). -/
def MemOp.doneRows (o : MemOp) : MemOp :=
  { o with lanes := o.lanes.filter fun l => o.lanes.all fun m => m.lane / 32 != l.lane / 32 || m.at_ = .done }

/-- The end of an operation whose lanes are all done: its status predicate (R340, R35), its bitmap result, and the effect
of an acquire on L1 (R79); each tile row fills once its own data has arrived (R390); an engine's operation stays for its
engine. -/
def State.finishOp (s : State) (k : Nat) : State :=
  match Tab.find s.memops k with
  | some o =>
    if o.isDone && o.engine.isNone then
      let s := { s with memops := Tab.drop s.memops k }
      let s := s.writeStatus o
      let s := if o.kind = .bitmap then s.bitmapDone o else s
      let s := if o.kind = .store then s.storeDone o else s
      let s := s.markRows o true
      let s := if s.probes.isEmpty then s else { s with probes := s.probes.filter fun q => q.op ≠ k }
      if o.acquires then (if s.l1Point o then s.entriesOld o.core else s.l1Drop o.core) else s
    else s.markRows o.doneRows true
  | none => s

/-- Whether the placed lanes of a store together overwrite a whole sector with unpoisoned data (R95; log 48). -/
def coversSector (bytes sector : Nat) (ls : List LaneAcc) : Bool :=
  let hits (i : Nat) (l : LaneAcc) : Bool :=
    match l.at_ with
    | .placed loc => decide (loc ≤ sector * 16 + i) && decide (sector * 16 + i < loc + bytes)
    | _ => false
  (List.range 16).all fun i => (ls.any (hits i)) && ls.all fun l => !(hits i l && l.pois)

/-- Clear the marks of the sectors that a store's lanes together overwrite (R95). -/
def State.clearCovered (s : State) (o : MemOp) (ls : List LaneAcc) : State :=
  if o.kind = .store && !s.poisoned.isEmpty then
    let done := s.poisoned.filter fun q => coversSector o.bytes q ls
    let s := { s with poisoned := s.poisoned.filter fun q => !(coversSector o.bytes q ls) }
    { s with l1pois := s.l1pois.filter fun j => !done.any fun q => l1Key o.core q = j }
  else s

/-- Perform the placed lanes of a mask of an operation, in ascending lane order (R83, R348), and end it when nothing is
left; whether the halves of 128-bit elements are performed together is a free choice (R126, log 4). -/
def State.performMask (s : State) (k : Nat) (mask : BitVec 64) (fromL1 : Bool) : State :=
  match Tab.find s.memops k with
  | some o =>
    let ls := o.lanesNow mask
    let split := o.bytes = 16 && o.kind != .result && ls.any fun l => match l.at_ with | .placed _ => true | _ => false
    let d := if split then s.drawFree else (s, 0)
    let part := if split then (Config.freeValue d.2).toNat % 3 else 0
    let t := ls.foldl (fun s l => s.performLane k fromL1 part l) d.1
    (if part = 0 then t.clearCovered o ls else t).finishOp k
  | none => s

end Sys2Proof.Machine
end

