-- ==== Sys2Proof/Machine/Efi.lean ====
section
/-!
DEFINITION. The fabric as a requester uses it: planes (R152 to R154), the peer-and-window table (R157 to R160), requests
as flits (R161), sending in the order R48, R51 to R53 and R128 allow, L2 copies of fabric-coherent lines (R167), and the
settling of a line by its response (R49, R164).
-/
namespace Sys2Proof.Machine

/-! ### Addresses, planes, windows -/

/-- The peer index of a fabric address (R17). -/
def vaPeer (va : BitVec 64) : Nat := fld va 46 10

/-- The window index of a fabric address (R17). -/
def vaWin (va : BitVec 64) : Nat := fld va 40 6

/-- The offset of a fabric address in its window (R17). -/
def vaOff (va : BitVec 64) : Nat := fld va 0 40

/-- The line of an address. -/
def lineOf (va : BitVec 64) : BitVec 64 := va &&& ~~~63#64

/-- The logical plane of a fabric line (R153). -/
def planeOf (va : BitVec 64) : Nat :=
  let a := va.extractLsb' 6 40
  (a.extractLsb' 0 6 ^^^ a.extractLsb' 6 6 ^^^ a.extractLsb' 12 6 ^^^ a.extractLsb' 18 6 ^^^ a.extractLsb' 24 6 ^^^
    a.extractLsb' 30 6 ^^^ (a.extractLsb' 36 4).zeroExtend 6).toNat

/-- A dword of a 32-byte record. -/
def dw (r : BitVec 256) (n : Nat) : BitVec 64 := r.extractLsb' (64 * n) 64

/-- A 32-byte record with a dword replaced. -/
def setDw (r : BitVec 256) (n : Nat) (v : BitVec 64) : BitVec 256 :=
  dwords4 (if n = 0 then v else dw r 0) (if n = 1 then v else dw r 1) (if n = 2 then v else dw r 2)
    (if n = 3 then v else dw r 3)

/-- The place that a base register of a die names: BASE from bit `lo`, DIE in bit 52 (R470). -/
def State.baseOf (s : State) (off lo : Nat) : Nat :=
  let r := s.reg off
  physKey 0 (fld r 52 1) (fld r lo (52 - lo) * 2 ^ lo)

/-- The level-1 entry of a peer index (R157): PLANES and the second dword. -/
def State.level1 (s : State) (p : Nat) : BitVec 64 × BitVec 64 :=
  let k := s.baseOf 0x6008 12 + 16 * p
  (s.read64 k, s.read64 (k + 8))

/-- The state of a level-1 entry: 3, or a nonzero reserved bit, counts as absent (R157). -/
def level1State (d1 : BitVec 64) : Nat := if fld d1 20 44 ≠ 0 ∨ fld d1 0 2 = 3 then 0 else fld d1 0 2

/-- The place of a level-2 entry (R159). -/
def State.winKey (s : State) (p w : Nat) : Nat := s.baseOf 0x6010 21 + 32 * (64 * p + w)

/-- A level-2 entry (R159). -/
def State.winDesc (s : State) (p w : Nat) : BitVec 256 := BitVec.ofNat 256 (s.readLE (s.winKey p w) 32)

/-- Write a level-2 entry. -/
def State.setWinDesc (s : State) (p w : Nat) (d : BitVec 256) : State := s.writeLE (s.winKey p w) 32 d.toNat

/-- The window's byte 0 at its owner. -/
def descBase (d : BitVec 256) : Nat := fld (dw d 0) 16 40 * 2 ^ 16
/-- The window's length. -/
def descLen (d : BitVec 256) : Nat := fld (dw d 1) 16 25 * 2 ^ 16
/-- The window's key. -/
def descKey (d : BitVec 256) : BitVec 32 := (dw d 2).extractLsb' 0 32
/-- The window's generation. -/
def descGen (d : BitVec 256) : BitVec 8 := (dw d 2).extractLsb' 32 8
/-- The window's STATE field. -/
def descState (d : BitVec 256) : Nat := fld (dw d 2) 45 2
/-- The descriptor's ASID field. -/
def descAsid (d : BitVec 256) : BitVec 16 := (dw d 3).extractLsb' 16 16
/-- The ticket timeout in tk (R49, R159). -/
def descTmo (d : BitVec 256) : Nat := 1000 * (if fld (dw d 3) 0 16 = 0 then 10000 else fld (dw d 3) 0 16)
/-- A descriptor with its STATE field replaced. -/
def descWithState (d : BitVec 256) (st : Nat) : BitVec 256 := setDw d 2 (setFld (dw d 2) 45 2 st)

/-- Whether a descriptor permits an access (R160): 0 read, 1 write, 2 atomic, 3 fetch. -/
def descPermits (d : BitVec 256) (access : Nat) : Bool :=
  let f := dw d 2
  match access with
  | 0 => f.getLsbD 40
  | 1 => f.getLsbD 41
  | 2 => f.getLsbD 40 && f.getLsbD 41 && f.getLsbD 42
  | _ => !f.getLsbD 43

/-- Whether an atomic may reach the host (R172): ADD on an integer type, XCHG and CAS. -/
def hostAtomic (aop type : Nat) : Bool := (aop = 0 && type != 11) || aop = 6 || aop = 7

/-- The first check of R160 that a lane fails: 0 that the interface is enabled, then 1 to 5 the rows of the table. -/
def State.failedCheck (s : State) (asid : BitVec 16) (va : BitVec 64) (bytes access : Nat) : Option Nat :=
  let p := vaPeer va
  let l1 := s.level1 p
  let d := s.winDesc p (vaWin va)
  if !s.efiOn then some 0
  else if p ≠ 1023 ∧ level1State l1.2 ≠ 1 then some 1
  else if p ≠ 1023 ∧ !l1.1.getLsbD (planeOf va) then some 2
  else if descState d ≠ 1 ∨ descAsid d ≠ asid ∨ (p ≠ 1023 ∧ fld (dw d 2) 47 8 ≠ fld l1.2 12 8) then some 3
  else if descLen d < vaOff va + bytes then some 4
  else if !descPermits d access then some 5
  else none

/-- The CAUSE of a failed check (R160). -/
def checkCause (check : Nat) : Nat := if check ≤ 3 then 0x19 else 0x17

/-- The checks of R160 for a lane: the cause of the first that fails, or the window's descriptor. -/
def State.checkFabric (s : State) (asid : BitVec 16) (va : BitVec 64) (bytes access : Nat) : Except Nat (BitVec 256) :=
  match s.failedCheck asid va bytes access with
  | some n => .error (checkCause n)
  | none => .ok (s.winDesc (vaPeer va) (vaWin va))

/-! ### Lines of an operation -/

/-- The ACCESS code of an operation (R38). -/
def MemOp.access (o : MemOp) : Nat :=
  match o.kind with
  | .store => 1
  | .atomic => 2
  | .fetch => 3
  | _ => 0

/-- Add a lane to the lines of an operation, in ascending line address (R82). -/
def addLane (mk : LaneAcc → FabLine) (l : LaneAcc) : List FabLine → List FabLine
  | [] => [mk l]
  | f :: rest =>
    if f.line = lineOf l.addr then { f with lanes := f.lanes ++ [l.lane], mask := f.mask ||| (mk l).mask } :: rest
    else if (lineOf l.addr).toNat < f.line.toNat then mk l :: f :: rest
    else f :: addLane mk l rest

/-- The AT packets of an atomic's lanes on one line (R348), as lanes: lanes that name one element go in successive packets,
and each lane of a host atomic in a packet of its own (R172). -/
def packetsOf (host : Bool) (ls : List LaneAcc) : List (List Nat) :=
  let rank (l : LaneAcc) : Nat := (ls.filter fun m => decide (m.lane < l.lane) && (host || m.addr = l.addr)).length
  ((List.range ls.length).map fun i => (ls.filter fun l => rank l = i).map LaneAcc.lane).filter fun p => !p.isEmpty

/-- A line of an operation with its lanes set out in packets (R348). -/
def FabLine.inPackets (f : FabLine) (o : MemOp) : FabLine :=
  if o.kind = .atomic then
    match packetsOf f.host (o.lanes.filter fun l => f.lanes.contains l.lane) with
    | p :: ps => { f with lanes := p, later := ps }
    | [] => f
  else f

/-- The fabric lines of an operation in ascending line address (R82), each with what its request carries. -/
def State.fabLines (s : State) (o : MemOp) : List FabLine :=
  let mk (l : LaneAcc) : FabLine :=
    let va := l.addr
    let p := vaPeer va
    let d := s.winDesc p (vaWin va)
    { line := lineOf va, lanes := [l.lane], later := [], mask := 1#64 <<< (l.lane / o.per), at_ := .queued,
      replayOf := none, sect := 0, joined := 0, kept := false,
      firstTicket := none, tmo := descTmo d, node := if p = 1023 then 1023 else fld (s.level1 p).2 2 10,
      own := BitVec.ofNat 50 ((descBase d + vaOff va) / 64), key := descKey d, gen := descGen d,
      fc := (dw d 2).getLsbD 44 && p != 1023, host := p = 1023, joinable := false }
  ((o.lanes.filter fun l => l.at_ = .fabric).foldl (fun ls l => addLane mk l ls) []).map fun f => f.inPackets o

/-- The lane entries that the packet of a line under way still serves. -/
def MemOp.lineLanes (o : MemOp) (f : FabLine) : List LaneAcc :=
  o.lanes.filter fun l => f.lanes.contains l.lane && l.at_ != .done

/-- The lane entries of a line's ticket-table entry (R46) that are not done: those of every packet. -/
def MemOp.entryLanes (o : MemOp) (f : FabLine) : List LaneAcc :=
  o.lanes.filter fun l => (f.lanes.contains l.lane || f.later.any (·.contains l.lane)) && l.at_ != .done

/-- The sectors that n bytes at an address touch, as a mask of the line. -/
def sectMask (va : BitVec 64) (n : Nat) : Nat :=
  ((List.range 4).map fun q => if va.toNat % 64 < 16 * q + 16 ∧ 16 * q < va.toNat % 64 + n then 2 ^ q else 0).sum

/-- Put n bytes of a value into a line at a byte position. -/
def linePut (d : BitVec 512) (pos n v : Nat) : BitVec 512 :=
  let m : BitVec 512 := BitVec.ofNat 512 (2 ^ (8 * n) - 1) <<< (8 * pos)
  (d &&& ~~~m) ||| (BitVec.ofNat 512 (v % 2 ^ (8 * n)) <<< (8 * pos))

/-- Take n bytes of a line from a byte position. -/
def lineGet (d : BitVec 512) (pos n : Nat) : Nat := (d >>> (8 * pos)).toNat % 2 ^ (8 * n)

/-- The sectors of a line that lane entries of an operation touch. -/
def MemOp.sectOf (o : MemOp) (ls : List LaneAcc) : BitVec 4 :=
  BitVec.ofNat 4 (ls.foldl (fun m l => m ||| sectMask l.addr o.bytes) 0)

/-- The sectors of a line that an operation still needs. -/
def MemOp.lineSect (o : MemOp) (f : FabLine) : BitVec 4 := o.sectOf (o.lineLanes f)

/-- The request of a line (R161): RD for its sectors, WR or AT, the replay of a ticket where one is named. -/
def State.lineFlit (s : State) (o : MemOp) (f : FabLine) (tag : BitVec 12) (ticket : Option (BitVec 16)) : Flit :=
  let ls := o.lineLanes f
  let typ := match o.kind with | .store => 2 | .atomic => 3 | _ => 1
  { flitOf typ s.node f.node with
    plane := BitVec.ofNat 6 (planeOf f.line), win := BitVec.ofNat 6 (vaWin f.line), gen := f.gen, tag := tag, core := BitVec.ofNat 10 o.core,
    scope := BitVec.ofNat 3 o.scope, key := f.key, ticket := ticket.getD 0, slot := BitVec.ofNat 4 o.slot,
    sect := if typ = 1 then f.sect else 0,
    order := BitVec.ofNat 2 o.order, replay := ticket.isSome, nf := o.kind = .nfload, line := f.own,
    aop := if typ = 3 then BitVec.ofNat 3 o.aop else 0, atype := if typ = 3 then BitVec.ofNat 5 o.type else 0,
    bmask := if typ = 1 then 0
      else ls.foldl (fun m l => m ||| (BitVec.ofNat 64 (2 ^ o.bytes - 1) <<< (l.addr.toNat % 64))) 0,
    pois := if typ = 2 then BitVec.ofNat 4 (ls.foldl (fun m l => if l.pois then m ||| sectMask l.addr o.bytes else m) 0)
      else 0,
    data := if typ = 1 then 0 else ls.foldl (fun d l => linePut d (l.addr.toNat % 64) o.bytes l.data.toNat) 0,
    cmp := if typ = 3 ∧ o.aop = 7 then ls.foldl (fun d l => linePut d (l.addr.toNat % 64) o.bytes l.cmp.toNat) 0 else 0 }

/-- Perform a request on the data of a line (R144, R145, R168): the line after, its poisoned sectors after, the data of
the response and its poisoned sectors. -/
def flitPerform (f : Flit) (data : BitVec 512) (pois : BitVec 4) : BitVec 512 × BitVec 4 × BitVec 512 × BitVec 4 :=
  if f.typ = 1 then (data, pois, data, pois &&& f.sect)
  else if f.typ = 2 then
    let m := (List.range 64).foldl (fun d i => if f.bmask.getLsbD i then linePut d i 1 (lineGet f.data i 1) else d) data
    let whole : BitVec 4 := BitVec.ofNat 4 (((List.range 4).map fun q =>
      if f.bmask.extractLsb' (16 * q) 16 = BitVec.allOnes 16 then 2 ^ q else 0).sum)
    (m, (pois &&& ~~~whole) ||| f.pois, 0, 0)
  else
    let n := if is64 f.atype.toNat then 8 else 4
    let r := (List.range (64 / n)).foldl (fun (r : BitVec 512 × BitVec 512 × BitVec 4) i =>
      let pos := i * n
      if f.bmask.getLsbD pos then
        let old := lineGet data pos n
        if pois.getLsbD (pos / 16) then (r.1, linePut r.2.1 pos n old, r.2.2 ||| (1#4 <<< (pos / 16)))
        else (linePut r.1 pos n (atomicOp f.aop.toNat f.atype.toNat old (lineGet f.data pos n) (lineGet f.cmp pos n)),
          linePut r.2.1 pos n old, r.2.2)
      else r) (data, 0, 0)
    (r.1, pois, r.2.1, r.2.2)

/-! ### Settling a line -/

/-- Change a line of an operation. -/
def State.modLine (s : State) (k j : Nat) (f : FabLine → FabLine) : State :=
  s.modOp k fun o => { o with lines := o.lines.modify j f }

/-- Give a group a late fault (R50): it is recorded as it is detected (R253), and the group stops at its next boundary. -/
def State.lateFault (s : State) (o : MemOp) (cause : Nat) (va mask : BitVec 64) (engine : List Nat) : State :=
  (s.modGroup o.core o.slot fun g => { g with late := g.late ++ [⟨BitVec.ofNat 8 cause, .boundary, mask, engine⟩] }).emit
    (dieOf o.core) (record0 va mask o.pc o.access cause o.seq o.asid o.core o.slot)

/-- A fault of a copy that goes on outside its saved group (R227, R240): its record names the issue site, and the group
comes back stopped: in what the device keeps of it and, while the save is being written, in its image.  OP 0 restarts
every such copy with what else the group's stop restarts. -/
def State.detachedFault (s : State) (id : Nat) (c : CopyOp) (die cause : Nat) (d0 : BitVec 64) (access : Nat) : State :=
  let x := s.ctx c.asid
  let stop (old : Option Stop) : Stop := match old with
    | some st => { st with ops := st.ops ++ [id] }
    | none => ⟨BitVec.ofNat 8 cause, .boundary, 0, [id]⟩
  let s := s.setCtx c.asid { x with kept := x.kept.map fun k =>
    if k.key = c.team then
      { k with groups := k.groups.map fun g => if g.gid = c.gid then { g with stop := some (stop g.stop) } else g }
    else k }
  let s := match c.detached with
    | some (_, image) => if image = 0 then s else s.write64 image (s.read64 image ||| 1#64 <<< 63)
    | none => s
  s.emit die (record0 d0 0 c.pc access cause c.seq c.asid c.core c.site)

/-- Drop memory operations; a request of theirs that is still outstanding keeps its tag and its window busy until it is
answered (R56, R161). -/
def State.dropMemops (s : State) (dead : Nat × MemOp → Bool) : State :=
  { s with
    memops := s.memops.filter fun e => !dead e
    orphans := s.orphans ++ (s.memops.filter dead).flatMap fun e => e.2.lines.filter fun f => match f.at_ with | .sent _ => true | _ => false }

/-- Drop the memory operation of an engine's operation: it begins its chunk or K-step again. -/
def State.engineDrop (s : State) (cls id : Nat) : State :=
  let s := s.dropMemops fun e => e.2.engine = some (cls, id)
  if cls = 0 then { s with copies := Tab.modify s.copies id fun c => { c with wait := none, buf := [] } }
  else if cls = 2 then s
  else { s with matops := Tab.modify s.matops id fun m => { m with wait := none } }

/-- Stop an engine's operation at its chunk or K-step (R90, R382): its memory operation is dropped, and a loop that shared
its fetch resumes alone (R383). -/
def State.engineStop (s : State) (cls id : Nat) : State :=
  let s := s.engineDrop cls id
  if cls = 0 then { s with copies := Tab.modify s.copies id fun c => { c with stopped := true } }
  else if cls = 2 then s
  else { s with matops := Tab.modify s.matops id fun m => { m with stopped := true, mates := [], fetched := [] } }

/-- Whether a fault of a matrix loop holds it at its K-step without a record (R185): it runs into a shadow, and its region
is not decided to commit. -/
def State.engineHeld (s : State) (id : Nat) : Bool :=
  match Tab.find s.matops id with
  | some m => (m.op = 5 || m.op = 6) && m.shadow && ((s.group m.core m.slot).bind Group.spec).any fun p => p.decided != some true
  | none => false

/-- A TYPE 4 trace record (R446): the ticket, its owner and what happened to it. -/
def State.traceTicket (s : State) (o : MemOp) (ticket : BitVec 16) (node what : Nat) : State :=
  match s.group o.core o.slot with
  | some g => if o.engine.isNone then s.trace g 2 4 o.pc o.seq (ticket.toNat + node * 2 ^ 16 + what * 2 ^ 26) else s
  | none => s

/-- A line after some of its lanes are done: with a packet or sectors left it waits to be sent again, marked as a replay of
the ticket that is being replayed; else its ticket-table entry is released (R46, R348). -/
def State.lineGoesOn (s : State) (k j : Nat) (own : Bool) : State :=
  match Tab.find s.memops k with
  | some o => s.modLine k j fun f =>
    if !(o.lineLanes f).isEmpty then (if own then { f with at_ := .queued, sect := 0 } else f)
    else match f.later with
      | [] => { f with at_ := .done, kept := false }
      | p :: ps => { f with lanes := p, later := ps, sect := 0, at_ := match f.replayOf with | some t => .noticed t | none => .queued }
  | none => s

/-- Settle lane entries of a line with poison (R49, R164) for a cause: loads and atomics fill poisoned, stores are not
performed, the group has a late fault; a fetch stops its group precisely (R281); an engine's operation stops at its
chunk. -/
def State.settleLanes (s : State) (k j cause : Nat) (which : MemOp → FabLine → List LaneAcc) : State :=
  match Tab.find s.memops k with
  | some o =>
    match o.lines[j]? with
    | some f =>
      let ls := which o f
      let va := (ls.head?.map (·.addr)).getD f.line
      match o.engine with
      | some (cls, id) =>
        if cls = 1 && s.engineHeld id then s.engineDrop cls id
        else
          match (if cls = 0 then Tab.find s.copies id else none) with
          | some c =>
            if c.detached.isSome then (s.detachedFault id c (dieOf c.core) cause va o.access).engineStop cls id
            else (s.lateFault o cause va 0 [id]).engineStop cls id
          | none => (s.lateFault o cause va 0 (if cls = 2 then [] else [id])).engineStop cls id
      | none =>
        if o.kind = .fetch then
          let s := { s with memops := Tab.drop s.memops k }
          match s.group o.core o.slot with
          | some g => s.stopPrecise { g with ibufWait := none } (dieOf g.core) cause va 0 3
          | none => s
        else
          let d := s.drawFree
          let x := (Config.freeValue d.2).toNat
          let s := ls.foldl (fun s l =>
            let s := if o.kind = .store ∨ o.kind = .bitmap then s else s.fillLane o l.lane x true
            s.modOp k fun o => o.onLanes (fun m => m.lane = l.lane) fun m =>
              { m with data := if o.kind = .store then m.data else BitVec.ofNat 128 x
                       pois := if o.kind = .store then m.pois else true, ok := false, at_ := .done }) d.1
          let s := (s.modLine k j fun f => { f with lanes := f.lanes ++ f.later.flatten, later := [] }).lineGoesOn k j true
          (s.lateFault o cause va (o.maskFor ls) []).finishOp k
    | none => s
  | none => s

/-- Settle a line's whole entry with poison: one ticket covers every lane of the instruction on the line (R46, R49). -/
def State.settleLine (s : State) (k j cause : Nat) : State := s.settleLanes k j cause MemOp.entryLanes

/-- A fetched instruction word reaches its group (R281): it joins the words buffered for the PC. -/
def State.fetchFill (s : State) (o : MemOp) (w : Word) : State :=
  s.modGroup o.core o.slot fun g =>
    let ws := match g.ibuf with | some (pc, ws) => if pc = o.pc then ws else [] | none => []
    { g with ibuf := some (o.pc, ws ++ [w]), ibufWait := none, waiting := false }

/-- The lane entries of an operation on a line that lie in some sectors. -/
def MemOp.inSect (sect : BitVec 4) (o : MemOp) (f : FabLine) : List LaneAcc :=
  (o.lineLanes f).filter fun l => BitVec.ofNat 4 (sectMask l.addr o.bytes) &&& sect != 0

/-- Settle the lanes of a line in some sectors with the data of a response (R85, R164), its own or one that it joined: a
non-resident non-faulting read gives zero (R35); a refusal settles the lanes that the request was for, those of the AT
packets to come among them. -/
def State.answerLine (s : State) (k j : Nat) (sect : BitVec 4) (own : Bool) (data : BitVec 512) (pois : BitVec 4)
    (status : Nat) : State :=
  match Tab.find s.memops k with
  | some o =>
    match o.lines[j]? with
    | some f =>
      if status = 0 ∨ (status = 0x11 ∧ o.kind = .nfload) then
        let s := (o.inSect sect f).foldl (fun s l =>
          let pos := l.addr.toNat % 64
          let x := if status = 0x11 then 0 else lineGet data pos o.bytes
          let pz := status != 0x11 && pois.getLsbD (pos / 16)
          let s := match o.kind with
            | .load | .nfload | .atomic => s.fillLane o l.lane x pz
            | .fetch => s.fetchFill o (BitVec.ofNat 32 x)
            | _ => s
          s.modOp k fun o => o.onLanes (fun m => m.lane = l.lane) fun m =>
            { m with
              data := if o.kind = .store then m.data else BitVec.ofNat 128 x
              pois := if o.kind = .store then m.pois else pz
              ok := status = 0 && !(o.kind = .atomic && pz), at_ := .done }) s
        (s.lineGoesOn k j own).finishOp k
      else s.settleLanes k j status fun o f => if f.later.isEmpty then o.inSect sect f else o.entryLanes f
    | none => s
  | none => s

/-! ### Sending -/

/-- Whether an operation's requests for a line are loads (R84). -/
def MemOp.isLoad (o : MemOp) : Bool :=
  o.engine.isNone && match o.kind with | .load | .nfload | .bitmap => true | _ => false

/-- Whether a request has been sent for a line. -/
def FabLine.isSent (f : FabLine) : Bool := match f.at_ with | .sent _ => true | _ => false

/-- Whether two lines name one line of one window. -/
def FabLine.sameAs (x f : FabLine) : Bool := x.line = f.line && x.own = f.own && x.gen = f.gen

/-- The sectors of a line that requests of a core's loads for an ASID await (R84); with `new`, those that a request which
is made now still joins. -/
def MemOp.awaits (p : MemOp) (core : Nat) (asid : BitVec 16) (f : FabLine) (new : Bool) : BitVec 4 :=
  if p.isLoad && p.core = core && p.asid = asid then
    p.lines.foldl (fun m x => if x.isSent && x.sameAs f && (!new || x.joinable) then m ||| x.sect else m) 0
  else 0

/-- The sectors of a load's line that the core awaits already (R84). -/
def State.awaited (s : State) (o : MemOp) (f : FabLine) (new : Bool) : BitVec 4 :=
  if o.isLoad then s.memops.foldl (fun m e => m ||| e.2.awaits o.core o.asid f new) 0 else 0

/-- After a write of a line by a core, no later request joins what the core awaits of it (R84, R127). -/
def State.lineOld (s : State) (core : Nat) (line : BitVec 64) : State :=
  { s with memops := s.memops.map fun e =>
      if e.2.core = core then
        (e.1, { e.2 with lines := e.2.lines.map fun f => if f.line = line then { f with joinable := false } else f })
      else e }

/-- Whether a line of a tag is outstanding on a plane (R161). -/
def State.tagUsed (s : State) (plane : Nat) (tag : BitVec 12) : Bool :=
  let holds (f : FabLine) : Bool := planeOf f.line = plane && f.at_ = .sent tag
  (s.memops.any fun e => e.2.lines.any holds) || s.orphans.any holds

/-- The next free tag of a plane from a number, trying `fuel`. -/
def State.freeTag (s : State) (plane : Nat) (t : BitVec 12) : Nat → Option (BitVec 12)
  | 0 => none
  | n + 1 => if s.tagUsed plane t then State.freeTag s plane (t + 1) n else some t

/-- The contiguous runs of set bits of a byte mask, ascending (R172), from position i with `fuel` left. -/
def maskRuns (m : BitVec 64) (i : Nat) : Nat → List (BitVec 64) → List (BitVec 64)
  | 0, acc => acc.reverse
  | n + 1, acc =>
    if m.getLsbD i then
      match acc, i ≠ 0 && m.getLsbD (i - 1) with
      | r :: rest, true => maskRuns m (i + 1) n ((r ||| (1#64 <<< i)) :: rest)
      | _, _ => maskRuns m (i + 1) n ((1#64 <<< i) :: acc)
    else maskRuns m (i + 1) n acc

/-- The key by which a directory knows a fabric line (R167): plane, owner node and LINE. -/
def l2Key (plane node : Nat) (own : BitVec 50) : Nat := (plane * 1024 + node) * 2 ^ 50 + own.toNat

/-- No line. -/
def SliceLine.none : SliceLine :=
  { data := 0, pois := 0, valid := 0, dirty := 0, holders := [], excl := Option.none, win := 0, gen := 0, key := 0, perm := 0 }

/-- The package's L2 copy of a fabric line (R167). -/
def State.l2Copy (s : State) (f : FabLine) : SliceLine := Tab.get SliceLine.none s.fabDir (l2Key (planeOf f.line) f.node f.own)

/-- Serve the packets of a line of a fabric-coherent window from the package's L2 copy, one after another (R348), when it
holds the sectors and, for a write or atomic, the ownership (R124, R167); `fuel` packets at most. -/
def State.l2Serve (s : State) (k j : Nat) : Nat → Option State
  | 0 => none
  | n + 1 =>
    match (Tab.find s.memops k).bind fun o => o.lines[j]?.map fun f => (o, f) with
    | none => none
    | some (o, f) =>
      let c := s.l2Copy f
      let sect := o.lineSect f
      let q := s.lineFlit o { f with sect := sect } 0 none
      if f.at_ != .done && c.valid &&& sect = sect && (q.typ = 1 || c.excl.isSome) then
        let r := flitPerform q c.data c.pois
        let c := if q.typ = 1 then c else { c with data := r.1, pois := r.2.1, dirty := c.dirty ||| sect }
        let t := { s with fabDir := Tab.set SliceLine.none s.fabDir (l2Key (planeOf f.line) f.node f.own) c }.answerLine
          k j sect true r.2.2.1 r.2.2.2 0
        some ((State.l2Serve t k j n).getD t)
      else none

/-- Serve a line from the package's L2 copy, every packet of it (R167). -/
def State.l2ServeAll (s : State) (k j : Nat) (f : FabLine) : Option State := s.l2Serve k j (f.later.length + 1)

/-- Send the request of a line for some sectors (R152, R161, R167, R172). -/
def State.sendLine (s : State) (k j : Nat) (o : MemOp) (f : FabLine) (sect : BitVec 4) (ticket : Option (BitVec 16)) : State :=
  let plane := planeOf f.line
  match s.freeTag plane s.txTag 4096 with
  | none => s
  | some tag =>
    let q := s.lineFlit o { f with sect := sect } tag ticket
    let s := if o.isLoad then s else s.lineOld o.core f.line
    let s := (s.modLine k j fun f => { f with at_ := .sent tag, sect := sect, replayOf := ticket, joinable := o.isLoad && ticket.isNone })
    let s := { s with txTag := tag + 1 }
    if f.host then
      { s with pcie := s.pcie ++
          if q.typ = 2 then (maskRuns q.bmask 0 64 []).map fun m => { q with bmask := m } else [q] }
    else if f.fc then
      s.send { q with
        typ := 1, fc := true, excl := q.typ != 1, sect := sect, bmask := 0, pois := 0, aop := 0, atype := 0,
        data := 0, cmp := 0 }
    else s.send q

/-- Whether an earlier unsettled line of the same group on the same fabric line holds this one back (R48, R51): `kept`
asks whether one of them is kept for a ticket.  A load of sectors that the earlier load awaits may join what it awaits, and
goes behind its request; nothing else passes what has not been sent, nor an unsettled access of a fabric-coherent line,
which its L2 copy may serve (R127). -/
def State.behindLine (s : State) (k : Nat) (o : MemOp) (f : FabLine) (kept : Bool) : Bool :=
  let joins := s.awaited o f true
  let unsent (p : MemOp) (x : FabLine) : Bool :=
    let left := p.lineSect x &&& ~~~(if x.isSent then x.sect else 0)
    !x.later.isEmpty || (if p.isLoad && o.isLoad then left &&& o.lineSect f &&& ~~~joins != 0 else !x.isSent || left != 0)
  let holds (p : MemOp) (x : FabLine) : Bool := x.line = f.line && (match x.at_ with
    | .done => false
    | .queued => x.kept || (!kept && unsent p x)
    | .sent _ => x.kept || (!kept && (f.fc || unsent p x))
    | _ => true)
  o.engine.isNone && (s.accessesOf o.core o.slot).any fun e => decide (e.1 < k) && e.2.lines.any (holds e.2)

/-- Whether a younger access waits for a ticketed acquire of its group, or, as a release, for any ticket (R46, R52,
R53). -/
def State.behindTicket (s : State) (k : Nat) (o : MemOp) : Bool :=
  (s.accessesOf o.core o.slot).any fun e => decide (e.1 < k) && e.2.ticketed && { o with lanes := [] }.waitsFor e.2

/-- Try to send a line that waits (R48, R51 to R53, R128, R152); one that waits behind a ticket is kept (R46, R51), and one
whose sectors the core awaits already joins that request (R84). -/
def State.trySend (s : State) (kj : Nat × Nat) : State :=
  let (k, j) := kj
  match Tab.find s.memops k with
  | some o =>
    match o.lines[j]? with
    | some f =>
      let usable := f.host || s.mayLeave (planeOf f.line)
      match f.at_ with
      | .noticed t =>
        if usable && !s.behindLine k o f false then
          let u := s.sendLine k j o f (o.lineSect f) (some t)
          if f.replayOf = some t then u
          else (u.traceTicket o t f.node 1).bump o.core 0x00B (if o.engine.isNone then 1 else 0)
        else s
      | .queued =>
        if o.engine.isNone && (s.behindLine k o f true || s.behindTicket k o) then
          let u := s.modLine k j fun f => { f with kept := true }
          if f.kept then u else u.traceTicket o 0 f.node 0
        else if !s.behindLine k o f false && s.mayPerform k { o with lanes := [] } then
          match (if f.fc then s.l2ServeAll k j f else none) with
          | some t => t
          | none =>
            let miss := if f.fc && o.isLoad then o.lineSect f &&& ~~~(s.l2Copy f).valid else o.lineSect f
            let joined := miss &&& ((f.joined &&& s.awaited o f false) ||| s.awaited o f true)
            let u := s.modLine k j fun f => { f with joined := joined }
            if miss &&& ~~~joined = 0 && o.isLoad then u
            else if usable then u.sendLine k j o f (miss &&& ~~~joined) none
            else u
        else s
      | _ => s
    | none => s
  | none => s

/-- Answer the PROBEs that waited for releases which have been performed since (R169). -/
def State.answerProbes (s : State) : State :=
  if s.probeHeld.isEmpty then s
  else
    let open_ (e : Flit × List Nat) : Bool := e.2.any fun k => (Tab.find s.memops k).isSome
    State.sendAll { s with probeHeld := s.probeHeld.filter open_ } ((s.probeHeld.filter fun e => !open_ e).map (·.1))

/-- Send every packet and every line that may go. -/
def State.pump (s : State) : State :=
  let s := s.answerProbes.sendHeld
  if s.memops.all fun e => e.2.lines.isEmpty then s
  else
    (s.memops.flatMap fun e => (List.range e.2.lines.length).map fun j => (e.1, j)).foldl State.trySend s

/-- The ticket-table entries that a core's accesses hold (R46): one a distinct fabric line of an instruction. -/
def State.ticketEntries (s : State) (core : Nat) : Nat :=
  (s.memops.map fun e =>
    if e.2.core = core ∧ e.2.engine.isNone then (e.2.lines.filter fun f => f.at_ != .done).length else 0).sum

/-- The operation and line that a tag of a plane names. -/
def State.byTag (s : State) (plane : Nat) (tag : BitVec 12) : Option (Nat × Nat) :=
  (s.memops.flatMap fun e => (List.range e.2.lines.length).filterMap fun j =>
    match e.2.lines[j]? with
    | some f => if planeOf f.line = plane ∧ f.at_ = .sent tag then some (e.1, j) else none
    | none => none).head?

end Sys2Proof.Machine
end

