-- ==== Sys2Proof/Machine/Scalar.lean ====
section
/-!
DEFINITION. Scalar integer instructions, majors 0x07 to 0x11 (R313 to R317).
-/
namespace Sys2Proof.Machine

/-- A scalar result: the value, the exceptions and poison beyond that of the sources. -/
abbrev SRes : Type := BitVec 64 × Exc × Bool

/-- A plain scalar result without exceptions. -/
def SRes.of (v : BitVec 64) : SRes := (v, 0, false)

/-- A scalar truth value (R313). -/
def SRes.bool (b : Bool) : SRes := SRes.of (if b then 1 else 0)

/-- A scalar instruction of two sources (R313): wa and wb gate them, poison of a source poisons the result, flags are
raised in the group.  `readsD` adds the old destination as a source that waits (R193, R315). -/
def scalarTwo (i : Instr) (x : Pfx) (r : RRR) (readsD : Bool) (f : Group → BitVec 64 → BitVec 64 → BitVec 64 → SRes) :
    State → Host.Outcome State Fault Refusal :=
  issueG i fun g => do
    let q := rrrAt r x g.repIdx
    let d := q.d.toNat
    let a := q.a.toNat
    let b := q.b.toNat
    gate g x false [(.s a 1, q.wa), (.s b 1, q.wb)] [.s d 1]
    let y := f g (g.sv a) (g.sv b) (g.sv d)
    return (g.writeS d y.1 (g.spois a 1 || g.spois b 1 || (readsD && g.spois d 1) || y.2.2)).raise y.2.1

/-- A scalar instruction of one source (R313). -/
def scalarOne (i : Instr) (x : Pfx) (r : RRR) (f : BitVec 64 → BitVec 64) :
    State → Host.Outcome State Fault Refusal :=
  issueG i fun g => do
    let q := rrrAt r x g.repIdx
    let d := q.d.toNat
    let a := q.a.toNat
    gate g x false [(.s a 1, q.wa)] [.s d 1]
    return g.writeS d (f (g.sv a)) (g.spois a 1)

/-- A scalar instruction of one source and an immediate (R316). -/
def scalarImm (i : Instr) (x : Pfx) (r : RI) (f : BitVec 64 → BitVec 64 × Exc) :
    State → Host.Outcome State Fault Refusal :=
  issueG i fun g => do
    let d := r.d.toNat
    let a := r.a.toNat
    gate g x false [(.s a 1, r.wa)] [.s d 1]
    let y := f (g.sv a)
    return (g.writeS d y.1 (g.spois a 1)).raise y.2

/-- How R313 reads a scalar for a TYPE: unsigned for N64, signed otherwise. -/
def scalarInt (type : BitVec 5) (v : BitVec 64) : Int := if type = 8 then (v.toNat : Int) else v.toInt

/-- An exact scalar result under clamp_int (R255, R313). -/
def scalarClamp (m : Mod) (v : Int) : BitVec 64 × Exc :=
  let c := clampInt 64 (decide (m.type ≠ 8)) m.sat v
  (BitVec.ofNat 64 c.1, c.2)

/-- clamp_int as a scalar result. -/
def SRes.clamp (m : Mod) (v : Int) : SRes :=
  let c := scalarClamp m v
  (c.1, c.2, false)

/-- The result of a scalar division by zero: IDZ, poisoned when TRAPEN.IDZ is set (R314, R234). -/
def SRes.divZero (g : Group) (v : BitVec 64) : SRes := (v, Exc.idz, g.trapen.getLsbD 6)

/-- Rotate right by an amount below the width. -/
def rotr64 (v : BitVec 64) (n : Nat) : BitVec 64 := v.rotateRight (n % 64)

/-- The reverse of a word's bits, low `n` of it (R301). -/
def revBits (v : Nat) : Nat → Nat
  | 0 => 0
  | n + 1 => v % 2 * 2 ^ n + revBits (v / 2) n

/-- The number of set bits among the low n (R301). -/
def popBits (v : Nat) : Nat → Nat
  | 0 => 0
  | n + 1 => v % 2 + popBits (v / 2) n

/-- The bit-field extract of R315 on values of width w. -/
def bitExtract (w : Nat) (sgn : Bool) (a x : Nat) : Nat :=
  let pos := x % 64
  let len := min (x / 256 % 128) w
  let f := (a >>> pos) % 2 ^ len
  if sgn && decide (0 < len) && decide (2 ^ (len - 1) ≤ f) then f + (2 ^ w - 2 ^ len) else f

/-- The bit-field insert of R315 on values of width w. -/
def bitInsert (w a x d : Nat) : Nat :=
  let pos := x % 64
  let len := min (x / 256 % 128) w
  let m := ((2 ^ len - 1) <<< pos) % 2 ^ w
  (d - (d &&& m)) ||| ((a <<< pos) &&& m)

/-- SADD: x + y under clamp_int (R313, R255). -/
def execSadd (x : Pfx) (r : RRR) (s : State) : Host.Outcome State Fault Refusal :=
  scalarTwo (.sadd x r) x r false (fun _ a b _ => SRes.clamp x.m (scalarInt x.m.type a + scalarInt x.m.type b)) s

/-- SSUB: x - y under clamp_int (R313, R255). -/
def execSsub (x : Pfx) (r : RRR) (s : State) : Host.Outcome State Fault Refusal :=
  scalarTwo (.ssub x r) x r false (fun _ a b _ => SRes.clamp x.m (scalarInt x.m.type a - scalarInt x.m.type b)) s

/-- SMUL: x * y under clamp_int (R313, R255). -/
def execSmul (x : Pfx) (r : RRR) (s : State) : Host.Outcome State Fault Refusal :=
  scalarTwo (.smul x r) x r false (fun _ a b _ => SRes.clamp x.m (scalarInt x.m.type a * scalarInt x.m.type b)) s

/-- SMULH: the signed high half of the product (R313). -/
def execSmulh (x : Pfx) (r : RRR) (s : State) : Host.Outcome State Fault Refusal :=
  scalarTwo (.smulh x r) x r false (fun _ a b _ => SRes.of (BitVec.ofInt 64 (a.toInt * b.toInt / 2 ^ 64))) s

/-- SMULHN: the unsigned high half of the product (R313). -/
def execSmulhn (x : Pfx) (r : RRR) (s : State) : Host.Outcome State Fault Refusal :=
  scalarTwo (.smulhn x r) x r false (fun _ a b _ => SRes.of (BitVec.ofNat 64 (a.toNat * b.toNat / 2 ^ 64))) s

/-- SDIV: signed division toward zero (R314). -/
def execSdiv (x : Pfx) (r : RRR) (s : State) : Host.Outcome State Fault Refusal :=
  scalarTwo (.sdiv x r) x r false (fun g a b _ => if b = 0 then SRes.divZero g (BitVec.allOnes 64) else SRes.clamp { x.m with type := 0 } (a.toInt.tdiv b.toInt)) s

/-- SDIVN: unsigned division (R314). -/
def execSdivn (x : Pfx) (r : RRR) (s : State) : Host.Outcome State Fault Refusal :=
  scalarTwo (.sdivn x r) x r false (fun g a b _ => if b = 0 then SRes.divZero g (BitVec.allOnes 64) else SRes.of (BitVec.ofNat 64 (a.toNat / b.toNat))) s

/-- SREM: the remainder with the sign of x (R314). -/
def execSrem (x : Pfx) (r : RRR) (s : State) : Host.Outcome State Fault Refusal :=
  scalarTwo (.srem x r) x r false (fun g a b _ => if b = 0 then SRes.divZero g a else SRes.of (BitVec.ofInt 64 (a.toInt.tmod b.toInt))) s

/-- SAND: bitwise and (R313). -/
def execSand (x : Pfx) (r : RRR) (s : State) : Host.Outcome State Fault Refusal :=
  scalarTwo (.sand x r) x r false (fun _ a b _ => SRes.of (a &&& b)) s

/-- SOR: bitwise or (R313). -/
def execSor (x : Pfx) (r : RRR) (s : State) : Host.Outcome State Fault Refusal :=
  scalarTwo (.sor x r) x r false (fun _ a b _ => SRes.of (a ||| b)) s

/-- SXOR: bitwise exclusive or (R313). -/
def execSxor (x : Pfx) (r : RRR) (s : State) : Host.Outcome State Fault Refusal :=
  scalarTwo (.sxor x r) x r false (fun _ a b _ => SRes.of (a ^^^ b)) s

/-- SANDN: a and not b (R313). -/
def execSandn (x : Pfx) (r : RRR) (s : State) : Host.Outcome State Fault Refusal :=
  scalarTwo (.sandn x r) x r false (fun _ a b _ => SRes.of (a &&& ~~~b)) s

/-- SSHL: shift left by S(b)[5:0] (R313). -/
def execSshl (x : Pfx) (r : RRR) (s : State) : Host.Outcome State Fault Refusal :=
  scalarTwo (.sshl x r) x r false (fun _ a b _ => SRes.of (a <<< (b.toNat % 64))) s

/-- SSHR: logical shift right by S(b)[5:0] (R313). -/
def execSshr (x : Pfx) (r : RRR) (s : State) : Host.Outcome State Fault Refusal :=
  scalarTwo (.sshr x r) x r false (fun _ a b _ => SRes.of (a >>> (b.toNat % 64))) s

/-- SSRA: arithmetic shift right by S(b)[5:0] (R313). -/
def execSsra (x : Pfx) (r : RRR) (s : State) : Host.Outcome State Fault Refusal :=
  scalarTwo (.ssra x r) x r false (fun _ a b _ => SRes.of (a.sshiftRight (b.toNat % 64))) s

/-- SROT: rotate right by S(b)[5:0] (R313). -/
def execSrot (x : Pfx) (r : RRR) (s : State) : Host.Outcome State Fault Refusal :=
  scalarTwo (.srot x r) x r false (fun _ a b _ => SRes.of (rotr64 a b.toNat)) s

/-- SMIN: signed minimum (R313). -/
def execSmin (x : Pfx) (r : RRR) (s : State) : Host.Outcome State Fault Refusal :=
  scalarTwo (.smin x r) x r false (fun _ a b _ => SRes.of (if a.toInt ≤ b.toInt then a else b)) s

/-- SMAX: signed maximum (R313). -/
def execSmax (x : Pfx) (r : RRR) (s : State) : Host.Outcome State Fault Refusal :=
  scalarTwo (.smax x r) x r false (fun _ a b _ => SRes.of (if b.toInt ≤ a.toInt then a else b)) s

/-- SMINN: unsigned minimum (R313). -/
def execSminn (x : Pfx) (r : RRR) (s : State) : Host.Outcome State Fault Refusal :=
  scalarTwo (.sminn x r) x r false (fun _ a b _ => SRes.of (if a.toNat ≤ b.toNat then a else b)) s

/-- SMAXN: unsigned maximum (R313). -/
def execSmaxn (x : Pfx) (r : RRR) (s : State) : Host.Outcome State Fault Refusal :=
  scalarTwo (.smaxn x r) x r false (fun _ a b _ => SRes.of (if b.toNat ≤ a.toNat then a else b)) s

/-- SCLZ: leading zeros; 64 for 0 (R313). -/
def execSclz (x : Pfx) (r : RRR) (s : State) : Host.Outcome State Fault Refusal :=
  scalarOne (.sclz x r) x r (fun a => BitVec.ofNat 64 (64 - bitLen a.toNat)) s

/-- SPOPC: the number of set bits (R313). -/
def execSpopc (x : Pfx) (r : RRR) (s : State) : Host.Outcome State Fault Refusal :=
  scalarOne (.spopc x r) x r (fun a => BitVec.ofNat 64 (popBits a.toNat 64)) s

/-- SBREV: the bits reversed (R313). -/
def execSbrev (x : Pfx) (r : RRR) (s : State) : Host.Outcome State Fault Refusal :=
  scalarOne (.sbrev x r) x r (fun a => BitVec.ofNat 64 (revBits a.toNat 64)) s

/-- SMOV: the value, poison moving with it (R313). -/
def execSmov (x : Pfx) (r : RRR) (s : State) : Host.Outcome State Fault Refusal :=
  scalarOne (.smov x r) x r (fun a => a) s

/-- SEQ: 1 when equal (R313). -/
def execSeq (x : Pfx) (r : RRR) (s : State) : Host.Outcome State Fault Refusal :=
  scalarTwo (.seq x r) x r false (fun _ a b _ => SRes.bool (decide (a = b))) s

/-- SNE: 1 when not equal (R313). -/
def execSne (x : Pfx) (r : RRR) (s : State) : Host.Outcome State Fault Refusal :=
  scalarTwo (.sne x r) x r false (fun _ a b _ => SRes.bool (decide (a ≠ b))) s

/-- SLT: 1 when signed less (R313). -/
def execSlt (x : Pfx) (r : RRR) (s : State) : Host.Outcome State Fault Refusal :=
  scalarTwo (.slt x r) x r false (fun _ a b _ => SRes.bool (decide (a.toInt < b.toInt))) s

/-- SLE: 1 when signed less or equal (R313). -/
def execSle (x : Pfx) (r : RRR) (s : State) : Host.Outcome State Fault Refusal :=
  scalarTwo (.sle x r) x r false (fun _ a b _ => SRes.bool (decide (a.toInt ≤ b.toInt))) s

/-- SLTN: 1 when unsigned less (R313). -/
def execSltn (x : Pfx) (r : RRR) (s : State) : Host.Outcome State Fault Refusal :=
  scalarTwo (.sltn x r) x r false (fun _ a b _ => SRes.bool (decide (a.toNat < b.toNat))) s

/-- SLEN: 1 when unsigned less or equal (R313). -/
def execSlen (x : Pfx) (r : RRR) (s : State) : Host.Outcome State Fault Refusal :=
  scalarTwo (.slen x r) x r false (fun _ a b _ => SRes.bool (decide (a.toNat ≤ b.toNat))) s

/-- SBFX: bit-field extract, signed when X[15] is 1 (R315). -/
def execSbfx (x : Pfx) (r : RRR) (s : State) : Host.Outcome State Fault Refusal :=
  scalarTwo (.sbfx x r) x r false (fun _ a b _ => SRes.of (BitVec.ofNat 64 (bitExtract 64 (b.getLsbD 15) a.toNat b.toNat))) s

/-- SBFI: bit-field insert into the old destination (R315). -/
def execSbfi (x : Pfx) (r : RRR) (s : State) : Host.Outcome State Fault Refusal :=
  scalarTwo (.sbfi x r) x r true (fun _ a b d => SRes.of (BitVec.ofNat 64 (bitInsert 64 a.toNat b.toNat d.toNat))) s

/-- SADDI: x plus the signed immediate under clamp_int (R316). -/
def execSaddi (x : Pfx) (r : RI) (s : State) : Host.Outcome State Fault Refusal :=
  scalarImm (.saddi x r) x r (fun a => scalarClamp x.m (scalarInt x.m.type a + (immSigned x.ext r.imm).toInt)) s

/-- SANDI: the source and the zero-extended immediate (R316). -/
def execSandi (e : Option (BitVec 24)) (r : RI) (s : State) : Host.Outcome State Fault Refusal :=
  scalarImm (.sandi e r) (Pfx.ofExt e) r (fun a => (a &&& immUnsigned e r.imm, 0)) s

/-- SORI: the source and the zero-extended immediate (R316). -/
def execSori (e : Option (BitVec 24)) (r : RI) (s : State) : Host.Outcome State Fault Refusal :=
  scalarImm (.sori e r) (Pfx.ofExt e) r (fun a => (a ||| immUnsigned e r.imm, 0)) s

/-- SXORI: the source and the zero-extended immediate (R316). -/
def execSxori (e : Option (BitVec 24)) (r : RI) (s : State) : Host.Outcome State Fault Refusal :=
  scalarImm (.sxori e r) (Pfx.ofExt e) r (fun a => (a ^^^ immUnsigned e r.imm, 0)) s

/-- The shift of SSHI: imm[10:9] is the kind, imm[5:0] the amount (R286, R316). -/
def shiftImm (imm : BitVec 11) (a : BitVec 64) : BitVec 64 :=
  let n := imm.toNat % 64
  match imm.toNat / 512 with
  | 0 => a <<< n
  | 1 => a >>> n
  | 2 => a.sshiftRight n
  | _ => rotr64 a n

/-- SSHI: shift or rotate by an immediate (R316). -/
def execSshi (r : RI) (s : State) : Host.Outcome State Fault Refusal :=
  scalarImm (.sshi r) Pfx.none r (fun a => (shiftImm r.imm a, 0)) s

/-- SLI: the sign-extended immediate (R317). -/
def execSli (e : Option (BitVec 24)) (r : LI) (s : State) : Host.Outcome State Fault Refusal :=
  issueG (.sli e r) (fun g => do
    gate g Pfx.none false [] [.s r.d.toNat 1]
    return g.writeS r.d.toNat (immSigned e r.imm) false) s

/-- SLIH: the register shifted left by 19 with the immediate in the low bits; the register waits (R317). -/
def execSlih (r : LI) (s : State) : Host.Outcome State Fault Refusal :=
  issueG (.slih r) (fun g => do
    let d := r.d.toNat
    gate g Pfx.none false [(.s d 1, false)] [.s d 1]
    return g.writeS d ((g.sv d <<< 19) ||| r.imm.zeroExtend 64) (g.spois d 1)) s

end Sys2Proof.Machine
end

