-- ==== Sys2Proof/Machine/Vector.lean ====
section
/-!
DEFINITION. Vector integer and move instructions, majors 0x15 to 0x19 (R315, R318 to R321).
-/
namespace Sys2Proof.Machine

/-- The type code in force, with the entry's default for 0 (R302). -/
def typeOr (x : Pfx) (dflt : Nat) : Nat := if x.m.type = 0 then dflt else x.m.type.toNat

/-- Whether an integer type code is signed (R254). -/
def isSigned (t : Nat) : Bool := t = 1 || t = 3 || t = 5 || t = 7

/-- The width of an integer type code in a lane element of majors 0x15 to 0x21 (R302, R303). -/
def laneBits (t : Nat) : Nat := if is64 t then 64 else 32

/-- The registers of an element. -/
def laneRegs (t : Nat) : Nat := if is64 t then 2 else 1

/-- A lane's result: the element as an unsigned number, exceptions and poison. -/
abbrev LRes : Type := Nat × Exc × Bool

/-- Write each active lane's result, computed from the group as it was before (R13), and raise its exceptions. -/
def Group.writeLanes (g : Group) (act : BitVec 64) (d type : Nat) (f : Nat → LRes) : Group :=
  g.eachLane act fun h l =>
    let y := f l
    (h.writeElem d l type y.1 y.2.2).raise y.2.1

/-- A vector integer instruction of two sources (R318); `f` gets the type code, then x, y and the old destination as
unsigned elements; `readsD` makes the destination a source. -/
def vecTwo (i : Instr) (x : Pfx) (r : RRR) (readsD : Bool) (f : Nat → Nat → Nat → Nat → Nat × Exc) :
    State → Host.Outcome State Fault Refusal :=
  issueG i fun g => do
    let q := rrrAt r x g.repIdx
    let d := q.d.toNat
    let a := q.a.toNat
    let b := q.b.toNat
    let t := typeOr x 5
    let n := laneRegs t
    let w := laneBits t
    let act := g.active x
    gate g x true [(.v a n act, q.wa), (.v b n act, q.wb)] [.v d n act]
    return g.writeLanes act d t fun l =>
      let y := f t (g.velem a l t w) (g.velem b l t w) (g.velem d l t w)
      (y.1, y.2, g.vpois a n l || g.vpois b n l || (readsD && g.vpois d n l))

/-- A vector integer instruction of one source (R318). -/
def vecOne (i : Instr) (x : Pfx) (r : RRR) (f : Nat → Nat → Nat × Exc) : State → Host.Outcome State Fault Refusal :=
  issueG i fun g => do
    let q := rrrAt r x g.repIdx
    let d := q.d.toNat
    let a := q.a.toNat
    let t := typeOr x 5
    let n := laneRegs t
    let act := g.active x
    gate g x true [(.v a n act, q.wa)] [.v d n act]
    return g.writeLanes act d t fun l =>
      let y := f t (g.velem a l t (laneBits t))
      (y.1, y.2, g.vpois a n l)

/-- A lane element as the integer its type shows. -/
def laneInt (t v : Nat) : Int := decodeInt (laneBits t) (isSigned t) v

/-- clamp_int of a lane result (R255). -/
def laneClamp (x : Pfx) (t : Nat) (v : Int) : Nat × Exc := clampInt (laneBits t) (isSigned t) x.m.sat v

/-- A value modulo the element width, without exceptions. -/
def laneWrap (t : Nat) (v : Int) : Nat × Exc := (encodeInt (laneBits t) v, 0)

/-- An unsigned lane element, without exceptions. -/
def lanePlain (v : Nat) : Nat × Exc := (v, 0)

/-- Rotate an element right by an amount below its width. -/
def laneRot (t v n : Nat) : Nat :=
  let w := laneBits t
  (v >>> n) ||| ((v <<< (w - n)) % 2 ^ w)

/-- VADD: x + y under clamp_int (R318). -/
def execVadd (x : Pfx) (r : RRR) (s : State) : Host.Outcome State Fault Refusal :=
  vecTwo (.vadd x r) x r false (fun t a b _ => laneClamp x t (laneInt t a + laneInt t b)) s

/-- VSUB: x - y under clamp_int (R318). -/
def execVsub (x : Pfx) (r : RRR) (s : State) : Host.Outcome State Fault Refusal :=
  vecTwo (.vsub x r) x r false (fun t a b _ => laneClamp x t (laneInt t a - laneInt t b)) s

/-- VMUL: x * y under clamp_int (R318). -/
def execVmul (x : Pfx) (r : RRR) (s : State) : Host.Outcome State Fault Refusal :=
  vecTwo (.vmul x r) x r false (fun t a b _ => laneClamp x t (laneInt t a * laneInt t b)) s

/-- VMULH: the high half of the product (R318). -/
def execVmulh (x : Pfx) (r : RRR) (s : State) : Host.Outcome State Fault Refusal :=
  vecTwo (.vmulh x r) x r false (fun t a b _ => laneWrap t (laneInt t a * laneInt t b / (2 ^ laneBits t : Nat))) s

/-- VMAD: x * y plus the old destination under clamp_int (R318). -/
def execVmad (x : Pfx) (r : RRR) (s : State) : Host.Outcome State Fault Refusal :=
  vecTwo (.vmad x r) x r true (fun t a b d => laneClamp x t (laneInt t a * laneInt t b + laneInt t d)) s

/-- VMIN: minimum by type (R318). -/
def execVmin (x : Pfx) (r : RRR) (s : State) : Host.Outcome State Fault Refusal :=
  vecTwo (.vmin x r) x r false (fun t a b _ => lanePlain (if laneInt t a ≤ laneInt t b then a else b)) s

/-- VMAX: maximum by type (R318). -/
def execVmax (x : Pfx) (r : RRR) (s : State) : Host.Outcome State Fault Refusal :=
  vecTwo (.vmax x r) x r false (fun t a b _ => lanePlain (if laneInt t b ≤ laneInt t a then a else b)) s

/-- VABSD: absolute difference, unsigned (R318). -/
def execVabsd (x : Pfx) (r : RRR) (s : State) : Host.Outcome State Fault Refusal :=
  vecTwo (.vabsd x r) x r false (fun t a b _ => lanePlain (laneInt t a - laneInt t b).natAbs) s

/-- VAND: bitwise and (R318). -/
def execVand (x : Pfx) (r : RRR) (s : State) : Host.Outcome State Fault Refusal :=
  vecTwo (.vand x r) x r false (fun _ a b _ => lanePlain (a &&& b)) s

/-- VOR: bitwise or (R318). -/
def execVor (x : Pfx) (r : RRR) (s : State) : Host.Outcome State Fault Refusal :=
  vecTwo (.vor x r) x r false (fun _ a b _ => lanePlain (a ||| b)) s

/-- VXOR: bitwise exclusive or (R318). -/
def execVxor (x : Pfx) (r : RRR) (s : State) : Host.Outcome State Fault Refusal :=
  vecTwo (.vxor x r) x r false (fun _ a b _ => lanePlain (a ^^^ b)) s

/-- VANDN: a and not b (R318). -/
def execVandn (x : Pfx) (r : RRR) (s : State) : Host.Outcome State Fault Refusal :=
  vecTwo (.vandn x r) x r false (fun _ a b _ => lanePlain (a - (a &&& b))) s

/-- VSHL: shift left by y mod w (R318). -/
def execVshl (x : Pfx) (r : RRR) (s : State) : Host.Outcome State Fault Refusal :=
  vecTwo (.vshl x r) x r false (fun t a b _ => lanePlain ((a <<< (b % laneBits t)) % 2 ^ laneBits t)) s

/-- VSHR: logical shift right by y mod w (R318). -/
def execVshr (x : Pfx) (r : RRR) (s : State) : Host.Outcome State Fault Refusal :=
  vecTwo (.vshr x r) x r false (fun t a b _ => lanePlain (a >>> (b % laneBits t))) s

/-- VSRA: shift right by y mod w of the value that TYPE reads (R318). -/
def execVsra (x : Pfx) (r : RRR) (s : State) : Host.Outcome State Fault Refusal :=
  vecTwo (.vsra x r) x r false (fun t a b _ => laneWrap t (laneInt t a / (2 ^ (b % laneBits t) : Nat))) s

/-- VROT: rotate right by y mod w (R318). -/
def execVrot (x : Pfx) (r : RRR) (s : State) : Host.Outcome State Fault Refusal :=
  vecTwo (.vrot x r) x r false (fun t a b _ => lanePlain (laneRot t a (b % laneBits t))) s

/-- VCLZ: leading zeros; w for 0 (R318). -/
def execVclz (x : Pfx) (r : RRR) (s : State) : Host.Outcome State Fault Refusal :=
  vecOne (.vclz x r) x r (fun t a => lanePlain (laneBits t - bitLen a)) s

/-- VPOPC: the number of set bits (R318). -/
def execVpopc (x : Pfx) (r : RRR) (s : State) : Host.Outcome State Fault Refusal :=
  vecOne (.vpopc x r) x r (fun t a => lanePlain (popBits a (laneBits t))) s

/-- VBREV: the bits reversed (R318). -/
def execVbrev (x : Pfx) (r : RRR) (s : State) : Host.Outcome State Fault Refusal :=
  vecOne (.vbrev x r) x r (fun t a => lanePlain (revBits a (laneBits t))) s

/-- VNEG: negation under clamp_int (R318). -/
def execVneg (x : Pfx) (r : RRR) (s : State) : Host.Outcome State Fault Refusal :=
  vecOne (.vneg x r) x r (fun t a => laneClamp x t (-laneInt t a)) s

/-- VABS: absolute value under clamp_int (R318). -/
def execVabs (x : Pfx) (r : RRR) (s : State) : Host.Outcome State Fault Refusal :=
  vecOne (.vabs x r) x r (fun t a => laneClamp x t ((laneInt t a).natAbs : Int)) s

/-- VNOT: bitwise not (R318). -/
def execVnot (x : Pfx) (r : RRR) (s : State) : Host.Outcome State Fault Refusal :=
  vecOne (.vnot x r) x r (fun t a => lanePlain (2 ^ laneBits t - 1 - a)) s

/-- VBFX: bit-field extract, signed for S types (R315). -/
def execVbfx (x : Pfx) (r : RRR) (s : State) : Host.Outcome State Fault Refusal :=
  vecTwo (.vbfx x r) x r false (fun t a b _ => lanePlain (bitExtract (laneBits t) (isSigned t) a b)) s

/-- VBFI: bit-field insert into the old destination (R315). -/
def execVbfi (x : Pfx) (r : RRR) (s : State) : Host.Outcome State Fault Refusal :=
  vecTwo (.vbfi x r) x r true (fun t a b d => lanePlain (bitInsert (laneBits t) a b d)) s

/-- The condition of VCMP on elements of a type (R319). -/
def vcmpCond (fn t a b : Nat) : Bool :=
  let x := laneInt t a
  let y := laneInt t b
  match fn with
  | 0 => x = y
  | 1 => x ≠ y
  | 2 => x < y
  | 3 => x ≤ y
  | 4 => y < x
  | 5 => y ≤ x
  | _ => a &&& b ≠ 0

/-- The mask of the lanes among `act` that meet a condition. -/
def Group.lanesWith (g : Group) (act : BitVec 64) (p : Nat → Bool) : BitVec 64 :=
  maskOf ((lanesOf g.width act).filter p)

/-- VCMP (R319): a predicate bit per active lane; a poisoned input is a poison use, DETAIL 4. -/
def execVcmp (x : Pfx) (fn : BitVec 3) (r : RRR) (s : State) : Host.Outcome State Fault Refusal :=
  issueG (.vcmp x fn r) (fun g => do
    let q := rrrAt r x g.repIdx
    let a := q.a.toNat
    let b := q.b.toNat
    let t := typeOr x 5
    let n := laneRegs t
    let w := laneBits t
    let act := g.active x
    gate g x true [(.v a n act, q.wa), (.v b n act, q.wb)] [.p q.d.toNat]
    let bad := g.vpoisLanes a n act ||| g.vpoisLanes b n act
    need (bad = 0) (poisonUse 4 bad)
    return g.writeP q.d.toNat act (g.lanesWith act fun l => vcmpCond fn.toNat t (g.velem a l t w) (g.velem b l t w))) s

/-- VMOV (R320): the element with its poison. -/
def execVmov (x : Pfx) (r : RRR) (s : State) : Host.Outcome State Fault Refusal :=
  vecOne (.vmov x r) x r (fun _ a => lanePlain a) s

/-- VSEL (R320): bit by bit, a where the old destination is 1 and b where it is 0. -/
def execVsel (x : Pfx) (r : RRR) (s : State) : Host.Outcome State Fault Refusal :=
  vecTwo (.vsel x r) x r true (fun _ a b d => lanePlain ((a &&& d) ||| (b - (b &&& d)))) s

/-- VBCAST (R320): the low bits of a scalar to every active lane, its poison with it. -/
def execVbcast (x : Pfx) (r : RRR) (s : State) : Host.Outcome State Fault Refusal :=
  issueG (.vbcast x r) (fun g => do
    let q := rrrAt r x g.repIdx
    let a := q.a.toNat
    let t := typeOr x 5
    let act := g.active x
    gate g x true [(.s a 1, q.wa)] [.v q.d.toNat (laneRegs t) act]
    return g.writeLanes act q.d.toNat t fun _ => ((g.sv a).toNat % 2 ^ laneBits t, 0, g.spois a 1)) s

/-- The mask of one lane. -/
def oneLane (l : Nat) : BitVec 64 := 1#64 <<< l

/-- VEXTR (R321): lane S(b) mod W of va into a scalar, extended by type; a poisoned index poisons the result. -/
def execVextr (x : Pfx) (r : RRR) (s : State) : Host.Outcome State Fault Refusal :=
  issueG (.vextr x r) (fun g => do
    let q := rrrAt r x g.repIdx
    let a := q.a.toNat
    let b := q.b.toNat
    let t := typeOr x 5
    let n := laneRegs t
    gate g x false [(.s b 1, q.wb)] []
    let k := (g.sv b).toNat % g.width
    gate g x false [(.v a n (oneLane k), q.wa)] [.s q.d.toNat 1]
    let v := g.velem a k t (laneBits t)
    let e : BitVec 64 := if t = 5 then (BitVec.ofNat 32 v).signExtend 64 else BitVec.ofNat 64 v
    return g.writeS q.d.toNat e (g.vpois a n k || g.spois b 1)) s

/-- VINS (R321): a scalar into lane S(b) mod W; a poisoned index poisons the element. -/
def execVins (x : Pfx) (r : RRR) (s : State) : Host.Outcome State Fault Refusal :=
  issueG (.vins x r) (fun g => do
    let q := rrrAt r x g.repIdx
    let a := q.a.toNat
    let b := q.b.toNat
    let d := q.d.toNat
    let t := typeOr x 5
    gate g x false [(.s a 1, q.wa), (.s b 1, q.wb)] []
    let k := (g.sv b).toNat % g.width
    gate g x false [] [.v d (laneRegs t) (oneLane k)]
    return g.writeElem d k t ((g.sv a).toNat % 2 ^ laneBits t) (g.spois a 1 || g.spois b 1)) s

/-- VIOTA (R320): the lane's rank among the selected active lanes of its tile. -/
def execViota (x : Pfx) (r : RRR) (s : State) : Host.Outcome State Fault Refusal :=
  issueG (.viota x r) (fun g => do
    let q := rrrAt r x g.repIdx
    let a := q.a.toNat
    let act := g.active x
    gate g x true [(.p a, q.wa)] [.v q.d.toNat 1 act]
    let sel := act &&& (g.pel a).bits
    return g.writeLanes act q.d.toNat 6 fun l =>
      (((lanesOf g.width sel).filter fun j => decide (j < l) && decide (j / g.tileSize = l / g.tileSize)).length, 0, false)) s

/-- VLANE (R320): the logical lane index. -/
def execVlane (x : Pfx) (r : RRR) (s : State) : Host.Outcome State Fault Refusal :=
  issueG (.vlane x r) (fun g => do
    let q := rrrAt r x g.repIdx
    let act := g.active x
    gate g x true [] [.v q.d.toNat 1 act]
    return g.writeLanes act q.d.toNat 6 fun l => (l, 0, false)) s

end Sys2Proof.Machine
end

