-- ==== Sys2Proof/Machine/Float.lean ====
section
/-!
DEFINITION. Vector floating-point instructions, majors 0x1A to 0x1C (R322 to R325), with the rounding-stream draws of
R262 and the flushing of R265.
-/
namespace Sys2Proof.Machine

/-- The floating format of a type code of majors 0x1A to 0x1E (R302). -/
def fmtOf (t : Nat) : Fmt :=
  match t with
  | 9 => .f16
  | 10 => .bf16
  | 12 => .e4m3
  | 13 => .e5m2
  | 14 => .e3m2
  | 15 => .e2m3
  | 16 => .e2m1
  | _ => .f32

/-- How an instruction rounds in its group, with a draw (R261, R265). -/
def Group.rnd (g : Group) (x : Pfx) (draw : Nat) : Rnd := ⟨x.m.round.toNat, draw, x.m.sat, g.ftz⟩

/-- The draw for one result element and the group after it: one draw under code 5, none otherwise (R262). -/
def Group.takeDraw (g : Group) (x : Pfx) : Nat × Group :=
  if x.m.round = 5 then
    let d := roundDraw g.rstream
    (d.1, { g with rstream := d.2 })
  else (0, g)

/-- Write each active lane's rounded result in ascending lane order, one draw a lane under code 5 (R262); an invalid
operation poisons its element where TRAPEN.NV is set (R234).  `f` reads the group as it was before (R13). -/
def Group.writeRounded (g : Group) (x : Pfx) (act : BitVec 64) (d type : Nat) (f : Rnd → Nat → LRes) : Group :=
  g.eachLane act fun h l =>
    let k := h.takeDraw x
    let y := f (g.rnd x k.1) l
    (k.2.writeElem d l type y.1 (y.2.2 || (g.trapen.getLsbD 0 && y.2.1.getLsbD 0))).raise y.2.1

/-- The value of a lane's floating element, flushed under FTZ (R265). -/
def Group.flval (g : Group) (f : Fmt) (k l : Nat) : Fl := f.decode (f.flushIn g.ftz ((g.vel k l).val.toNat % 2 ^ f.bits))

/-- A floating instruction of two sources; `readsD` adds the old destination, which waits (R322). -/
def fltTwo (i : Instr) (x : Pfx) (r : RRR) (readsD : Bool) (op : Fmt → Rnd → Fl → Fl → Fl → Nat × Exc) :
    State → Host.Outcome State Fault Refusal :=
  issueG i fun g => do
    let q := rrrAt r x g.repIdx
    let d := q.d.toNat
    let a := q.a.toNat
    let b := q.b.toNat
    let t := typeOr x 11
    let f := fmtOf t
    let act := g.active x
    gate g x true [(.v a 1 act, q.wa), (.v b 1 act, q.wb)] [.v d 1 act]
    return g.writeRounded x act d t fun rd l =>
      let y := op f rd (g.flval f a l) (g.flval f b l) (g.flval f d l)
      (y.1, y.2, g.vpois a 1 l || g.vpois b 1 l || (readsD && g.vpois d 1 l))

/-- A floating instruction of one source, whose operand encoding `op` gets flushed (R324). -/
def fltOne (i : Instr) (x : Pfx) (r : RRR) (op : Fmt → Rnd → Nat → Nat × Exc) :
    State → Host.Outcome State Fault Refusal :=
  issueG i fun g => do
    let q := rrrAt r x g.repIdx
    let d := q.d.toNat
    let a := q.a.toNat
    let t := typeOr x 11
    let f := fmtOf t
    let act := g.active x
    gate g x true [(.v a 1 act, q.wa)] [.v d 1 act]
    return g.writeRounded x act d t fun rd l =>
      let y := op f rd (f.flushIn g.ftz ((g.vel a l).val.toNat % 2 ^ f.bits))
      (y.1, y.2, g.vpois a 1 l)

/-- x < y, x = y or x > y as -1, 0, 1, for values that are not NaN; -0 equals +0. -/
def Fl.cmp (x y : Fl) : Int :=
  match x, y with
  | .inf a, .inf b => if a = b then 0 else if a then -1 else 1
  | .inf a, _ => if a then -1 else 1
  | _, .inf b => if b then 1 else -1
  | .fin n1 m1 e1, .fin n2 m2 e2 => (addExact n1 m1 e1 (!n2) m2 e2).1.sign
  | _, _ => 0

/-- x orders below y, with -0 below +0 (R323). -/
def Fl.below (x y : Fl) : Bool :=
  let c := Fl.cmp x y
  decide (c < 0) || (decide (c = 0) && x.sign && !y.sign)

/-- The minimum or maximum rule (R323): the other operand of a single NaN, the canonical NaN of two, NV for a
signalling one. -/
def Fmt.minMax (f : Fmt) (isMax : Bool) (r : Rnd) (x y : Fl) : Nat × Exc :=
  let e := x.nanExc ||| y.nanExc
  let pick (v : Fl) : Nat × Exc := ((f.ofFl { r with mode := 0 } v).1, e)
  match x.isNan, y.isNan with
  | true, true => (f.qnan, e)
  | true, false => pick y
  | false, true => pick x
  | false, false => if isMax then pick (if Fl.below x y then y else x) else pick (if Fl.below y x then y else x)

/-- The absolute value of a rounded difference (R322 VFABSD): the exact magnitude rounded once. -/
def Fmt.absDiff (f : Fmt) (r : Rnd) (x y : Fl) : Nat × Exc :=
  match x, y with
  | .fin n1 m1 e1, .fin n2 m2 e2 =>
    let v := addExact n1 m1 e1 (!n2) m2 e2
    f.roundInt r false v.1.natAbs v.2
  | _, _ =>
    let v := f.add r x y.neg
    if v.1 = f.qnan then v else (v.1 % 2 ^ (f.eb + f.mb), v.2)

/-- VFADD (R322). -/
def execVfadd (x : Pfx) (r : RRR) (s : State) : Host.Outcome State Fault Refusal :=
  fltTwo (.vfadd x r) x r false (fun f rd a b _ => f.add rd a b) s

/-- VFSUB (R322). -/
def execVfsub (x : Pfx) (r : RRR) (s : State) : Host.Outcome State Fault Refusal :=
  fltTwo (.vfsub x r) x r false (fun f rd a b _ => f.add rd a b.neg) s

/-- VFMUL (R322). -/
def execVfmul (x : Pfx) (r : RRR) (s : State) : Host.Outcome State Fault Refusal :=
  fltTwo (.vfmul x r) x r false (fun f rd a b _ => f.mul rd a b) s

/-- VFMA (R322): a * b + d, fused. -/
def execVfma (x : Pfx) (r : RRR) (s : State) : Host.Outcome State Fault Refusal :=
  fltTwo (.vfma x r) x r true (fun f rd a b d => f.fma rd a b d) s

/-- VFMS (R322): d - a * b, fused. -/
def execVfms (x : Pfx) (r : RRR) (s : State) : Host.Outcome State Fault Refusal :=
  fltTwo (.vfms x r) x r true (fun f rd a b d => f.fma rd a.neg b d) s

/-- VFMIN (R323). -/
def execVfmin (x : Pfx) (r : RRR) (s : State) : Host.Outcome State Fault Refusal :=
  fltTwo (.vfmin x r) x r false (fun f rd a b _ => f.minMax false rd a b) s

/-- VFMAX (R323). -/
def execVfmax (x : Pfx) (r : RRR) (s : State) : Host.Outcome State Fault Refusal :=
  fltTwo (.vfmax x r) x r false (fun f rd a b _ => f.minMax true rd a b) s

/-- VFABSD (R322). -/
def execVfabsd (x : Pfx) (r : RRR) (s : State) : Host.Outcome State Fault Refusal :=
  fltTwo (.vfabsd x r) x r false (fun f rd a b _ => f.absDiff rd a b) s

/-- A NaN operand of major 0x1B gives the canonical NaN, NV when signalling (R324); other operands go to `op`. -/
def Fmt.nanOr (f : Fmt) (w : Nat) (op : Fl → Nat × Exc) : Nat × Exc :=
  match f.decode w with
  | .nan sig => (f.qnan, if sig then Exc.nv else 0)
  | v => op v

/-- The sign bit of an encoding. -/
def Fmt.signBit (f : Fmt) (w : Nat) : Bool := decide (w / 2 ^ (f.eb + f.mb) % 2 = 1)

/-- An encoding without its sign. -/
def Fmt.mag (f : Fmt) (w : Nat) : Nat := w % 2 ^ (f.eb + f.mb)

/-- VFNEG (R324). -/
def execVfneg (x : Pfx) (r : RRR) (s : State) : Host.Outcome State Fault Refusal :=
  fltOne (.vfneg x r) x r (fun f _ w => f.nanOr w fun _ => (f.signed (!f.signBit w) (f.mag w), 0)) s

/-- VFABS (R324). -/
def execVfabs (x : Pfx) (r : RRR) (s : State) : Host.Outcome State Fault Refusal :=
  fltOne (.vfabs x r) x r (fun f _ w => f.nanOr w fun _ => (f.mag w, 0)) s

/-- The class bit of an encoding (R324). -/
def Fmt.classBit (f : Fmt) (w : Nat) : Nat :=
  let neg := f.signBit w
  match f.decode w with
  | .nan sig => if sig then 8 else 9
  | .inf _ => if neg then 0 else 7
  | .fin _ m _ =>
    if m = 0 then (if neg then 3 else 4)
    else if f.mag w < 2 ^ f.mb then (if neg then 2 else 5)
    else if neg then 1 else 6

/-- VFCLASS (R324): an N32 mask with one bit set. -/
def execVfclass (x : Pfx) (r : RRR) (s : State) : Host.Outcome State Fault Refusal :=
  issueG (.vfclass x r) (fun g => do
    let q := rrrAt r x g.repIdx
    let a := q.a.toNat
    let f := fmtOf (typeOr x 11)
    let act := g.active x
    gate g x true [(.v a 1 act, q.wa)] [.v q.d.toNat 1 act]
    return g.writeLanes act q.d.toNat 6 fun l =>
      (2 ^ f.classBit (f.flushIn g.ftz ((g.vel a l).val.toNat % 2 ^ f.bits)), 0, g.vpois a 1 l)) s

/-- VFCPYS (R324): the magnitude of a with the sign of b. -/
def execVfcpys (x : Pfx) (r : RRR) (s : State) : Host.Outcome State Fault Refusal :=
  issueG (.vfcpys x r) (fun g => do
    let q := rrrAt r x g.repIdx
    let a := q.a.toNat
    let b := q.b.toNat
    let t := typeOr x 11
    let f := fmtOf t
    let act := g.active x
    gate g x true [(.v a 1 act, q.wa), (.v b 1 act, q.wb)] [.v q.d.toNat 1 act]
    return g.writeRounded x act q.d.toNat t fun _ l =>
      let w := f.flushIn g.ftz ((g.vel a l).val.toNat % 2 ^ f.bits)
      let y := f.nanOr w fun _ => (f.signed (f.signBit ((g.vel b l).val.toNat)) (f.mag w), 0)
      (y.1, y.2, g.vpois a 1 l || g.vpois b 1 l)) s

/-- A value rounded to an integral value of its format, with whether that differs (R324); zeros and infinities pass. -/
def Fmt.integral (f : Fmt) (rd : Rnd) (v : Fl) : Nat × Bool :=
  match v with
  | .fin n m e =>
    let k := roundWhole rd n m e
    ((f.round { rd with mode := 0, sat := false } n k.1 0 false).1, k.2)
  | .inf n => (f.infinity n, false)
  | .nan _ => (f.qnan, false)

/-- VFFLOOR (R324): toward -infinity, never NX. -/
def execVffloor (x : Pfx) (r : RRR) (s : State) : Host.Outcome State Fault Refusal :=
  fltOne (.vffloor x r) x r (fun f rd w => f.nanOr w fun v => ((f.integral { rd with mode := 2 } v).1, 0)) s

/-- VFCEIL (R324): toward +infinity, never NX. -/
def execVfceil (x : Pfx) (r : RRR) (s : State) : Host.Outcome State Fault Refusal :=
  fltOne (.vfceil x r) x r (fun f rd w => f.nanOr w fun v => ((f.integral { rd with mode := 3 } v).1, 0)) s

/-- VFRINT (R324): the integral value in the MOD mode, NX when it differs. -/
def execVfrint (x : Pfx) (r : RRR) (s : State) : Host.Outcome State Fault Refusal :=
  fltOne (.vfrint x r) x r (fun f rd w => f.nanOr w fun v =>
    let y := f.integral rd v
    (y.1, if y.2 then Exc.nx else 0)) s

/-- VFFRAC (R324): a - floor(a), rounded in the mode; an infinity gives the NaN with NV (log 14). -/
def execVffrac (x : Pfx) (r : RRR) (s : State) : Host.Outcome State Fault Refusal :=
  fltOne (.vffrac x r) x r (fun f rd w => f.nanOr w fun v =>
    match v with
    | .fin n m e =>
      let k := roundWhole { rd with mode := 2 } n m e
      f.add rd v (.fin (!n) k.1 0)
    | _ => (f.qnan, Exc.nv)) s

/-- The condition of VFCMP (R325) and its exceptions. -/
def vfcmpCond (fn : Nat) (x y : Fl) : Bool × Exc :=
  let nan := x.isNan || y.isNan
  let sig := x.nanExc ||| y.nanExc
  let ordered (b : Bool) : Bool × Exc := if nan then (false, Exc.nv) else (b, 0)
  match fn with
  | 0 => (!nan && decide (Fl.cmp x y = 0), sig)
  | 1 => (nan || decide (Fl.cmp x y ≠ 0), sig)
  | 2 => ordered (decide (Fl.cmp x y < 0))
  | 3 => ordered (decide (Fl.cmp x y ≤ 0))
  | 4 => ordered (decide (0 < Fl.cmp x y))
  | 5 => ordered (decide (0 ≤ Fl.cmp x y))
  | 6 => (nan, sig)
  | _ => (!nan, sig)

/-- VFCMP (R325). -/
def execVfcmp (x : Pfx) (fn : BitVec 3) (r : RRR) (s : State) : Host.Outcome State Fault Refusal :=
  issueG (.vfcmp x fn r) (fun g => do
    let q := rrrAt r x g.repIdx
    let a := q.a.toNat
    let b := q.b.toNat
    let f := fmtOf (typeOr x 11)
    let act := g.active x
    gate g x true [(.v a 1 act, q.wa), (.v b 1 act, q.wb)] [.p q.d.toNat]
    let bad := g.vpoisLanes a 1 act ||| g.vpoisLanes b 1 act
    need (bad = 0) (poisonUse 4 bad)
    let res (l : Nat) : Bool × Exc := vfcmpCond fn.toNat (g.flval f a l) (g.flval f b l)
    return (g.writeP q.d.toNat act (g.lanesWith act fun l => (res l).1)).raise
      ((lanesOf g.width act).foldl (fun e l => e ||| (res l).2) 0)) s

end Sys2Proof.Machine
end

