-- ==== Sys2Proof/Machine/Lsu.lean ====
section
/-!
DEFINITION. Thread accesses: the checks of a memory instruction (R18, R61, R62, R141, R160), its issue and hold (R33,
R46, R82), scalar and vector loads, stores and atomics (R341 to R350), and the events that confirm and perform them
(R33, R79, R85).
-/
namespace Sys2Proof.Machine

/-! ### Places and checks -/

/-- A field of a team's SRAMSPLIT word (R64). -/
def Team.split (t : Team) (lo n : Nat) : Nat := fld t.sram lo n

/-- The scratchpad bytes of a team (R70). -/
def Team.spBytes (t : Team) : Nat := t.split 24 12 * 512 * (if t.paired then 2 else 1)

/-- The grant register of a context for a die (R74). -/
def Ctx.grant (c : Ctx) (die : Nat) : BitVec 64 := if die = 0 then c.cspg0 else c.cspg1

/-- Whether n bytes at an address lie outside a space 1 to 5 (R61, R74, R413): `access` is 0 for a read. -/
def State.outside (s : State) (asid : BitVec 16) (t : Team) (space : Nat) (addr : BitVec 64) (n access : Nat) : Bool :=
  let a := addr.toNat
  match space with
  | 1 => decide (t.split 36 5 * 64 < a + n)
  | 2 => decide (t.spBytes < a + n)
  | 3 => decide (8 * t.split 18 6 * 2 ^ 14 < a + n)
  | 4 =>
    let len (die : Nat) : Nat := fld ((s.ctx asid).grant die) 8 7 * 2 ^ 20
    decide (2 ^ 27 < a + n) || (decide (a < 2 ^ 26) && decide (len 0 < min (a + n) (2 ^ 26))) ||
      (decide (2 ^ 26 < a + n) && decide (2 ^ 26 + len 1 < a + n))
  | _ =>
    let car := s.reg 0x4000
    let protectedDw (k : Nat) : Bool := [0, 2, 4, 12, 13, 14, 15, 16, 17, 18, 19].contains k
    decide (2 ^ 21 ≤ a) || decide (fld car 27 14 ≤ a / 256) || asid != s.carAsid ||
      (access != 0 && (protectedDw (a % 256 / 8) || protectedDw ((a % 256 + n - 1) / 8)))

/-- The place in storage of an offset of spaces 3 and 4, which no team holds alone (R71, R74, R75). -/
def State.sharedPlace (s : State) (core : Nat) (asid : BitVec 16) (space a : Nat) : Nat :=
  if space = 3 then region (2048 + core / 8) + a
  else
    let die := a / 2 ^ 26
    region (4 + die) + fld ((s.ctx asid).grant die) 0 6 * 2 ^ 20 + a % 2 ^ 26

/-- The place in storage of an offset of spaces 1 to 4 (R68, R70, R71, R74, R75). -/
def State.spacePlace (s : State) (core slot : Nat) (asid : BitVec 16) (t : Team) (lane space a : Nat) : Nat :=
  match space with
  | 1 => region (1024 + core) + (slot * 64 + lane) * 1024 + a
  | 2 =>
    let half := t.split 24 12 * 512
    if a < half ∨ ¬t.paired then region (16 + t.core) + t.spBase + a
    else region (16 + t.core + 1) + t.spBase1 + (a - half)
  | n => s.sharedPlace core asid n a

/-- Whether an access's address is an address fault (R18, R61, R62). -/
def State.addrBad (s : State) (asid : BitVec 16) (t : Team) (space : Nat) (addr : BitVec 64) (n access : Nat) : Bool :=
  decide (addr.toNat % n ≠ 0) || if space = 0 then !addrOk addr else s.outside asid t space addr n access

/-- The lowest range-lock entry of a core that an access conflicts with (R141). -/
def State.lockHit (s : State) (core space : Nat) (asid : BitVec 16) (a n : Nat) (write : Bool) : Option Nat :=
  Tab.first (s.core core).locks fun l => l.space = space && l.asid = asid && (write || l.write) &&
    decide (a < l.hi) && decide (l.lo < a + n)

/-- Translate a package-local virtual address of an ASID: the place, or the die whose MTU found the fate and its CAUSE;
an address out of the package-local space is an address fault.  DESIGN CHOICE (log 68): bit 55 of such an address names the
die whose queue takes the record. -/
def State.xlate (s : State) (asid : BitVec 16) (va : BitVec 64) (access : Nat) : State × Except (Nat × Nat) Nat :=
  if !addrOk va || isFabric va then (s, .error (vaDie va, 0x10))
  else
    match s.translate (vaDie va) asid (vaOfs va) access with
    | (s, .ok k) => (s, .ok k)
    | (s, .error c) => (s, .error (vaDie va, c))

/-- The virtual address of a byte of the batch table (R411, R413). -/
def State.btVa (s : State) (ofs : Nat) : BitVec 64 := s.reg 0x4008 + BitVec.ofNat 64 ofs

/-! ### Issue -/

/-- A memory operation of a group with the fields of its MOD prefix (R338), no lanes yet. -/
def Group.newOp (g : Group) (x : Pfx) (w : Word) (kind : MemKind) (type bytes : Nat) : MemOp :=
  { kind := kind, core := g.core, slot := g.slot, gid := g.gid, team := g.team, asid := g.asid, pc := g.pc,
    repIdx := g.repIdx, word := w, seq := g.seqNo, space := x.m.space.toNat, order := x.m.order.toNat,
    scope := x.m.scope.toNat, hint := x.m.hint.toNat, type := type, bytes := bytes, aop := 0, dstKind := .none, dst := 0,
    nreg := 1, lanes := [], lines := [], per := 1, mask := 0, writesP := none, engine := none }

/-- A lane of an operation before its checks. -/
def laneReq (lane : Nat) (addr : BitVec 64) (data cmp : Nat) : LaneAcc :=
  ⟨lane, addr, BitVec.ofNat 128 data, BitVec.ofNat 64 cmp, .unconfirmed, false, false⟩

/-- Translate the unconfirmed lanes of an operation (R21 to R26): each with its place or the cause of its fate. -/
def State.translateLanes (s : State) (o : MemOp) : State × List (LaneAcc × Except Nat Nat) :=
  (o.lanes.filter fun l => l.at_ = .unconfirmed).foldl (fun r l =>
    match r.1.translate (vaDie l.addr) o.asid (vaOfs l.addr) (if o.kind = .store then 1 else if o.kind = .atomic then 2 else 0) with
    | (s, .ok k) => (s, r.2 ++ [(l, .ok k)])
    | (s, .error c) => (s, r.2 ++ [(l, .error c)])) (s, [])

/-- The filter tag of a package-local address (R32). -/
def filterTag (asid : BitVec 16) (va : BitVec 64) : BitVec 16 × Nat := (asid, fld va 16 40)

/-- Whether an invalidation range covers an offset of an ASID (R29, R30). -/
def InvRange.covers (r : InvRange) (asid : BitVec 16) (ofs : Nat) : Bool :=
  (r.allAsid || r.asid = asid) &&
    match r.size.toNat with
    | 0 => ofs / 2 ^ 16 = r.va / 2 ^ 16
    | 1 => ofs / 2 ^ 21 = r.va / 2 ^ 21
    | 2 => ofs / 2 ^ 30 = r.va / 2 ^ 30
    | _ => true

/-- Record a confirmed range in a core's residency filter of 512 entries, unless its range is closed (R30, R32). -/
def State.fillFilter (s : State) (core : Nat) (asid : BitVec 16) (va : BitVec 64) : State :=
  let t := filterTag asid va
  let c := s.core core
  if (s.mtu (vaDie va)).closed.any (·.covers asid (vaOfs va)) || c.filter.contains t then s
  else s.setCore core { c with filter := t :: c.filter.take 511 }

/-- The page of an access that met a translation fate (R37): that of the leaf which denies it, else its 64 KiB range
(log 19). -/
def State.failedPage (s : State) (asid : BitVec 16) (va : BitVec 64) (cause : Nat) : Nat × Nat :=
  (vaDie va, match (s.leaf (vaDie va) asid (vaOfs va)).2 with
    | .ok l => if cause = 0x12 then l.base else vaOfs va / 2 ^ 16 * 2 ^ 16
    | .error _ => vaOfs va / 2 ^ 16 * 2 ^ 16)

/-- The records of failing accesses (R37), each with its address, the address to name and its CAUSE: one a page, of the
first access on it. -/
def State.failedPages (s : State) (asid : BitVec 16) (fs : List (BitVec 64 × BitVec 64 × Nat)) : List (Nat × Nat × BitVec 64) :=
  (fs.foldl (fun (ps : List ((Nat × Nat) × Nat × Nat × BitVec 64)) f =>
    let page := s.failedPage asid f.1 f.2.2
    if ps.any fun p => p.1 = page then ps else ps ++ [(page, vaDie f.1, f.2.2, f.2.1)]) []).map (·.2)

/-- Put the places of translated lanes into an operation, with the filter filled. -/
def State.placeLanes (s : State) (k : Nat) (o : MemOp) (rs : List (LaneAcc × Except Nat Nat)) : State :=
  rs.foldl (fun s r =>
    match r.2 with
    | .ok p => (s.modOp k fun o => o.onLanes (fun m => m.lane = r.1.lane && m.at_ = .unconfirmed)
        fun m => { m with at_ := .placed p }).fillFilter o.core o.asid r.1.addr
    | .error _ => s) s

/-- The lines of a promoting acquire at code 7 whose owners are probed (R169). -/
def MemOp.probeLines (o : MemOp) : List FabLine :=
  if o.scope = 7 ∧ o.acquires then o.lines.filter fun f => !f.host else []

/-- The probes of a promoting acquire (R137, R169): at code 6 and 7 the package's own cores, whose releases to the lines of
x that are in flight go first, and at code 7 the owners of its fabric lines.  DESIGN CHOICE (log 22): a PROBE names x by LINE and WIN,
and TAG is the access's number modulo 4,096. -/
def State.probeFor (s : State) (k : Nat) (o : MemOp) : State :=
  if 6 ≤ o.scope ∧ o.acquires then
    let near (l : LaneAcc) : Bool := o.lanes.any fun m => m.addr.toNat / 64 = l.addr.toNat / 64
    let ops := Tab.keys (s.memops.filter fun e => e.1 ≠ k && !(e.2.core = o.core && e.2.slot = o.slot) && e.2.asid = o.asid &&
      e.2.releasesLine near)
    let ls := o.probeLines
    if ls.isEmpty ∧ ops.isEmpty then s
    else State.sendAll { s with probes := ⟨k, ls.map (·.node), ops⟩ :: s.probes } (ls.map fun f =>
      { flitOf 0x0D s.node f.node with tag := BitVec.ofNat 12 k, scope := 7, line := f.own, win := BitVec.ofNat 6 (vaWin f.line) })
  else s

/-- Clear a team's replayable bit for an access (R244). -/
def State.clearRepl (s : State) (o : MemOp) : State :=
  if o.kind = .atomic ∨ (o.kind = .store ∧ (1 < o.scope ∨ o.isNT ∨ 3 ≤ o.space ∨ o.lanes.any fun l => l.at_ = .fabric)) then
    s.modTeam o.team fun t => { t with repl := false }
  else s

/-- The lowest-numbered lane entry's address. -/
def firstAddr (ls : List LaneAcc) : BitVec 64 := (ls.head?.map (·.addr)).getD 0

/-- Send each lane of an access on its way (R19, R82): to its place in spaces 1 to 4, through the fabric, or to its
owning MTU. -/
def State.routeLanes (s : State) (t : Team) (o : MemOp) : MemOp :=
  o.onLanes (fun _ => true) fun l =>
    if o.space ≠ 0 then { l with at_ := .placed (s.spacePlace o.core o.slot o.asid t l.lane o.space l.addr.toNat) }
    else if isFabric l.addr then { l with at_ := .fabric }
    else l

/-- The lanes of a space-5 access at their translated places. -/
def MemOp.placeAll (o : MemOp) (rs : List (LaneAcc × Except (Nat × Nat) Nat)) : MemOp :=
  { o with lanes := rs.map fun r =>
      match r.2 with
      | .ok k => { r.1 with at_ := .placed k }
      | .error _ => { r.1 with at_ := .done } }

/-- The check of R160 that refuses a lane of an access, an atomic that may not reach the host by the last (R172). -/
def State.refusal (s : State) (o : MemOp) (l : LaneAcc) : Option Nat :=
  if isFabric l.addr then
    match s.failedCheck o.asid l.addr o.bytes o.access with
    | some n => some n
    | none => if vaPeer l.addr = 1023 && o.kind = .atomic && !hostAtomic o.aop o.type then some 5 else none
  else none

/-- Issue an access (R82, R344): the checks in the order of R231, where lanes fail different checks of R160 those that fail
the one that comes first (log 19), the waits of R46 and R152, then the operation in
flight with its destinations empty; a local access whose ranges all hit the residency filter and translate is confirmed
at once, any other holds its group (R33).  `scalar` marks an instruction that acts on no lanes. -/
def State.access (s : State) (g : Group) (o : MemOp) (scalar : Bool) : Run (State × Group) :=
  match s.team g.team with
  | none => .ok (s, g)
  | some t => do
    let space := o.space
    let bad := o.lanes.filter fun l => s.addrBad g.asid t space l.addr o.bytes o.access
    need bad.isEmpty (.fateAt 0x10 (firstAddr bad) (o.maskFor bad) o.access)
    let write := o.kind = .store || o.kind = .atomic
    let hits := if (s.core g.core).locks.isEmpty then []
      else o.lanes.filterMap fun l => s.lockHit g.core space g.asid l.addr.toNat o.bytes write
    need hits.isEmpty (.fate 0x20 (hits.foldl min 63) (if scalar then 0 else o.mask))
    let refused := if space ≠ 0 then [] else o.lanes.filterMap fun l => (s.refusal o l).map fun n => (n, l)
    let check := (refused.map (·.1)).foldl min 5
    let first := (refused.filter fun r => r.1 = check).map (·.2)
    need refused.isEmpty (.fateAt (checkCause check) (firstAddr first) (o.maskFor first) o.access)
    if space = 5 then
      let rs := o.lanes.foldl (fun (r : State × List (LaneAcc × Except (Nat × Nat) Nat)) l =>
        let q := r.1.xlate s.carAsid (s.btVa l.addr.toNat) (if write then 1 else 0)
        (q.1, r.2 ++ [(l, q.2)])) (s, [])
      let fs := rs.2.filterMap fun r => match r.2 with
        | .error (_, c) => some (s.btVa r.1.addr.toNat, s.btVa (r.1.addr.toNat / 256 * 256), c)
        | .ok _ => none
      need fs.isEmpty (.seen rs.1 (.pages (rs.1.failedPages s.carAsid fs) (o.maskFor o.lanes) o.access))
      return launch rs.1 (o.placeAll rs.2)
    else
      let o := s.routeLanes t o
      let o := { o with lines := s.fabLines o }
      need (o.lines.isEmpty || decide (s.ticketEntries g.core + o.lines.length ≤ 256)) .wait
      need (o.lines.all fun f => f.host || s.planeOpen (planeOf f.line)) .wait
      need (o.probeLines.all fun f => s.planeOpen (ctlPlane (BitVec.ofNat 10 s.node) (BitVec.ofNat 10 f.node)).toNat) .wait
      return launch s o
where
  /-- Put the operation in flight. -/
  launch (s : State) (o : MemOp) : State × Group :=
    let s := s.clearRepl o
    if o.lanes.isEmpty then (s, g)
    else
      let n := s.newId
      let k := n.2
      let s := n.1.markRows o false
      let s := { s with memops := Tab.put s.memops k o }
      let g := g.markDst o false
      let g := match o.writesP with | some p => g.emptyP p | none => g
      let s := (s.probeFor k o).setGroup g
      let local_ := o.lanes.filter fun l => l.at_ = .unconfirmed
      let s := s.pump
      let (s, held) :=
        if local_.isEmpty then (s, false)
        else if local_.all fun l => (s.core o.core).filter.contains (filterTag o.asid l.addr) then
          let r := s.translateLanes o
          if r.2.all fun q => match q.2 with | .ok _ => true | .error _ => false then (r.1.placeLanes k o r.2, false)
          else (s, true)
        else (s, true)
      let g := (s.group o.core o.slot).getD g
      (s, if held then { g with holds := k :: g.holds } else g)

/-! ### Instructions -/

/-- The bytes of an element of a type code, `d` for code 0 (R254). -/
def typeBytes (t : Nat) : Nat := match Ty.ofCode t with | some y => max 1 (y.bits / 8) | none => 4

/-- The lanes a memory instruction takes: the active ones, or those an OP 0 reissues (R232). -/
def Group.taking (g : Group) (x : Pfx) : BitVec 64 := g.reissue.getD (g.active x)

/-- The effective address of an RI form (R341). -/
def riAddr (g : Group) (x : Pfx) (r : RI) : BitVec 64 := g.sv r.a.toNat + immSigned x.ext r.imm

/-- SLD (R341): mark S(d) empty and load. -/
def execSld (x : Pfx) (r : RI) (s : State) : Host.Outcome State Fault Refusal :=
  issueS (.sld x r) noLimit (fun s g => do
    gate g x false [(.s r.a.toNat 1, r.wa)] [.s r.d.toNat 1]
    need (!g.spois r.a.toNat 1) (poisonUse 1 0)
    let t := typeOr x 8
    let o := g.newOp x ((Instr.sld x r).code.map Code.word |>.getD 0) .load t (typeBytes t)
    s.access g { o with dstKind := .s, dst := r.d.toNat, mask := 1, lanes := [laneReq 0 (riAddr g x r) 0 0] } true) s

/-- SST (R341): store the low bytes of S(d). -/
def execSst (x : Pfx) (r : RI) (s : State) : Host.Outcome State Fault Refusal :=
  issueS (.sst x r) noLimit (fun s g => do
    gate g x false [(.s r.a.toNat 1, r.wa), (.s r.d.toNat 1, false)] []
    need (!g.spois r.a.toNat 1) (poisonUse 1 0)
    need (!g.spois r.d.toNat 1) (poisonUse 2 0)
    let t := typeOr x 8
    let o := g.newOp x ((Instr.sst x r).code.map Code.word |>.getD 0) .store t (typeBytes t)
    let v := (g.sv r.d.toNat).toNat % 2 ^ (8 * typeBytes t)
    s.access g { o with mask := 1, lanes := [laneReq 0 (riAddr g x r) v 0] } true) s

/-- SATOM (R342): the old value to S(d), the status to p14 (R340). -/
def execSatom (x : Pfx) (fn : BitVec 3) (r : RRR) (s : State) : Host.Outcome State Fault Refusal :=
  issueS (.satom x fn r) noLimit (fun s g => do
    let q := rrrAt r x g.repIdx
    let (d, a, b) := (q.d.toNat, q.a.toNat, q.b.toNat)
    let cas := fn = 7
    gate g x false ([(.s a 1, r.wa), (.s b 1, r.wb)] ++ if cas then [(.s d 1, false)] else []) [.s d 1, .p 14]
    need (!g.spois a 1) (poisonUse 1 0)
    need (!(g.spois b 1 || (cas && g.spois d 1))) (poisonUse 2 0)
    let t := typeOr x 7
    let n := if is64 t then 8 else 4
    let o := g.newOp x ((Instr.satom x fn r).code.map Code.word |>.getD 0) .atomic t n
    s.access g { o with
      aop := fn.toNat, dstKind := .s, dst := d, mask := 1, writesP := some 14
      lanes := [laneReq 0 (g.sv a) ((g.sv b).toNat % 2 ^ (8 * n)) ((g.sv d).toNat % 2 ^ (8 * n))] } true) s

/-- The element type and bytes and the register count of a vector shape (R343). -/
def shapeOf (x : Pfx) (fn : Nat) : Nat × Nat × Nat :=
  if fn = 1 ∨ fn = 5 then (8, 8, 2) else if fn = 2 then (6, 16, 4) else (typeOr x 6, typeBytes (typeOr x 6), 1)

/-- The address of a lane in a vector shape (R343). -/
def shapeAddr (g : Group) (fn a b bytes lane : Nat) : BitVec 64 :=
  match fn with
  | 0 | 1 | 2 => g.sv a + BitVec.ofNat 64 (bytes * lane) + g.sv b
  | 3 => g.sv a + g.sv b * BitVec.ofNat 64 lane
  | 4 | 5 => g.v64 a lane + g.sv b
  | _ => g.sv a + g.sv b

/-- The gate and the address poison of a vector memory instruction (R344): field a is a scalar or a v pair. -/
def shapeGate (g : Group) (x : Pfx) (fn : Nat) (q : RegsAt) (act : BitVec 64) (srcs : List (Opd × Bool)) (dsts : List Opd) :
    Run Unit := do
  let (a, b) := (q.a.toNat, q.b.toNat)
  let pair := fn = 4 || fn = 5
  gate g x true ([((if pair then .v a 2 act else .s a 1), q.wa), (.s b 1, q.wb)] ++ srcs) dsts
  need (!(g.spois b 1 || (!pair && g.spois a 1))) (poisonUse 1 act)
  need (!pair || decide (g.vpoisLanes a 2 act = 0)) (poisonUse 1 (g.vpoisLanes a 2 act))

/-- The body of VLD and VLDNF (R344, R346). -/
def vldBody (i : Instr) (x : Pfx) (fn : Nat) (r : RRR) (nf : Bool) (s : State) (g : Group) : Run (State × Group) := do
  let q := rrrAt r x g.repIdx
  let act := g.taking x
  let (t, n, k) := shapeOf x fn
  shapeGate g x fn q act [] ([.v q.d.toNat k act] ++ if nf then [.p 15] else [])
  let o := g.newOp x (i.code.map Code.word |>.getD 0) (if nf then .nfload else .load) t n
  s.access g { o with
    dstKind := .v, dst := g.vreg q.d.toNat, nreg := k, mask := act, writesP := if nf then some 15 else none
    lanes := (lanesOf g.width act).map fun l => laneReq l (shapeAddr g fn q.a.toNat q.b.toNat n l) 0 0 } false

/-- VLD (R343, R344). -/
def execVld (x : Pfx) (fn : BitVec 3) (r : RRR) (s : State) : Host.Outcome State Fault Refusal :=
  issueS (.vld x fn r) noLimit (vldBody (.vld x fn r) x fn.toNat r false) s

/-- VLDNF (R35, R346). -/
def execVldnf (x : Pfx) (fn : BitVec 3) (r : RRR) (s : State) : Host.Outcome State Fault Refusal :=
  issueS (.vldnf x fn r) noLimit (vldBody (.vldnf x fn r) x fn.toNat r true) s

/-- The words of n registers of a lane as one number. -/
def Group.vwords (g : Group) (k n lane : Nat) : Nat :=
  ((List.range n).map fun i => (g.vel (k + i) lane).val.toNat * 2 ^ (32 * i)).sum

/-- VST (R345): poisoned data is a use; under shape 6 every lane carries the highest active lane's element. -/
def execVst (x : Pfx) (fn : BitVec 3) (r : RRR) (s : State) : Host.Outcome State Fault Refusal :=
  issueS (.vst x fn r) noLimit (fun s g => do
    let q := rrrAt r x g.repIdx
    let act := g.taking x
    let (t, n, k) := shapeOf x fn.toNat
    let d := q.d.toNat
    shapeGate g x fn.toNat q act [(.v d k act, false)] []
    need (g.vpoisLanes d k act = 0) (poisonUse 2 (g.vpoisLanes d k act))
    let o := g.newOp x ((Instr.vst x fn r).code.map Code.word |>.getD 0) .store t n
    let ls := lanesOf g.width act
    let data (l : Nat) : Nat := g.vwords d k (if fn = 6 then ls.getLastD l else l) % 2 ^ (8 * n)
    s.access g { o with
      mask := act, lanes := ls.map fun l => laneReq l (shapeAddr g fn.toNat q.a.toNat q.b.toNat n l) (data l) 0 } false) s

/-- ATOM (R347): each lane's old value to its element, the status to p14 (R340). -/
def execAtom (x : Pfx) (fn : BitVec 3) (r : RRR) (s : State) : Host.Outcome State Fault Refusal :=
  issueS (.atom x fn r) noLimit (fun s g => do
    let q := rrrAt r x g.repIdx
    let act := g.taking x
    let t := typeOr x 5
    let k := if is64 t then 2 else 1
    let d := q.d.toNat
    let nsrc := if fn = 7 then 2 * k else k
    shapeGate g x 4 q act [(.v d nsrc act, false)] [.v d k act, .p 14]
    need (g.vpoisLanes d nsrc act = 0) (poisonUse 2 (g.vpoisLanes d nsrc act))
    let o := g.newOp x ((Instr.atom x fn r).code.map Code.word |>.getD 0) .atomic t (4 * k)
    s.access g { o with
      aop := fn.toNat, dstKind := .v, dst := g.vreg d, nreg := k, mask := act, writesP := some 14
      lanes := (lanesOf g.width act).map fun l =>
        laneReq l (shapeAddr g 4 q.a.toNat q.b.toNat 0 l) (g.vwords d k l) (g.vwords (d + k) k l) } false) s

/-- The key of a score and an index (R349): a NaN score never wins. -/
def packKey (score index : Word) (max : Bool) : Nat :=
  let hi : Word := if (Fmt.f32.decode score.toNat).isNan then (if max then 0 else 0xFFFFFFFF) else okey score
  hi.toNat * 2 ^ 32 + (0xFFFFFFFF - index.toNat)

/-- The body of SMAXPK and SMINPK (R349): NV for a NaN score is raised at issue. -/
def packBody (i : Instr) (x : Pfx) (r : RRR) (max : Bool) (s : State) (g : Group) : Run (State × Group) := do
  let q := rrrAt r x g.repIdx
  let act := g.taking x
  let d := q.d.toNat
  shapeGate g x 4 q act [(.v d 2 act, false)] [.v d 2 act, .p 14]
  need (g.vpoisLanes d 2 act = 0) (poisonUse 2 (g.vpoisLanes d 2 act))
  let ls := lanesOf g.width act
  let g' := if ls.any fun l => (Fmt.f32.decode (g.vel d l).val.toNat).isNan then g.raise Exc.nv else g
  let o := g.newOp x (i.code.map Code.word |>.getD 0) .atomic 8 8
  s.access g' { o with
    aop := if max then 2 else 1, dstKind := .v, dst := g.vreg d, nreg := 2, mask := act, writesP := some 14
    lanes := ls.map fun l =>
      laneReq l (shapeAddr g 4 q.a.toNat q.b.toNat 0 l) (packKey (g.vel d l).val (g.vel (d + 1) l).val max) 0 } false

/-- SMAXPK (R349). -/
def execSmaxpk (x : Pfx) (r : RRR) (s : State) : Host.Outcome State Fault Refusal :=
  issueS (.smaxpk x r) noLimit (packBody (.smaxpk x r) x r true) s

/-- SMINPK (R349). -/
def execSminpk (x : Pfx) (r : RRR) (s : State) : Host.Outcome State Fault Refusal :=
  issueS (.sminpk x r) noLimit (packBody (.sminpk x r) x r false) s

/-- HINC (R350): the old count to V(d). -/
def execHinc (x : Pfx) (r : RRR) (s : State) : Host.Outcome State Fault Refusal :=
  issueS (.hinc x r) noLimit (fun s g => do
    let q := rrrAt r x g.repIdx
    let act := g.taking x
    let d := q.d.toNat
    shapeGate g x 4 q act [] [.v d 1 act, .p 14]
    let o := g.newOp x ((Instr.hinc x r).code.map Code.word |>.getD 0) .atomic 6 4
    s.access g { o with
      dstKind := .v, dst := g.vreg d, mask := act, writesP := some 14
      lanes := (lanesOf g.width act).map fun l => laneReq l (shapeAddr g 4 q.a.toNat q.b.toNat 0 l) 1 0 } false) s

/-! ### Events -/

/-- Release the hold of an operation on its group (R33). -/
def State.releaseHold (s : State) (k : Nat) (o : MemOp) : State :=
  s.modGroup o.core o.slot fun g => { g with holds := g.holds.filter (· ≠ k) }

/-- Whether a lane entry's element belongs to a failing part: its own, its tile row, or the whole bitmap. -/
def MemOp.failsWith (o : MemOp) (fs : List LaneAcc) (l : LaneAcc) : Bool :=
  o.kind = .bitmap || fs.any fun m => m.lane / o.per = l.lane / o.per

/-- Stop a group precisely for the lanes of an operation that its MTUs refused (R33, R37, R55): the failing lanes leave
the operation with their elements full as before, the instruction is undone for them, and each page's record carries
the union of the lanes still to do (log 29). -/
def State.stopLanes (s : State) (k : Nat) (o : MemOp) (fs : List (LaneAcc × Nat)) : State :=
  let bad := o.lanes.filter (o.failsWith (fs.map (·.1)))
  let mask := if o.kind = .bitmap then o.mask else o.maskFor bad
  let gone := { o with lanes := bad }
  let kept := o.lanes.filter fun l => !o.failsWith (fs.map (·.1)) l
  let s := s.modOp k fun o => { o with lanes := kept, mask := o.mask &&& ~~~mask }
  let s := (s.modGroup o.core o.slot fun g => g.markDst gone true).markRows gone true
  let s := if kept.isEmpty then
      { s with memops := Tab.drop s.memops k }.modGroup o.core o.slot fun g =>
        match o.writesP with | some p => g.putP p { g.pel p with full := true } | none => g
    else s.finishOp k
  match s.group o.core o.slot with
  | none => s
  | some g =>
    let g := { g with pc := o.pc, repIdx := o.repIdx, ibuf := none }
    let s := if o.engine.isSome then s else s.bump o.core 0x001 (2 ^ 64 - 1)
    (s.setGroup g).stopPages g (s.failedPages o.asid (fs.map fun f => (f.1.addr, f.1.addr, f.2))) mask o.access

/-- MTU_CONFIRMATION (R33): the owning MTUs answer for the lanes of an operation that wait: places, the zero of a
non-resident non-faulting lane (R35), or a precise stop; the hold ends. -/
def execMtuConfirmation (k : Nat) (s : State) : Host.Outcome State Fault Refusal :=
  match Tab.find s.memops k with
  | some o =>
    if o.lanes.all fun l => l.at_ != .unconfirmed then .next s
    else
      let r := s.translateLanes o
      let s := (r.1.placeLanes k o r.2).releaseHold k o
      let miss := r.2.filterMap fun q => match q.2 with
        | .error 0x11 => if o.kind = .nfload then some q.1 else none
        | _ => none
      let s := miss.foldl (fun s l =>
        (s.fillLane o l.lane 0 false).modOp k fun o => o.onLanes (fun m => m.lane = l.lane) fun m =>
          { m with ok := false, at_ := .done }) s
      let fs := r.2.filterMap fun q => match q.2 with
        | .error c => if c = 0x11 ∧ o.kind = .nfload then none else some (q.1, c)
        | .ok _ => none
      match Tab.find s.memops k with
      | some o => .next (if fs.isEmpty then s.finishOp k else s.stopLanes k o fs).pump
      | none => .next s
  | none => .next s

/-- Whether an operation's placed lanes may be performed now: no earlier access holds it back, and no switch holds a
line of it (R128, R166). -/
def State.opReady (s : State) (k : Nat) (o : MemOp) : Bool :=
  o.lanes.any LaneAcc.isPlaced && s.mayPerform k o &&
    (s.lent.isEmpty || o.kind = .result || o.lanes.all fun l => match l.at_ with
      | .placed p | .half p _ => (s.lentAt p).isEmpty
      | _ => true)

/-- Recall the switch copies that hold an operation's lines (R166). -/
def State.recallFor (s : State) (o : MemOp) : State :=
  let ls := (o.lanes.filterMap fun l => match l.at_ with | .placed p | .half p _ => some (p / 64) | _ => none).eraseDups
  s.recallAll (ls.flatMap fun q => Tab.get [] s.lent q)

/-- The sectors of package-local lines that the lanes of a mask of a load of the L1 await (R84). -/
def MemOp.missing (o : MemOp) (lanes : BitVec 64) : List Nat :=
  if o.isLoad && (o.space = 0 || o.space = 4) then
    ((o.lanesNow lanes).filterMap fun l => match l.at_ with | .placed p => some (p / 16) | _ => none).eraseDups
  else []

/-- The data of sectors reaches a core: every other load of the core that awaits them joined their entries (R84), and is
performed with them where no earlier access holds it back. -/
def State.joinArrival (s : State) (k core : Nat) (asid : BitVec 16) (sectors : List Nat) : State :=
  if sectors.isEmpty then s
  else (Tab.keys s.memops).foldl (fun s j =>
    match Tab.find s.memops j with
    | some p =>
      let mine := p.lanes.filter fun l => match l.at_ with | .placed q => sectors.contains (q / 16) | _ => false
      if j ≠ k ∧ p.isLoad ∧ (p.space = 0 ∨ p.space = 4) ∧ p.core = core ∧ p.asid = asid ∧ !mine.isEmpty ∧ s.opReady j p then
        s.performMask j (maskOf ((mine.map fun l => l.lane / p.per).eraseDups)) false
      else s
    | none => s) s

/-- LOAD_DATA_ARRIVAL (R85, R134): the lanes of a mask of a load or atomic are performed and filled, from the L1 copy
where asked and allowed (R79); what a load brings from beyond the L1, the loads that joined it get too (R84). -/
def execLoadDataArrival (k : Nat) (lanes : BitVec 64) (fromL1 : Bool) (s : State) : Host.Outcome State Fault Refusal :=
  match Tab.find s.memops k with
  | some o =>
    if o.kind = .store then .next s
    else if s.opReady k o then
      .next ((s.performMask k lanes fromL1).joinArrival k o.core o.asid (if fromL1 then [] else o.missing lanes)).pump
    else .next (if s.mayPerform k o then s.recallFor o else s)
  | none => .next s

/-- WRITE_THROUGH_ACKNOWLEDGEMENT (R79): the lanes of a mask of a store are performed at their point of coherence. -/
def execWriteThroughAcknowledgement (k : Nat) (lanes : BitVec 64) (s : State) : Host.Outcome State Fault Refusal :=
  match Tab.find s.memops k with
  | some o =>
    if o.kind != .store then .next s
    else if s.opReady k o then .next (s.performMask k lanes false).pump
    else .next (if s.mayPerform k o then s.recallFor o else s)
  | none => .next s

end Sys2Proof.Machine
end

