-- ==== Sys2Proof/Machine/Sync.lean ====
section
/-!
DEFINITION. Fences, fabric housekeeping and windows at their source (majors 0x28; R135, R139, R171, R351 to R356).
-/
namespace Sys2Proof.Machine

/-- FENCE (R135, R352): wait until the group's accesses but non-temporal stores are performed and its tickets settled;
where the scope's point is an L2 slice, the core's L1 is invalidated; no later request joins one already sent
(R84). -/
def execFence (x : Pfx) (s : State) : Host.Outcome State Fault Refusal :=
  issueS (.fence x) noLimit (fun s g => do
    need (s.quiet g.core g.slot) .wait
    let s := if s.l1Point (g.newOp x 0 .load 0 1) then s.entriesOld g.core else s.l1Drop g.core
    return (s, g)) s

/-- NTDRAIN (R139, R352): wait for the group's non-temporal stores and its tickets. -/
def execNtdrain (x : Pfx) (s : State) : Host.Outcome State Fault Refusal :=
  issueS (.ntdrain x) noLimit (fun s g => do
    need (((s.accessesOf g.core g.slot).all fun e => !e.2.isNT) && !s.ticketsOpen g.core g.slot) .wait
    return (s, g)) s

/-- PREFETCH (R353): timing only; its lines may be dropped, and the model drops them. -/
def execPrefetch (x : Pfx) (r : RRR) (s : State) : Host.Outcome State Fault Refusal :=
  issueS (.prefetch x r) noLimit (fun s g => do
    let (a, b) := (r.a.toNat, r.b.toNat)
    gate g x false [(.s a 1, r.wa), (.s b 1, r.wb)] []
    need (!(g.spois a 1 || g.spois b 1)) (poisonUse 1 0)
    return (s, g)) s

/-- Ask an owner for a page (R36, R354): a local page that is not resident is recorded with cause 0x1D; a fabric page
is asked of its owner by an RD that touches no sector. -/
def State.askPage (s : State) (g : Group) (va mask : BitVec 64) : State :=
  if isFabric va then
    let d := s.winDesc (vaPeer va) (vaWin va)
    s.send { flitOf 1 s.node (fld (s.level1 (vaPeer va)).2 2 10) with
        plane := BitVec.ofNat 6 (planeOf va), win := BitVec.ofNat 6 (vaWin va), gen := descGen d, key := descKey d, core := BitVec.ofNat 10 g.core,
        slot := BitVec.ofNat 4 g.slot, line := BitVec.ofNat 50 ((descBase d + vaOff va) / 64) }
  else
    match s.residency (vaDie va) g.asid (vaOfs va) with
    | (s, some 0x11) => s.emit (vaDie va) (record0 va mask g.pc 0 0x1D g.seqNo g.asid g.core g.slot)
    | (s, _) => s

/-- PGREQ (R354): each distinct 64 KiB page of the lanes that pass the checks of R18, R62 and R160 is asked for once; a
request that its plane does not take yet is held behind the instruction, which does not wait.  DEDUCED (log 20): a lane is
checked as an access of 4 bytes. -/
def execPgreq (x : Pfx) (r : RRR) (s : State) : Host.Outcome State Fault Refusal :=
  issueS (.pgreq x r) noLimit (fun s g => do
    let q := rrrAt r x g.repIdx
    let act := g.active x
    shapeGate g x 4 q act [] []
    let as := (lanesOf g.width act).map fun l => (l, shapeAddr g 4 q.a.toNat q.b.toNat 0 l)
    let ok := as.filter fun p => addrOk p.2 && p.2.toNat % 4 = 0 && (!isFabric p.2 || (vaPeer p.2 != 1023 &&
      match s.checkFabric g.asid p.2 4 0 with | .ok _ => true | .error _ => false))
    let pages := (ok.map fun p => p.2.toNat / 2 ^ 16).eraseDups
    return (pages.foldl (fun s pg =>
      let ls := ok.filter fun p => p.2.toNat / 2 ^ 16 = pg
      s.askPage g ((ls.head?.map (·.2)).getD 0) (maskOf (ls.map (·.1)))) s, g)) s

/-- FWAIT (R352): wait until every fabric access of the group is answered and every ticket settled. -/
def execFwait (x : Pfx) (s : State) : Host.Outcome State Fault Refusal :=
  issueS (.fwait x) noLimit (fun s g => do
    need ((s.accessesOf g.core g.slot).all fun e => e.2.lines.all fun f => f.at_ = .done) .wait
    return (s, g)) s

/-- RLQ (R356): test a range against the issuing core's range locks. -/
def execRlq (x : Pfx) (r : RRR) (s : State) : Host.Outcome State Fault Refusal :=
  issueS (.rlq x r) noLimit (fun s g => do
    let (a, b) := (r.a.toNat, r.b.toNat)
    gate g x false [(.s a 1, r.wa), (.s b 1, r.wb)] [.s r.d.toNat 1]
    need (!(g.spois a 1 || g.spois b 1)) (poisonUse 1 0)
    let lo := (g.sv a).toNat
    let n := (g.sv b).toNat
    let hit := (s.core g.core).locks.filter fun e => e.2.space = x.m.space.toNat && e.2.asid = g.asid &&
      decide (0 < n) && decide (lo < e.2.hi) && decide (e.2.lo < lo + n)
    let v := (if hit.any fun e => !e.2.write then 1 else 0) + (if hit.any fun e => e.2.write then 2 else 0) +
      4 * ((hit.head?.map (·.1)).getD 0)
    return (s, g.writeS r.d.toNat (BitVec.ofNat 64 v) false)) s

/-! ### Windows at their source (R171) -/

/-- Give the result of a WINREQ (R355). -/
def State.winAnswer (s : State) (q : WinWait) (v : Nat) : State :=
  s.modGroup q.core q.slot fun g => g.fillS q.dst (BitVec.ofNat 64 v) false

/-- Answer every WINREQ of an ASID that waits on a window. -/
def State.winAnswerAll (s : State) (p w : Nat) (asid : BitVec 16) (v : Nat) : State :=
  let mine (q : WinWait) : Bool := q.peer = p && q.win = w && q.asid = asid
  let s := (s.winWaits.filter mine).foldl (fun s q => s.winAnswer q v) s
  { s with winWaits := s.winWaits.filter fun q => !mine q }

/-- Whether an access under a generation of a window is still in flight (R56, R171): queued or sent, of a group that is
there or gone, and never ticketed.  DESIGN CHOICE (log 22): an entry that keeps an access unsent behind a ticket is not in flight. -/
def State.winBusy (s : State) (p w : Nat) (gen : BitVec 8) : Bool :=
  let flies (f : FabLine) : Bool := vaPeer f.line = p && vaWin f.line = w && f.gen = gen && f.firstTicket.isNone &&
    (match f.at_ with | .sent _ => true | .queued => !f.kept | _ => false)
  (s.memops.any fun e => e.2.lines.any flies) || s.orphans.any flies

/-- Let the oldest WINREQ that waits on a window act on its level-2 entry (R171). -/
def State.winServe (s : State) (p w : Nat) : State :=
  match s.winWaits.find? fun q => q.peer = p && q.win = w with
  | none => s
  | some q =>
    let d := s.winDesc p w
    match descState d with
    | 0 =>
      let d := dwords4 0 0 (setFld 0 45 2 3) (q.asid.zeroExtend 64 <<< 16)
      let s := s.setWinDesc p w d
      s.send { flitOf 9 s.node (fld (s.level1 p).2 2 10) with win := BitVec.ofNat 6 w, key := q.key }
    | 1 => if descAsid d = q.asid then s.winAnswerAll p w q.asid 0 else s.setWinDesc p w (descWithState d 2)
    | _ => s

/-- The operand limits of WINREQ and WINREL, judged once the operands are full (R339, R355). -/
def winLimit (r : RRR) (key : Bool) (_ : State) (g : Group) : Bool :=
  (g.sel r.a.toNat).full && (!key || (g.sel r.b.toNat).full) &&
    (g.over r.a.toNat (2 ^ 16) || (key && g.over r.b.toNat (2 ^ 32)))

/-- WINREQ (R355, R171): the cases that settle at once, else a wait on the level-2 entry; S(d) fills late (log 20). -/
def execWinreq (x : Pfx) (r : RRR) (s : State) : Host.Outcome State Fault Refusal :=
  issueS (.winreq x r) (winLimit r true) (fun s g => do
    let (a, b, d) := (r.a.toNat, r.b.toNat, r.d.toNat)
    gate g x false [(.s a 1, r.wa), (.s b 1, r.wb)] [.s d 1]
    need (!g.spois a 1) (poisonUse 1 0)
    need (!g.spois b 1) (poisonUse 3 0)
    let p := fld (g.sv a) 0 10
    let w := fld (g.sv a) 10 6
    let desc := s.winDesc p w
    if p = 1023 || level1State (s.level1 p).2 != 1 then return (s, g.writeS d 0x19 false)
    else if descState desc = 1 && descAsid desc = g.asid then return (s, g.writeS d 0 false)
    else if !s.efiOn then return (s, g.writeS d 0x19 false)
    else
      need ((descState desc = 3 && descAsid desc = g.asid) || s.planeOpen (ctlPlane (BitVec.ofNat 10 s.node) (BitVec.ofNat 10 (fld (s.level1 p).2 2 10))).toNat) .wait
      let g := g.emptyS d
      let q : WinWait := ⟨g.core, g.slot, d, g.asid, p, w, (g.sv b).extractLsb' 0 32⟩
      let alone := (s.winWaits.all fun q => !(q.peer = p && q.win = w))
      let s := { s with winWaits := s.winWaits ++ [q] }.setGroup g
      let s := if alone && descState desc ≤ 1 then s.winServe p w else s
      return (s, g)) s

/-- WINREL (R355): a valid entry of this ASID moves to draining. -/
def execWinrel (x : Pfx) (r : RRR) (s : State) : Host.Outcome State Fault Refusal :=
  issueS (.winrel x r) (winLimit r false) (fun s g => do
    gate g x false [(.s r.a.toNat 1, r.wa)] []
    need (!g.spois r.a.toNat 1) (poisonUse 1 0)
    let p := fld (g.sv r.a.toNat) 0 10
    let w := fld (g.sv r.a.toNat) 10 6
    let d := s.winDesc p w
    return (if descState d = 1 && descAsid d = g.asid then s.setWinDesc p w (descWithState d 2) else s, g)) s

end Sys2Proof.Machine
end

