-- ==== Sys2Proof/Machine/Fabric.lean ====
section
/-!
DEFINITION. Fabric events at the requester and its L2 (R47 to R50, R137, R164, R167, R169, R171 to R174): responses,
tickets and notices, windows, recalls of L2 copies, lost ports, credit and time-stamp synchronisation.
-/
namespace Sys2Proof.Machine

/-- Whether the interface takes a flit (R156, R161, R162): enabled, for this node, and with no reserved type or bit. -/
def State.takes (s : State) (f : Flit) : Bool := s.efiOn && f.dst.toNat = s.node && !headerBad f.header

/-- A flit that the interface does not take: one with a reserved type or bit counts as a port error (R162). -/
def State.discard (s : State) (f : Flit) : State :=
  if s.efiOn && headerBad f.header then
    let p := s.portOf f.plane.toNat
    { s with portErrors := Tab.set 0 s.portErrors p (Tab.get 0 s.portErrors p + 1) }
  else s

/-- The outstanding line that a response answers (R161): its tag, LINE and owner. -/
def State.byFlit (s : State) (f : Flit) : Option (Nat × Nat) :=
  (s.memops.flatMap fun e => (List.range e.2.lines.length).filterMap fun j =>
    match e.2.lines[j]? with
    | some l =>
      if l.at_ = .sent f.tag ∧ l.own = f.line ∧ !l.host ∧ l.node = f.src.toNat then some (e.1, j) else none
    | none => none).head?

/-- An answer to a request whose operation is gone: its tag and window are free (R56, R161). -/
def State.orphanAnswered (s : State) (f : Flit) : State :=
  { s with orphans := s.orphans.filter fun l => !(l.at_ = .sent f.tag && l.own = f.line && (l.host || l.node = f.src.toNat)) }

/-- Count a ticket event of a core (R449). -/
def State.bumpOp (s : State) (o : MemOp) (n : Nat) : State := if o.engine.isNone then s.bump o.core n 1 else s

/-- Answer one notice slot (R48, R49): the ticket it names is ready for replay, or its line settles as refused; a
notice for a saved context goes to that context's log (R57). -/
def State.noticeOne (s : State) (node : Nat) (e : BitVec 16 × BitVec 2) : State :=
  match (s.memops.flatMap fun x => (List.range x.2.lines.length).filterMap fun j =>
      match x.2.lines[j]? with
      | some l => if l.at_ = .ticketed e.1 ∧ l.node = node then some (x.1, j, x.2) else none
      | none => none).head? with
  | some (k, j, o) =>
    if e.2 = 0 then (s.modLine k j fun l => { l with at_ := .noticed e.1 }).pump
    else if e.2 = 1 then (((s.bumpOp o 0x00C).traceTicket o e.1 node 3).settleLine k j 0x15).pump
    else s
  | none =>
    let id := node * 2 ^ 16 + e.1.toNat
    { s with ctxs := s.ctxs.map fun c =>
        if c.2.savedTickets.contains id then (c.1, { c.2 with noticeLog := c.2.noticeLog ++ [(id, e.2)] }) else c }

/-- NOTICE (R48, R163). -/
def execNotice (f : Flit) (s : State) : Host.Outcome State Fault Refusal :=
  if !s.takes f then .next (s.discard f) else .next (f.noticeSlots.foldl (fun s e => s.noticeOne f.src.toNat e) s)

/-- TICKET_EXPIRY (R49): the timeout of entry j of operation k, numbered 1024 k + j, has elapsed from its first ticket;
the line settles with cause 0x14; a replay of it that is outstanding keeps its tag until it is answered (R161).  A saved
group's entries are not here (R57). -/
def execTicketExpiry (entry : Nat) (s : State) : Host.Outcome State Fault Refusal :=
  let (k, j) := (entry / 1024, entry % 1024)
  match Tab.find s.memops k with
  | some o =>
    match o.lines[j]? with
    | some l =>
      let t : BitVec 16 := match l.at_ with | .ticketed t => t | .noticed t => t | _ => l.replayOf.getD 0
      match l.firstTicket with
      | some n =>
        if l.at_ != .done && decide (l.tmo ≤ s.since n) then
          let s := if l.isSent then { s with orphans := s.orphans ++ [l] } else s
          .next (((s.bumpOp o 0x00C).traceTicket o t l.node 2).settleLine k j 0x14).pump
        else .next s
      | none => .next s
    | none => .next s
  | none => .next s

/-- Install the sectors that a fabric-coherent read asked for into the package's L2 copy (R167). -/
def State.l2Install (s : State) (l : FabLine) (sect : BitVec 4) (f : Flit) : State :=
  let k := l2Key (planeOf l.line) l.node l.own
  let c := Tab.get SliceLine.none s.fabDir k
  let data := (List.range 4).foldl (fun d q =>
    if sect.getLsbD q && !c.dirty.getLsbD q then linePut d (16 * q) 16 (lineGet f.data (16 * q) 16) else d) c.data
  { s with fabDir := Tab.set SliceLine.none s.fabDir k { c with
      data := data, pois := (c.pois &&& ~~~(sect &&& ~~~c.dirty)) ||| (f.pois &&& sect &&& ~~~c.dirty),
      valid := c.valid ||| sect, excl := if f.grant then some 0 else c.excl } }

/-- Answer a line, and with the data of a load the requests of its core that joined it, for the sectors that they await of
it (R84). -/
def State.answerJoined (s : State) (k j : Nat) (o : MemOp) (l : FabLine) (f : Flit) : State :=
  let joined : List (Nat × Nat × BitVec 4) :=
    if f.status ≠ 0 ∨ !o.isLoad then []
    else s.memops.flatMap fun e => (List.range e.2.lines.length).filterMap fun i =>
      match e.2.lines[i]? with
      | some x =>
        if (x.isSent || x.at_ = .queued) && (e.1, i) != (k, j) && e.2.isLoad && e.2.core = o.core && e.2.asid = o.asid &&
            x.sameAs l && x.joined &&& l.sect != 0 then some (e.1, i, x.joined &&& l.sect) else none
      | none => none
  let s := s.answerLine k j l.sect true f.data f.pois f.status.toNat
  joined.foldl (fun s q => s.answerLine q.1 q.2.1 q.2.2 false f.data f.pois 0) s

/-- A response to a line: fill or settle it (R85, R164); for a fabric-coherent line the L2 copy is installed and serves
it (R167), or the request is sent again where ownership was not granted. -/
def State.respond (s : State) (f : Flit) : State :=
  match s.byFlit f with
  | some (k, j) =>
    match (Tab.find s.memops k).bind fun o => o.lines[j]?.map fun l => (o, l) with
    | some (o, l) =>
      if l.fc && f.status = 0 then
        let s := s.l2Install l l.sect f
        match s.l2ServeAll k j l with
        | some t => t.pump
        | none => (s.modLine k j fun l => { l with at_ := .queued }).pump
      else (s.answerJoined k j o l f).pump
    | none => s
  | none => (s.orphanAnswered f).pump

/-- HOST_COMPLETION (R172): a PCIe completion for a line of peer 1,023: its data, a poisoned completion, or STATUS 0x1A
for an unsupported request or completer abort.  DESIGN CHOICE (log 47): a store to the host, which PCIe posts, is performed at such
an event too, one for its line. -/
def execHostCompletion (f : Flit) (s : State) : Host.Outcome State Fault Refusal :=
  match (s.memops.flatMap fun e => (List.range e.2.lines.length).filterMap fun j =>
      match e.2.lines[j]? with
      | some l => if l.at_ = .sent f.tag ∧ l.own = f.line ∧ l.host then some (e.1, j) else none
      | none => none).head? with
  | some (k, j) =>
    let f := { f with status := if f.status = 0 then 0 else 0x1A }
    match (Tab.find s.memops k).bind fun o => o.lines[j]?.map fun l => (o, l) with
    | some (o, l) => .next (s.answerJoined k j o l f).pump
    | none => .next s
  | none => .next (s.orphanAnswered f).pump

/-- PLANE_CREDIT (R152): credit returns on a plane. -/
def execPlaneCredit (plane : Nat) (s : State) : Host.Outcome State Fault Refusal :=
  .next { s with noCredit := s.noCredit.filter (· ≠ plane) }.pump

/-- PORT_FAILURE (R173): the planes of a port close, and the requests outstanding on it settle as if refused with
0x19; ticket-table entries stay. -/
def execPortFailure (port : Nat) (s : State) : Host.Outcome State Fault Refusal :=
  let dead := (List.range 64).filter fun l => s.portOf l = port
  let s := dead.foldl (fun s l =>
    let off := 0x6040 + l / 8 * 8
    s.setReg off (s.reg off &&& ~~~(1#64 <<< (l % 8 * 8 + 7)))) s
  let lost := s.memops.flatMap fun e => (List.range e.2.lines.length).filterMap fun j =>
    match e.2.lines[j]? with
    | some l => match l.at_ with
      | .sent _ => if !l.host && l.firstTicket.isNone && dead.contains (planeOf l.line) then some (e.1, j) else none
      | _ => none
    | none => none
  let s := lost.foldl (fun s kj => s.settleLine kj.1 kj.2 0x19) s
  .next { s with
    orphans := s.orphans.filter (fun l => l.host || !dead.contains (planeOf l.line))
    portFail := if s.portFail.contains port then s.portFail else port :: s.portFail }

/-- PROBEACK (R169): an owner's cores have answered; the promoting acquire goes on when every owner has. -/
def execProbeack (f : Flit) (s : State) : Host.Outcome State Fault Refusal :=
  if !s.takes f then .next (s.discard f)
  else .next (State.pump { s with probes := s.probes.map fun (q : ProbeWait) =>
      (if BitVec.ofNat 12 q.op = f.tag then { q with peers := q.peers.erase f.src.toNat } else q) })

/-! ### Windows at the source -/

/-- The peer index of a node with a level-2 entry that a test accepts (R158).  DESIGN CHOICE (log 22): the lowest of several. -/
def State.peerOf (s : State) (node w : Nat) (ok : BitVec 256 → Bool) : Option Nat :=
  (List.range 1023).find? fun p => fld (s.level1 p).2 2 10 = node && ok (s.winDesc p w)

/-- WINRSP (R171): the descriptor is stored with its ASID and PGEN and the WINREQ succeeds, unless its generation was
killed or the owner refused. -/
def execWinrsp (f : Flit) (s : State) : Host.Outcome State Fault Refusal :=
  if !s.takes f then .next (s.discard f)
  else
    let w := f.win.toNat
    match s.peerOf f.src.toNat w fun d => descState d = 3 with
    | none => .next s
    | some p =>
      let asid := descAsid (s.winDesc p w)
      let killed := s.killedGens.contains (p * 64 + w, descGen f.desc)
      let s := { s with killedGens := s.killedGens.filter fun e => e.1 ≠ p * 64 + w }
      if f.status = 0 ∧ !killed then
        let d := descWithState f.desc 1
        let d := setDw d 2 (setFld (dw d 2) 47 8 (fld (s.level1 p).2 12 8))
        let d := setDw d 3 (setFld (dw d 3) 16 16 asid.toNat)
        .next (((s.setWinDesc p w d).winAnswerAll p w asid 0).winServe p w)
      else
        let s := s.setWinDesc p w 0
        .next ((s.winAnswerAll p w asid (if f.status = 0 then 0x19 else f.status.toNat)).winServe p w)

/-- The acknowledgement of a generation (R171). -/
def State.sendWinack (s : State) (node w : Nat) (gen : BitVec 8) : State :=
  s.send { flitOf 0x0C s.node node with win := BitVec.ofNat 6 w, gen := gen }

/-- WININV (R171): a fetching entry acknowledges and marks the generation killed; a valid entry that holds it drains;
any other acknowledges.  DESIGN CHOICE (log 22): of the pairs that R171's table lacks, an absent entry and a draining one of another
generation acknowledge and are left. -/
def execWininv (f : Flit) (s : State) : Host.Outcome State Fault Refusal :=
  if !s.takes f then .next (s.discard f)
  else
    let w := f.win.toNat
    let at_ := s.peerOf f.src.toNat w fun d => descState d != 0
    match at_ with
    | none => .next (s.sendWinack f.src.toNat w f.gen)
    | some p =>
      let d := s.winDesc p w
      match descState d with
      | 3 =>
        let t := s.sendWinack f.src.toNat w f.gen
        .next { t with killedGens := (p * 64 + w, f.gen) :: t.killedGens }
      | 1 =>
        if descGen d = f.gen then .next (s.setWinDesc p w (descWithState d 2)) else .next (s.sendWinack f.src.toNat w f.gen)
      | _ => if descGen d = f.gen then .next s else .next (s.sendWinack f.src.toNat w f.gen)

/-- WINDOW_DRAIN_COMPLETE (R56, R171): every access under the held generation has completed, been ticketed or refused;
the source acknowledges, and the entry is absent or fetched again for a WINREQ that waits. -/
def execWindowDrainComplete (p w : Nat) (s : State) : Host.Outcome State Fault Refusal :=
  let d := s.winDesc p w
  if descState d = 2 && !s.winBusy p w (descGen d) then
    let s := if p = 1023 then s else s.sendWinack (fld (s.level1 p).2 2 10) w (descGen d)
    .next ((s.setWinDesc p w 0).winServe p w)
  else .next s

/-! ### Time-stamp synchronisation (R174) -/

/-- TSYNC_TIMER (R174): 2^20 tk after its last, a package that is not the master sends TSYNC; the master's node is no
field of the package and is a free value (log 4). -/
def execTsyncTimer (s : State) : Host.Outcome State Fault Refusal :=
  if s.efiOn && !(s.reg 0x6080).getLsbD 0 && decide (2 ^ 20 ≤ s.since s.tsyncAt) then
    let d := s.drawFree
    .next (State.send { d.1 with tsync := s.now, tsyncAt := s.now.toNat }
      (flitOf 0x11 s.node ((Config.freeValue d.2).toNat % 1024)))
  else .next s

/-- TSYNC (R174): the master answers. -/
def execTsync (f : Flit) (s : State) : Host.Outcome State Fault Refusal :=
  if s.takes f && (s.reg 0x6080).getLsbD 0 then
    .next (s.send { flitOf 0x12 s.node f.src.toNat with tag := f.tag })
  else .next (s.discard f)

/-- TSYNCRSP (R174): the offset is half the measured round trip, recorded in OFS; more than 1,024 tk steps the
time-stamp forward, a smaller one is made up for by slewing; LOCK is set once the offset is at most 8 tk (log 24). -/
def execTsyncrsp (f : Flit) (s : State) : Host.Outcome State Fault Refusal :=
  if s.takes f && !(s.reg 0x6080).getLsbD 0 then
    let ofs := (s.now - s.tsync).toNat / 2
    let s := s.setReg 0x6088 (BitVec.ofNat 64 (ofs % 2 ^ 16))
    let s := if ofs ≤ 8 then s.setReg 0x6080 (s.reg 0x6080 ||| 2) else s
    .next (if 1024 < ofs then { s with now := s.now + BitVec.ofNat 64 ofs, slew := 0 } else { s with slew := ofs })
  else .next (s.discard f)

end Sys2Proof.Machine
end

