-- ==== Sys2Proof/Machine/Owner.lean ====
section
/-!
DEFINITION. The owner's side of the fabric (R41, R43 to R45, R48, R165, R170, R431): requests, tickets, notices and
exported windows.
-/
namespace Sys2Proof.Machine

/-! ### Write errors (R455) -/

/-- Record a refused register write (R455): the first since WERR was cleared keeps its source and offset (log 31). -/
def State.writeError (s : State) (src : Bool) (off : Nat) : State :=
  let e := s.reg 0
  if e.getLsbD 0 then s
  else s.setReg 0 (BitVec.ofNat 64 (1 + (if src then 2 else 0) + off % 2 ^ 20 * 4))

/-! ### Requests at the owner -/

/-- A KIND 1 record (R38). -/
def record1 (va : BitVec 64) (ticket peer win access cause : Nat) (asid : BitVec 16) : BitVec 256 :=
  dwords4 va (BitVec.ofNat 64 (ticket + peer * 2 ^ 16 + win * 2 ^ 26))
    (BitVec.ofNat 8 cause ++ BitVec.ofNat 2 access ++ 0#54) (1#2 ++ 0#14 ++ asid ++ 0#32)

/-- The owner-space address of a request's line. -/
def flitVa (f : Flit) : BitVec 64 := f.line.zeroExtend 64 <<< 6

/-- The die of a request's line (R17). -/
def flitDie (f : Flit) : Nat := vaDie (flitVa f)

/-- The ACCESS code of a request (R38): one that asks for ownership of its line is checked as a write, which it precedes
(R167). -/
def flitAccess (f : Flit) : Nat := if f.typ = 3 then 2 else if f.typ = 2 ∨ (f.fc ∧ f.excl) then 1 else 0

/-- Whether a request only asks for its page (R354). -/
def flitAsksPage (f : Flit) : Bool := f.typ = 1 && f.sect = 0 && !f.fc

/-- The response to a request (R161): its type, TAG, LINE, STATUS and data, on the request's plane. -/
def answerTo (f : Flit) (status : Nat) (data : BitVec 512) (pois : BitVec 4) : Flit :=
  { flitOf (f.typ.toNat + 3) f.dst.toNat f.src.toNat with
    plane := f.plane, tag := f.tag, line := f.line, status := BitVec.ofNat 8 status, data := data, pois := pois }

/-- Answer a request (R161); a page request gets no answer (R354). -/
def State.reply (s : State) (f : Flit) (status : Nat) (data : BitVec 512) (pois : BitVec 4) : State :=
  if (flitAsksPage f) then s
  else s.send { answerTo f status data pois with grant := status = 0 && f.fc && f.excl }

/-- Ticket a request (R43): a number, a KIND 1 record and the TICKET; without a free number, or with the pending buffer
full, the request is refused with 0x1C and no record. -/
def State.ticketFor (s : State) (f : Flit) (asid : BitVec 16) (tmo : Nat) : State :=
  let m := s.mtu (flitDie f)
  if (s.owned.filter fun e => !e.2.arrived).length ≥ 65536 ∨ (s.fqFull (flitDie f) ∧ m.pend.length ≥ 512) then s.reply f 0x1C 0 0
  else
    let s := if s.owned.length ≥ 65536 then { s with owned := s.owned.eraseP fun e => e.2.arrived } else s
    let n := Tab.fresh s.owned s.owned.length 0
    let t : OwnedTicket := ⟨(flitDie f), f.src.toNat, f.core.toNat, f.slot, f.line.toNat, asid, f.win, BitVec.ofNat 2 (flitAccess f),
      false, false, none, tmo⟩
    let s := State.send { s.bumpUnit 32 1 with owned := Tab.put s.owned n t } { flitOf 7 f.dst.toNat f.src.toNat with
      plane := f.plane, tag := f.tag, line := f.line
      tkt := BitVec.ofNat 32 (n + s.node * 2 ^ 16 + f.win.toNat * 2 ^ 26) }
    s.emit (flitDie f) (record1 (flitVa f) n f.src.toNat f.win.toNat (flitAccess f) 0x11 asid)

/-- The poisoned sectors of the line at a place. -/
def State.poisAt (s : State) (k : Nat) : BitVec 4 :=
  BitVec.ofNat 4 (((List.range 4).map fun q => if s.poisoned.contains (k / 16 + q) then 2 ^ q else 0).sum)

/-- Write a line and its poison at a place. -/
def State.putLine (s : State) (k : Nat) (data : BitVec 512) (pois : BitVec 4) : State :=
  let s := s.writeLE k 64 data.toNat
  (List.range 4).foldl (fun s q => if pois.getLsbD q then s.poison (k + 16 * q) 16 else s) s

/-- Step 5 of R165: perform a request at its place and answer; a switch that asks for the line is granted it, and a copy
that another switch holds is recalled first (R166).  A request that must wait for that, or for the copy of its own switch that is
being recalled, and every later one for the line, keeps its turn (R155). -/
def State.ownerPerform (s : State) (f : Flit) (k : Nat) : State :=
  let k := k / 64 * 64
  let held := s.lentAt k
  let me := lentKey f.line f.plane
  let others := if f.fc then held.filter fun e => e != me || s.recalling.contains e else held
  let waits := s.ownerQ.any fun e => e.1 = k
  if flitAsksPage f then s
  else if waits || !others.isEmpty then
    let s := { s with ownerQ := s.ownerQ ++ [(k, f)] }
    if waits then s else s.recallAll others
  else if f.fc then
    State.reply { s with lent := Tab.set [] s.lent (k / 64) (me :: held.erase me) } f 0 (BitVec.ofNat 512 (s.readLE k 64))
      (s.poisAt k)
  else
    let r := flitPerform f (BitVec.ofNat 512 (s.readLE k 64)) (s.poisAt k)
    let s := if f.typ = 1 then s else s.putLine k r.1 r.2.1
    s.reply f 0 r.2.2.1 r.2.2.2

/-- Take up the requests that waited for a line at a place which a switch has returned (R155, R166). -/
def State.ownerResume (s : State) (k : Nat) : State :=
  let mine := s.ownerQ.filter fun e => e.1 = k
  mine.foldl (fun s e => s.ownerPerform e.2 e.1) { s with ownerQ := s.ownerQ.filter fun e => e.1 ≠ k }

/-- Translate a request's line for each access it makes: one that asks for ownership reads and writes (R25, R167). -/
def State.ownerTranslate (s : State) (f : Flit) (asid : BitVec 16) : State × Except Nat Nat :=
  let go (s : State) (access : Nat) := s.translate (flitDie f) asid (vaOfs (flitVa f)) access
  if f.typ = 1 ∧ f.fc ∧ f.excl then
    match go s 0 with
    | (s, .ok _) => go s 1
    | r => r
  else go s (flitAccess f)

/-- Steps 3 to 5 of R165 under an ASID: the ticket a same-line access of the same group must take (unless the request
is a replay), translation, refusal with its record (R431), and the access. -/
def State.ownerTake (s : State) (f : Flit) (asid : BitVec 16) (tmo : Nat) (replay : Bool) : State :=
  let same := s.owned.any fun e => !e.2.arrived && e.2.peer = f.src.toNat && e.2.core = f.core.toNat && e.2.slot = f.slot &&
    e.2.ofs = f.line.toNat
  if !replay && same && !(flitAsksPage f) then
    if f.nf then s.reply f 0x11 0 0 else s.ticketFor f asid tmo
  else if (flitAsksPage f) then
    match s.residency (flitDie f) asid (vaOfs (flitVa f)) with
    | (s, some 0x11) => s.emit (flitDie f) (record1 (flitVa f) 0 f.src.toNat f.win.toNat 0 0x1D asid)
    | (s, _) => s
  else
    match s.ownerTranslate f asid with
    | (s, .ok k) => s.ownerPerform f k
    | (s, .error 0x11) => if f.nf then s.reply f 0x11 0 0 else s.ticketFor f asid tmo
    | (s, .error c) =>
      (s.emit (flitDie f) (record1 (flitVa f) 0 f.src.toNat f.win.toNat (flitAccess f) c asid)).reply f (if c = 0x12 then 0x1A else 0x1B) 0 0

/-- A closed window (R170). -/
def Export.closed : Export := ⟨0, 0, [], 0, 0, false⟩

/-- The checks of step 2 of R165: the status that refuses, if any. -/
def Export.refuses (e : Export) (f : Flit) : Option Nat :=
  if e.st = 0 then some 0x19
  else if descGen e.desc ≠ f.gen then some 0x18
  else if descKey e.desc ≠ f.key then some 0x16
  else if (flitVa f).toNat < descBase e.desc ∨ descBase e.desc + descLen e.desc ≤ (flitVa f).toNat then some 0x17
  else if !descPermits e.desc (flitAccess f) ∨ (f.typ = 1 ∧ !descPermits e.desc 0) then some 0x17
  else none

/-- The replayed access that bears a ticket arrives (R43): the ticket is free.  Of an atomic, whose lanes may fill several
AT packets (R46, R348), the number is still taken as its ticket's while no new ticket needs it (log 63). -/
def State.ticketArrived (s : State) (f : Flit) (t : OwnedTicket) : State :=
  if f.typ = 3 then
    { s with owned := Tab.put s.owned f.ticket.toNat { t with arrived := true, sentAt := some (t.sentAt.getD s.now.toNat) } }
  else { s with owned := Tab.drop s.owned f.ticket.toNat }

/-- OWNER_REQUEST (R165): an RD, WR or AT at the owner. -/
def execOwnerRequest (f : Flit) (s : State) : Host.Outcome State Fault Refusal :=
  if !s.takes f ∨ f.typ = 0 ∨ 3 < f.typ.toNat then .next (s.discard f)
  else
    let held := (Tab.find s.owned f.ticket.toNat).filter fun t => t.peer = f.src.toNat && t.ofs = f.line.toNat
    match f.replay, held with
    | true, some t =>
      .next ((s.ticketArrived f t).ownerTake f t.asid t.timeout true)
    | true, none => .next (s.reply f 0x15 0 0)
    | false, _ =>
      let e := Tab.get Export.closed s.exports f.win.toNat
      match e.refuses f with
      | some c => .next (s.reply f c 0 0)
      | none => .next (s.ownerTake f (descAsid e.desc) (descTmo e.desc) false)

/-! ### Notices (R43, R44) -/

/-- Send the NOTICE of a peer (R44, R163): up to 12 entries; a refused ticket is freed, a serviced one has its timeout
run from now. -/
def State.sendNotice (s : State) (peer : Nat) : State :=
  let es := (s.notices.filter fun n => n.peer = peer).take 12
  if es.isEmpty then s
  else
    let s := State.send { s with notices := s.notices.filter fun n => !es.contains n } { flitOf 8 s.node peer with
      count := BitVec.ofNat 4 es.length, payload := noticePayload (es.map fun n => (n.ticket, n.status)) }
    es.foldl (fun s n =>
      if n.status = 1 then { s with owned := Tab.drop s.owned n.ticket.toNat }
      else { s with owned := Tab.modify s.owned n.ticket.toNat fun t => { t with sentAt := some s.now.toNat } }) s

/-- Queue a notice for a ticket (R42, R43): refused as a write error when the owner does not hold it for that peer or
has queued it.  DESIGN CHOICE (log 61): either die's MTU_REPLAY takes OP 2 and 3, whichever die's MTU issued the ticket. -/
def State.queueNotice (s : State) (src : Bool) (die peer ticket : Nat) (status : BitVec 2) : State :=
  match Tab.find s.owned ticket with
  | some t =>
    if t.peer ≠ peer ∨ t.queued ∨ t.arrived then s.writeError src (mtuReg die 0x40)
    else
      let off := mtuReg die 0x40
      let r := setFld (setFld (setFld (s.reg off) 0 3 (2 + status.toNat)) 3 10 peer) 17 16 ticket
      let s := (s.setReg off r)
      let s := { s with
        owned := Tab.modify s.owned ticket fun t => { t with queued := true }
        notices := s.notices ++ [⟨peer, BitVec.ofNat 16 ticket, status, s.now.toNat⟩] }
      if 12 ≤ (s.notices.filter fun n => n.peer = peer).length then s.sendNotice peer else s
  | none => s.writeError src (mtuReg die 0x40)

/-- NOTICE_SERVICED (R42, R43): OP 2 of MTU_REPLAY. -/
def execNoticeServiced (die peer ticket : Nat) (s : State) : Host.Outcome State Fault Refusal :=
  .next (s.queueNotice false die peer ticket 0)

/-- NOTICE_REFUSED (R42, R43): OP 3 of MTU_REPLAY. -/
def execNoticeRefused (die peer ticket : Nat) (s : State) : Host.Outcome State Fault Refusal :=
  .next (s.queueNotice false die peer ticket 1)

/-- NOTICE_TIMER (R44): 1 µs after its first queued entry, a peer's NOTICE is sent. -/
def execNoticeTimer (peer : Nat) (s : State) : Host.Outcome State Fault Refusal :=
  match s.notices.find? fun n => n.peer = peer with
  | some n => .next (if 1000 ≤ s.since n.at_ then s.sendNotice peer else s)
  | none => .next s

/-- OWNER_TICKET_TIMEOUT (R43): one ticket timeout after its notice an unreplayed ticket is freed. -/
def execOwnerTicketTimeout (ticket : Nat) (s : State) : Host.Outcome State Fault Refusal :=
  match Tab.find s.owned ticket with
  | some t =>
    match t.sentAt with
    | some n => .next (if t.timeout ≤ s.since n then { s with owned := Tab.drop s.owned ticket } else s)
    | none => .next s
  | none => .next s

/-! ### Exported windows (R170) -/

/-- A RECALL that names a whole window (R170) carries no LINE; the model writes all ones there (log 30). -/
def wholeWindow : BitVec 50 := BitVec.allOnes 50

/-- An exported window. -/
def State.exp (s : State) (w : Nat) : Export := Tab.get Export.closed s.exports w

/-- Set an exported window; GEN and STATE go back to its entry in memory. -/
def State.setExp (s : State) (w : Nat) (e : Export) : State :=
  let k := s.baseOf 0x6018 11 + 32 * w + 16
  let d := s.read64 k
  let d := setFld (setFld d 32 8 (descGen e.desc).toNat) 45 2 e.st
  { (s.write64 k d) with exports := Tab.set Export.closed s.exports w { e with desc := descWithState e.desc e.st } }

/-- Note an operation in EFI_EXPCTL (R156): WIN, OP and whether GO still reads 1, until the window it names is where OP
leads. -/
def State.expReg (s : State) (w op : Nat) (go : Bool) : State :=
  { s.setReg 0x6020 (BitVec.ofNat 64 (w + op * 64)) with expGo := if go then some w else none }

/-- Close a window (R170): the GO of an operation on it clears. -/
def State.expClosed (s : State) (w : Nat) : State :=
  let s := s.setExp w { (s.exp w) with st := 0, stuck := false }
  { s with exports := Tab.drop s.exports w, expGo := if s.expGo = some w then none else s.expGo }

/-- EXPCTL_OPEN (R170): a closed window reads its entry, takes the next generation and opens. -/
def execExpctlOpen (w : Nat) (src : Bool) (s : State) : Host.Outcome State Fault Refusal :=
  if (s.exp w).st ≠ 0 then .next (s.writeError src 0x6020)
  else
    let d := BitVec.ofNat 256 (s.readLE (s.baseOf 0x6018 11 + 32 * w) 32)
    let d := setDw d 2 (setFld (dw d 2) 32 8 ((descGen d).toNat + 1))
    .next ((s.setExp w ⟨1, d, [], 0, 0, false⟩).expReg w 0 false)

/-- EXPCTL_CLOSE (R170): an open window asks its holders and every switch for their copies; R170 gives a CLOSE in another
state no action (log 22). -/
def execExpctlClose (w : Nat) (_src : Bool) (s : State) : Host.Outcome State Fault Refusal :=
  let e := s.exp w
  if e.st = 1 then
    let s := s.setExp w { e with st := 2, recalls := 64, at_ := s.now.toNat }
    let inv := e.holders.map fun n => { flitOf 0x0B s.node n with win := BitVec.ofNat 6 w, gen := descGen e.desc }
    let rec_ := (List.range 64).map fun i =>
      { flitOf 0x0F s.node s.node with plane := BitVec.ofNat 6 i, win := BitVec.ofNat 6 w, line := wholeWindow, hop := true }
    .next ((s.sendAll (inv ++ rec_)).expReg w 1 true)
  else .next (s.expReg w 1 (e.st = 2))

/-- EXPCTL_FORCE (R170): an invalidating window drops its remaining holders and closes. -/
def execExpctlForce (w : Nat) (src : Bool) (s : State) : Host.Outcome State Fault Refusal :=
  if (s.exp w).st = 2 then .next ((s.expReg w 2 true).expClosed w) else .next (s.writeError src 0x6020)

/-- EXPORT_STUCK_TIMEOUT (R170): 1 ms after entering, with holders left, STUCK is set. -/
def execExportStuckTimeout (w : Nat) (s : State) : Host.Outcome State Fault Refusal :=
  let e := s.exp w
  if e.st = 2 ∧ e.holders ≠ [] ∧ 1000000 ≤ s.since e.at_ then
    .next { s with exports := Tab.set Export.closed s.exports w { e with stuck := true } }
  else .next s

/-- The answer to a WINREQ (R170). -/
def State.winrsp (s : State) (f : Flit) (status : Nat) (d : BitVec 256) : State :=
  s.send { flitOf 0x0A s.node f.src.toNat with
    win := f.win, gen := descGen d, status := BitVec.ofNat 8 status, desc := d }

/-- WINREQ_RECEIVE (R170): an open window whose key matches records the holder and sends its descriptor, in which STATE,
PGEN and ASID read as R159 says of a response. -/
def execWinreqReceive (f : Flit) (s : State) : Host.Outcome State Fault Refusal :=
  if !s.takes f then .next (s.discard f)
  else
    let w := f.win.toNat
    let e := s.exp w
    if e.st ≠ 1 then .next (s.winrsp f 0x19 0)
    else if descKey e.desc ≠ f.key then .next (s.winrsp f 0x16 0)
    else
      let d := setDw e.desc 3 (setFld (dw e.desc 3) 16 16 0)
      let n := f.src.toNat
      .next (State.winrsp { s with exports := Tab.set Export.closed s.exports w { e with
        holders := if e.holders.contains n then e.holders else n :: e.holders } } f 0 d)

/-- Close an invalidating window whose last acknowledgement has come (R170). -/
def State.expSettle (s : State) (w : Nat) : State :=
  let e := s.exp w
  if e.st = 2 ∧ e.holders = [] ∧ e.recalls = 0 then s.expClosed w else s

/-- WINACK (R170): with the window's generation, the source is no longer a holder. -/
def execWinack (f : Flit) (s : State) : Host.Outcome State Fault Refusal :=
  if !s.takes f then .next (s.discard f)
  else
    let w := f.win.toNat
    let e := s.exp w
    if e.st ≠ 0 ∧ descGen e.desc = f.gen then
      .next ({ s with exports := Tab.set Export.closed s.exports w { e with holders := e.holders.erase f.src.toNat } }.expSettle w)
    else .next s

/-- PROBE (R137, R169): the owner's interface answers once the releases of its cores to the line that are now in flight
have been performed; every write before a performed release is then performed (R128). -/
def execProbe (f : Flit) (s : State) : Host.Outcome State Fault Refusal :=
  if !s.takes f then .next (s.discard f)
  else
    let ops := Tab.keys (s.memops.filter fun e => e.2.releasesLine fun l => !isFabric l.addr && l.addr.toNat / 64 = f.line.toNat)
    .next (State.pump { s with probeHeld := s.probeHeld ++
      [({ flitOf 0x0E s.node f.src.toNat with tag := f.tag, line := f.line }, ops)] })

end Sys2Proof.Machine
end

