-- ==== Sys2Proof/Machine/Life.lean ====
section
/-!
DEFINITION. The lives of groups, teams and grids: events and dependences (R206), the core map (R208), the end of a group
(R246, R306, R364), of a team (R72, R209, R211) and of a grid (R207), and EXIT.
-/
namespace Sys2Proof.Machine

/-! ### Fields of a launch descriptor (R201) -/

/-- A field of a dword of a grid's descriptor. -/
def Grid.fld (g : Grid) (d lo n : Nat) : Nat := Machine.fld (g.desc.getD d 0) lo n

/-- The group width. -/
def Grid.width (g : Grid) : Nat := 16 * 2 ^ g.fld 4 0 2
/-- The groups of a team. -/
def Grid.nGroups (g : Grid) : Nat := g.fld 4 2 5 + 1
/-- Whether a team takes two cores. -/
def Grid.paired (g : Grid) : Bool := g.fld 4 7 1 = 1
/-- The tiles of a team. -/
def Grid.tregs (g : Grid) : Nat := g.fld 4 12 5
/-- The accumulators of a team on each of its cores. -/
def Grid.aregs (g : Grid) : Nat := g.fld 4 17 5
/-- The granules of a group's block (R188). -/
def Grid.granules (g : Grid) : Nat := 32 * 2 ^ g.fld 4 9 3 * g.width / 512
/-- Whether the grid is pinned. -/
def Grid.pinned (g : Grid) : Bool := g.fld 4 25 1 = 1
/-- The scratchpad of a team on each of its cores in 512-byte units. -/
def Grid.teamSp (g : Grid) : Nat := g.fld 2 24 12
/-- The grid's split (R66). -/
def Grid.split (g : Grid) : BitVec 24 := (g.desc.getD 2 0).extractLsb' 0 24
/-- The contribution to cluster-shared memory. -/
def Grid.cssz (g : Grid) : Nat := g.fld 2 18 6
/-- The groups of a team on its first core. -/
def Grid.groups0 (g : Grid) : Nat := if g.paired then (g.nGroups + 1) / 2 else g.nGroups
/-- The number of teams of a descriptor. -/
def teamsOf (desc : List (BitVec 64)) : Nat :=
  let d := desc.getD 3 0
  Machine.fld d 0 32 * Machine.fld d 32 16 * Machine.fld d 48 16
/-- The value of a register of Damper that is in effect: one written in the current ramp slot takes effect at the next
(R466). -/
def State.dmp (s : State) (off : Nat) : BitVec 64 :=
  match Tab.find s.damper.held off with
  | some (slot, old) => if slot = s.now.toNat / 1000 then old else s.reg off
  | none => s.reg off

/-- The estimate of a team in mW (R222), a fraction of a mW dropped (DESIGN CHOICE, log 67). -/
def State.est (s : State) (g : Grid) : Nat :=
  let w := s.dmp 0x7008
  g.nGroups * g.width * Machine.fld w 0 16 / 64 + g.aregs * Machine.fld w 16 16 * (if g.paired then 2 else 1)

/-! ### Events (R206) -/

/-- The place of an event's entry in its context's table (R465, R470). -/
def State.evtKey (s : State) (asid : BitVec 16) (e : Nat) : Nat :=
  let t := (s.ctx asid).evt
  physKey 0 (fld t 52 1) (fld t 12 40 * 2 ^ 12) + 8 * e

/-- The count of an event. -/
def State.evCount (s : State) (asid : BitVec 16) (e : Nat) : Nat := s.readLE (s.evtKey asid e) 4

/-- Whether a count has met a threshold. -/
def countMet (count thresh : Nat) : Bool := decide ((count + 2 ^ 32 - thresh) % 2 ^ 32 < 2 ^ 31)

/-- Examine the dependences of a grid: one once met stays met, and the grid is ready when all in use are. -/
def State.examine (s : State) (g : Grid) : Grid :=
  let ok (k : Nat) : Bool :=
    g.depMet.getLsbD k || g.fld (7 + k) 16 1 = 0 || countMet (s.evCount g.asid (g.fld (7 + k) 0 16)) (g.fld (7 + k) 32 32)
  let m : BitVec 4 := BitVec.ofNat 4 (((List.range 4).map fun k => if ok k then 2 ^ k else 0).sum)
  { g with
    depMet := m
    readyAt := if g.readyAt.isNone && m = 15 then some s.now.toNat else g.readyAt }

/-- Whether a grid waits on an event. -/
def Grid.waitsOn (g : Grid) (asid : BitVec 16) (e : Nat) : Bool :=
  g.asid = asid && g.readyAt.isNone && !g.discarded &&
    (List.range 4).any fun k => g.fld (7 + k) 16 1 = 1 && g.fld (7 + k) 0 16 = e

/-- Whether Carillon's DEV event ends the frame under way (R220). -/
def State.isDev (s : State) (asid : BitVec 16) (e : Nat) : Bool :=
  (s.reg 0x4000).getLsbD 1 && s.carillon.inFrame && asid = s.carAsid && fld (s.reg 0x4028) 16 16 = e

/-- One signal of an event (R206): the count, the grids that wait on it, and the frame that its DEV ends. -/
def State.signalOnce (s : State) (asid : BitVec 16) (e : Nat) : State :=
  let s := s.writeLE (s.evtKey asid e) 4 (s.evCount asid e + 1)
  let s := { s with grids := s.grids.map fun (x : Nat × Grid) => if x.2.waitsOn asid e then (x.1, s.examine x.2) else x }
  if s.isDev asid e then { s with carillon := { s.carillon with frameEnded := true } } else s

/-- Whether every team of a ready grid has ended. -/
def Grid.isOver (g : Grid) : Bool := g.readyAt.isSome && g.next = g.teams && g.endedTeams = g.teams

/-! ### The core map (R208) -/

/-- The grid that drains a cluster (R211) and still has a team to place. -/
def State.drainsFor (s : State) (cluster : Nat) : Option Grid :=
  (s.grids.find? fun e => e.2.drain = some cluster && decide (e.2.next < e.2.teams) && !e.2.discarded).map (·.2)

/-- The priority of a grid. -/
def Grid.prio (g : Grid) : Nat := g.fld 4 22 3

/-- Whether grid a goes before grid b in the order of placement (R210). -/
def Grid.before (a b : Grid) : Bool :=
  decide (b.prio < a.prio) || (a.prio = b.prio &&
    (decide (a.readyAt.getD 0 < b.readyAt.getD 0) || (a.readyAt = b.readyAt && decide (a.order < b.order))))

/-- Whether a grid has a team to place. -/
def Grid.wantsCore (g : Grid) : Bool := g.readyAt.isSome && decide (g.next < g.teams) && !g.discarded

/-- Whether launch sources have stopped placing teams of a context for a save (R239). -/
def State.launchHeld (s : State) (asid : BitVec 16) : Bool := s.saves.any fun v => v.asid = asid && v.error.isNone

/-- Whether launch sources place no team of a grid for a save (R239): the grid of Carillon's current frame goes on, since
Carillon stops only at the frame's end (log 67). -/
def State.gridHeld (s : State) (g : Grid) : Bool :=
  s.launchHeld g.asid && !(s.carillon.inFrame && g.frame = some s.carillon.frame)

/-- The pinned grid that waits to be placed whole and goes before the others (R210). -/
def State.pinnedNext (s : State) : Option (Nat × Grid) :=
  (s.grids.filter fun e => e.2.wantsCore && e.2.pinned && !s.gridHeld e.2).foldl
    (fun (b : Option (Nat × Grid)) e => match b with
      | some h => if e.2.before h.2 then some e else some h
      | none => some e) none

/-- Reserve a core, as it frees, for the pinned grid that waits (R210). -/
def State.reserveCore (s : State) (core : Nat) : State :=
  let c := s.core core
  match s.pinnedNext with
  | some e => if c.reserved.isNone && !c.absent && !c.fenced then s.setCore core { c with reserved := some e.1 } else s
  | none => s

/-- Settle a core with no resident team (R208, R210, R211): it is reserved for a pinned grid that waits; a draining one takes the waiting grid's split, one whose cluster's
region is held or that drained for a grid keeps its split, any other has none, and its SPLIT reads 0 (DESIGN CHOICE, log 67). -/
def State.settleCore (s : State) (core : Nat) : State :=
  let c := s.core core
  if !(s.teamsOn core).isEmpty then s
  else
    let s := match c.drain, s.drainsFor (core / 8) with
      | true, some g => s.setCore core { c with drain := false, splitv := true, split := g.split, asid := g.asid }
      | true, none => s.setCore core { c with drain := false, splitv := false, split := 0 }
      | false, d =>
        if (Tab.find s.csHold (core / 8)).isSome || (c.splitv && (d.map fun (g : Grid) => g.split = c.split && g.asid = c.asid).getD false)
        then s else s.setCore core { c with splitv := false, split := 0 }
    (s.reserveCore core).putCmap core

/-! ### Completion (R207) -/

/-- Complete a grid: its event is signalled, a frame it served ends (R220), and cores kept for it are free. -/
def State.completeGrid (s : State) (k : Nat) (g : Grid) : State :=
  let s := { s with grids := Tab.drop s.grids k }
  let s := match g.drain with
    | some cl => (List.range 8).foldl (fun s i => s.settleCore (cl * 8 + i)) s
    | none => s
  let s := if g.fld 6 32 1 = 1 && !g.discarded then s.signalOnce g.asid (g.fld 6 16 16) else s
  if s.carillon.grid = some k then { s with carillon := { s.carillon with frameEnded := true, grid := none } } else s

/-- Complete every grid that is over; one completion can let another, with no teams, complete. -/
def State.completeReady : Nat → State → State
  | 0, s => s
  | n + 1, s =>
    match s.grids.find? fun e => e.2.isOver with
    | some (k, g) => State.completeReady n (s.completeGrid k g)
    | none => s

/-- Settle the grids after a change. -/
def State.settleGrids (s : State) : State := s.completeReady (s.grids.length + 1)

/-- Signal an event (R206) with what follows from it. -/
def State.signal (s : State) (asid : BitVec 16) (e : Nat) : State := (s.signalOnce asid e).settleGrids

/-! ### The end of a team and of a group -/

/-- The host's direct write of a COUNT (R206), which may meet a dependence: every waiting grid is examined (log 15). -/
def State.examineAll (s : State) : State :=
  ({ s with grids := s.grids.map fun (x : Nat × Grid) =>
      if x.2.readyAt.isNone && !x.2.discarded then (x.1, s.examine x.2) else x }).settleGrids

/-- The cores of a team. -/
def Team.cores (t : Team) : List Nat := if t.paired then [t.core, t.core + 1] else [t.core]

/-- A team leaves its cores, and with the last of its grid there the cluster-shared region is released (R72). -/
def State.leaveCores (s : State) (k : Nat) (t : Team) : State :=
  let s := { s with teams := Tab.drop s.teams k }
  let s := t.cores.foldl (fun s c => s.setCore c { s.core c with lastAsid := some t.asid }) s
  let cl := t.core / 8
  let lastHere := (Tab.find s.csHold cl = some t.grid) && !(s.teams.any fun e => e.2.grid = t.grid && e.2.core / 8 = cl)
  let s := if lastHere then
      let s := { s with csHold := Tab.drop s.csHold cl }
      (List.range 8).foldl (fun s i => s.settleCore (cl * 8 + i)) s
    else t.cores.foldl (fun s c => (s.settleCore c)) s
  t.cores.foldl (fun s c => if (s.teamsOn c).isEmpty then s else s.putCmap c) s

/-- Retire a team all of whose groups have ended: its cores, and its grid (R207). -/
def State.retireTeam (s : State) (k : Nat) (t : Team) : State :=
  ({ s with grids := Tab.modify s.grids t.grid fun g => { g with endedTeams := g.endedTeams + 1 } }.leaveCores k t).settleGrids

/-- A barrier after a group has ended (R364). -/
def Bar.leave (b : Bar) (gid : Nat) : Bar :=
  let arrived := b.arrived.filter (· ≠ gid)
  let expected := b.expected - 1
  if arrived ≠ [] ∧ arrived.length = expected then ⟨[], expected, !b.phase⟩ else ⟨arrived, expected, b.phase⟩

/-- The end of a group (R306, R246): barriers, accumulators, slot, and the team when it was the last. -/
def State.endGroup (s : State) (g : Group) : State :=
  let s := (s.waitEnd g).trace g 6 8 g.pc g.seqNo 1
  let s := { s.countWrites g with groups := Tab.drop s.groups (gkey g.core g.slot) }
  let s := s.modTeam g.team fun t => { t with
    ended := t.ended + 1
    slots := t.slots.filter fun x => x.1 ≠ g.gid
    bars := t.bars.map fun e => (e.1, e.2.leave g.gid)
    accs := t.accs.map fun e => if e.2.owner = some (gkey g.core g.slot) then (e.1, { e.2 with owner := none, full := true }) else e }
  match s.team g.team with
  | some t => if t.slots.isEmpty then s.retireTeam g.team t else s.putCmap g.core
  | none => s

/-- Whether every register of a group is full. -/
def Group.allFull (g : Group) : Bool :=
  (g.v.all fun e => e.2.full) && (g.s.all fun e => e.2.full) && (g.p.all fun e => e.2.full)

/-- Whether an operation of an engine still belongs to a group. -/
def State.engineBusy (s : State) (core slot : Nat) : Bool :=
  (s.copies.any fun e => e.2.core = core && e.2.slot = slot && e.2.detached.isNone) ||
    (s.matops.any fun e => e.2.core = core && e.2.slot = slot)

/-- EXIT (R306): wait for the fills, the engines, the speculative region, every access and every ticket; then the group
ends. -/
def execExit (s : State) : Host.Outcome State Fault Refusal :=
  issueWith .exit noLimit (fun s g => do
    need (g.allFull && !s.engineBusy g.core g.slot && g.spec.isNone) .wait
    need ((s.accessesOf g.core g.slot).isEmpty) .wait
    return { s := s.endGroup g, g := g, keep := false }) s

/-! ### Kill (R246) -/

/-- The range locks of a core without those of an operation. -/
def State.unlock (s : State) (core op : Nat) : State :=
  let c := s.core core
  s.setCore core { c with locks := c.locks.filter fun e => e.2.op ≠ op }

/-- The number that names an operation no group waits for. -/
def noSlot : Nat := 16

/-- Drop what a group has in flight (R246): fills, accesses with their tickets, matrix operations; a copy between
chunks goes, one within a chunk goes on to its end without a token to fill (log 37). -/
def State.dropOps (s : State) (core slot : Nat) : State :=
  let mine (c k : Nat) : Bool := c = core && k = slot
  let tell (s : State) (pc : BitVec 64) (seq : BitVec 32) : State :=
    match s.group core slot with
    | some g => s.trace g 1 3 pc seq (2 ^ 32)
    | none => s
  let cs := s.copies.filter fun e => mine e.2.core e.2.slot && e.2.detached.isNone
  let ms := s.matops.filter fun e => mine e.2.core e.2.slot
  let s := cs.foldl (fun s e => tell s e.2.pc e.2.seq) s
  let s := ms.foldl (fun s e => tell s e.2.pc e.2.seq) s
  let s := (s.psq.filter fun e => mine e.2.core e.2.slot && e.2.copy.isNone).foldl (fun s e => tell s e.2.pc e.2.seq) s
  let gone := cs.filter fun e => e.2.wait.isNone || e.2.stopped
  let s := gone.foldl (fun s e => s.unlock core e.1) s
  let s := ms.foldl (fun s e => s.unlock core e.1) s
  let dead (o : MemOp) : Bool := mine o.core o.slot &&
    match o.engine with
    | some (0, id) => gone.any fun e => e.1 = id
    | _ => true
  let away := s.dropMemops fun e => dead e.2
  { away with
    memops := away.memops.map fun e => if mine e.2.core e.2.slot then (e.1, { e.2 with slot := noSlot }) else e
    probes := s.probes.filter fun q => (Tab.find s.memops q.op).any fun o => !dead o
    sfuops := s.sfuops.filter fun e => !mine e.2.core e.2.slot
    winWaits := s.winWaits.filter fun q => !mine q.core q.slot
    psq := s.psq.map fun e => if mine e.2.core e.2.slot then (e.1, { e.2 with slot := noSlot }) else e
    matops := s.matops.filter fun e => !mine e.2.core e.2.slot
    copies := (s.copies.filter fun e => !gone.any fun x => x.1 = e.1).map fun e =>
      if mine e.2.core e.2.slot && e.2.detached.isNone then (e.1, { e.2 with slot := noSlot, cancel := true }) else e }

/-- Kill a group (R246). -/
def State.killGroup (s : State) (g : Group) : State := ((s.dropOps g.core g.slot).endGroup g).pump

end Sys2Proof.Machine
end

