-- ==== Sys2Proof/Machine/Driver.lean ====
section
/-!
DEFINITION. What the driver does at an MTU (R29 to R32, R40 to R42): the fault ring, invalidation, replay and kill; the
boundary stop (R50) and instruction fetch as a step of its own (R281).
-/
namespace Sys2Proof.Machine

/-! ### The fault ring (R40, R41) -/

/-- FAULT_RECORD_DRAIN (R41): once the ring has room, the oldest pending record is written, and one that waits behind the
full pending buffer takes its place. -/
def execFaultRecordDrain (die : Nat) (s : State) : Host.Outcome State Fault Refusal :=
  let m := s.mtu die
  match m.pend with
  | r :: rest =>
    if s.fqFull die then .next s
    else .next ((s.fqWrite die r).setMtu die { m with pend := rest ++ m.behind.take 1, behind := m.behind.drop 1 })
  | [] => .next s

/-- FQ_SIZE_WRITE (R40): an accepted write sets the ring's size and resets HEAD and TAIL. -/
def execFqSizeWrite (die : Nat) (src : Bool) (w : BitVec 64) (s : State) : Host.Outcome State Fault Refusal :=
  let n := fld w 0 5
  if n < 7 ∨ 20 < n ∨ fld (s.reg (mtuReg die 0x28)) 0 20 ≠ fld (s.reg (mtuReg die 0x30)) 0 20 ∨ (s.mtu die).pend ≠ [] then
    .next (s.writeError src (mtuReg die 0x20))
  else
    .next (((s.setReg (mtuReg die 0x20) (BitVec.ofNat 64 n)).setReg (mtuReg die 0x28) 0).setReg (mtuReg die 0x30) 0)

/-! ### Invalidation (R29, R30) -/

/-- The range that a value of MTU_INVCTL and the die's MTU_INVVA name. -/
def State.invRange (s : State) (die : Nat) (w : BitVec 64) : InvRange :=
  ⟨w.getLsbD 16, w.extractLsb' 0 16, w.extractLsb' 17 2, fld (s.reg (mtuReg die 0x10)) 16 39 * 2 ^ 16⟩

/-- Whether a range is aligned to its SIZE. -/
def InvRange.aligned (r : InvRange) : Bool :=
  match r.size.toNat with
  | 1 => r.va % 2 ^ 21 = 0
  | 2 => r.va % 2 ^ 30 = 0
  | _ => true

/-- Whether an OPEN's range is the one a CLOSE began (R30). -/
def InvRange.same (a b : InvRange) : Bool :=
  a.allAsid = b.allAsid && (a.allAsid || a.asid = b.asid) && a.size = b.size && (a.size = 3 || a.va = b.va)

/-- Whether a line of an exported window, by its owner address, lies in a range of a die. -/
def InvRange.hitsLine (r : InvRange) (die line : Nat) : Bool :=
  line / 2 ^ 49 % 2 = die && InvRange.covers { r with allAsid := true } 0 (line % 2 ^ 49 * 64)

/-- The switch copies of the lines in a range of a die (R166). -/
def State.lentIn (s : State) (die : Nat) (r : InvRange) : List Nat :=
  s.lent.flatMap fun e => e.2.filter fun l => r.hitsLine die (l % 2 ^ 50)

/-- Start an invalidation (R30): the matching translations go, with every walk-cache entry of the
ASID or ASIDs, every core's filter is flushed of the range, and the
switch copies are recalled; MTU_INVCTL keeps MODE (log 38). -/
def State.invalidate (s : State) (die : Nat) (w : BitVec 64) (r : InvRange) : State :=
  let m := s.mtu die
  let s := s.setMtu die { m with
    tlb := m.tlb.filter fun l => !(r.allAsid || l.asid = r.asid) ||
      !(r.covers l.asid l.base || (r.size ≠ 3 && decide (l.base ≤ r.va) && decide (r.va < l.base + pageSize l.level)))
    walkCache := m.walkCache.filter fun c => !(r.allAsid || c.asid = r.asid)
    inval := some r }
  let s := { s with
    cores := s.cores.map fun (e : Nat × Core) => (e.1, { e.2 with
      filter := e.2.filter.filter (fun t => !(t.2 / 2 ^ 39 % 2 = die && r.covers t.1 (t.2 % 2 ^ 39 * 2 ^ 16))) }) }
  let s := s.recallAll (s.lentIn die r)
  s.setReg (mtuReg die 8) (BitVec.ofNat 64 (w.toNat % 2 ^ 21 + 2 ^ 63))

/-- A DROP from a source, the host or the management core (R30, R455). -/
def State.invDrop (s : State) (src : Bool) (die : Nat) (w : BitVec 64) : State :=
  let r := s.invRange die w
  if r.aligned then s.invalidate die w r else s.writeError src (mtuReg die 8)

/-- A CLOSE from a source (R30, R455): the range is closed; a 17th has the write-error fate.  DESIGN CHOICE (log 38): a
CLOSE of a range that is closed already takes another of the 16 entries. -/
def State.invClose (s : State) (src : Bool) (die : Nat) (w : BitVec 64) : State :=
  let r := s.invRange die w
  if !r.aligned || decide (16 ≤ (s.mtu die).closed.length) then s.writeError src (mtuReg die 8)
  else
    let s := s.invalidate die w r
    s.setMtu die { s.mtu die with closed := (s.mtu die).closed ++ [r] }

/-- An OPEN from a source (R30, R455): the closed range it matches ends.  DESIGN CHOICE (log 38): every entry that holds
exactly that range ends with one OPEN. -/
def State.invOpen (s : State) (src : Bool) (die : Nat) (w : BitVec 64) : State :=
  let r := s.invRange die w
  if !r.aligned then s.writeError src (mtuReg die 8)
  else
    let s := s.invalidate die w r
    s.setMtu die { s.mtu die with closed := (s.mtu die).closed.filter fun c => !c.same r }

/-- MTU_INVCTL_DROP (R30). -/
def execMtuInvctlDrop (die : Nat) (w : BitVec 64) (s : State) : Host.Outcome State Fault Refusal := .next (s.invDrop false die w)

/-- MTU_INVCTL_CLOSE (R30). -/
def execMtuInvctlClose (die : Nat) (w : BitVec 64) (s : State) : Host.Outcome State Fault Refusal := .next (s.invClose false die w)

/-- MTU_INVCTL_OPEN (R30). -/
def execMtuInvctlOpen (die : Nat) (w : BitVec 64) (s : State) : Host.Outcome State Fault Refusal := .next (s.invOpen false die w)

/-- MTU_INVALIDATE_COMPLETE (R30, R166): once no switch holds a line of the range, GO clears. -/
def execMtuInvalidateComplete (die : Nat) (s : State) : Host.Outcome State Fault Refusal :=
  match (s.mtu die).inval with
  | some r =>
    if (s.lentIn die r).isEmpty then
      .next ((s.setMtu die { s.mtu die with inval := none }).setReg (mtuReg die 8)
        (s.reg (mtuReg die 8) &&& ~~~(1#64 <<< 63)))
    else .next s
  | none => .next s

/-! ### Replay and kill (R42, R232, R246) -/

/-- Clear a core's residency filter (R32). -/
def State.clearFilter (s : State) (core : Nat) : State := s.setCore core { s.core core with filter := [] }

/-- Note an operation of MTU_REPLAY on a group (R42): it is accepted at once, and the fields that it does not use stay as
they were written (R9). -/
def State.replayReg (s : State) (die op core slot : Nat) : State :=
  let off := mtuReg die 0x40
  s.setReg off (setFld (setFld (setFld (s.reg off) 0 3 op) 3 10 core) 13 4 slot)

/-- The arrival of an engine operation at the page-store unit (R149): kinds 8 up are the forms of major 0x29. -/
def CopyOp.arrival (c : CopyOp) (id : Nat) : PsOp :=
  { kind := 8 + c.form, core := c.core, slot := c.slot, asid := c.asid, copy := some id, word := c.word, pc := c.pc,
    seq := c.seq, dst := c.token, a := c.regs, b := 0, done := false }

/-- Let an operation arrive at the page-store unit, last in order (R105). -/
def State.arrive (s : State) (q : PsOp) : State :=
  let n := s.newId
  { n.1 with psq := Tab.put n.1.psq n.2 q }

/-- Restart an engine operation that a stop names (R42, R232); one that the page-store unit has not taken arrives there
again. -/
def State.restartEngine (s : State) (id : Nat) : State :=
  let s := { s with
    copies := Tab.modify s.copies id fun c => { c with stopped := false, buf := [] }
    matops := Tab.modify s.matops id fun m => { m with stopped := false } }
  match Tab.find s.copies id with
  | some c =>
    if 2 ≤ c.form ∧ c.form ≤ 4 ∧ c.phase = 0 ∧ !(s.psq.any fun e => e.2.copy = some id) then s.arrive (c.arrival id) else s
  | none => s

/-- Restart the engine operations that a stop names. -/
def State.restartEngines (s : State) (ops : List Nat) : State := ops.foldl State.restartEngine s

/-- OP 0 from a source (R42, R455): the return from a stop; a group not stopped on a fault is a write error. -/
def State.replayStopped (s : State) (src : Bool) (die core slot : Nat) : State :=
  match s.group core slot with
  | some g =>
    match g.stop with
    | some st => (((s.replayReg die 0 core slot).clearFilter core).setGroup (g.resume s.clk)).restartEngines st.ops
    | none => s.writeError src (mtuReg die 0x40)
  | none => s.writeError src (mtuReg die 0x40)

/-- OP 1 from a source (R42, R246, R455). -/
def State.killStopped (s : State) (src : Bool) (die core slot : Nat) : State :=
  match s.group core slot with
  | some g =>
    if g.stop.isSome then ((s.replayReg die 1 core slot).clearFilter core).killGroup g
    else s.writeError src (mtuReg die 0x40)
  | none => s.writeError src (mtuReg die 0x40)

/-- REPLAY_GROUP (R42): OP 0. -/
def execReplayGroup (die core slot : Nat) (s : State) : Host.Outcome State Fault Refusal :=
  .next (s.replayStopped false die core slot)

/-- KILL_GROUP (R42, R246): OP 1. -/
def execKillGroup (die core slot : Nat) (s : State) : Host.Outcome State Fault Refusal :=
  .next (s.killStopped false die core slot)

/-! ### The boundary stop (R50) -/

/-- BOUNDARY_STOP (R50): a group with late faults stops at the instruction boundary it has reached, once for all of them
(log 58): what it stops for is the first, and an OP 0 restarts the operations of all. -/
def execBoundaryStop (core slot : Nat) (s : State) : Host.Outcome State Fault Refusal :=
  match s.group core slot with
  | some g =>
    match g.late with
    | st :: rest =>
      if g.stop.isNone && g.holds.isEmpty && g.ibufWait.isNone then
        .next (s.parkGroup { g with late := [] } { st with ops := st.ops ++ rest.flatMap Stop.ops })
      else .next s
    | [] => .next s
  | none => .next s

/-! ### Instruction fetch (R281) -/

/-- Begin the fetch of an instruction word through a window: the checks of R160, then a request (R161). -/
def State.fetchFabric (s : State) (g : Group) (va : BitVec 64) : State :=
  match s.checkFabric g.asid va 4 3 with
  | .error c => s.fetchStop g (.fate c 2 va)
  | .ok _ =>
    if vaPeer va ≠ 1023 ∧ !s.planeOpen (planeOf va) then s.waitGroup g g.waitsIn
    else
      let o := { g.newOp Pfx.none 0 .fetch 6 4 with mask := 0, lanes := [{ laneReq 0 va 0 0 with at_ := .fabric }] }
      let n := s.newId
      let s := { n.1 with memops := Tab.put n.1.memops n.2 { o with lines := n.1.fabLines o } }
      (s.setGroup { g with ibufWait := some n.2, waiting := true }).pump

/-- INSTRUCTION_FETCH (R281): a group that can issue buffers the words of its instruction, through the owning MTU or
through a window, or stops precisely for what the fetch met. -/
def execInstructionFetch (core slot : Nat) (s : State) : Host.Outcome State Fault Refusal :=
  match s.group core slot with
  | some g =>
    if !g.canIssue then .next s
    else
      match s.fetch g with
      | (s, .ok _ ws) => .next (s.setGroup { g with ibuf := some (g.pc, ws) })
      | (s, .fabric va ws) => .next (s.fetchFabric { g with ibuf := some (g.pc, ws) } va)
      | (s, f) => .next (s.fetchStop g f)
  | none => .next s

end Sys2Proof.Machine
end

