-- ==== Sys2Proof/Machine/Place.lean ====
section
/-!
DEFINITION. Launch descriptors (R65, R202), placement of teams (R67, R72, R209 to R212), and the ramp (R222 to R224).
-/
namespace Sys2Proof.Machine

/-! ### The checks of a descriptor (R65, R202) -/

/-- Whether an SRAMSPLIT word fails R65 for a width and a paired team.  DEDUCED (log 62): L1SZ 62 and 63 pass where the four sizes
add up to 64. -/
def splitBad (w : BitVec 64) (width : Nat) (paired : Bool) : Bool :=
  let f := fld w
  f 0 6 + f 6 6 + f 12 6 + f 18 6 ≠ 64 || decide (f 0 6 < 4) || decide (f 6 6 * 2 ^ 14 < f 24 12 * 512) ||
    decide (16 < f 36 5) || decide (f 12 6 * 2 ^ 14 < width * f 36 5 * 64) ||
    (f 18 6 ≠ 0 && f 6 6 = 0 && f 24 12 ≠ 0 && paired) || f 41 23 ≠ 0

/-- Whether the resources of one core hold k parts of `n` groups, `t` tiles and `a` accumulators of a grid when empty. -/
def Grid.coreHolds (g : Grid) (n t a k : Nat) : Bool :=
  decide (k * n ≤ 16) && decide (k * (n * g.granules) ≤ 256) && decide (k * t ≤ 16) && decide (k * a ≤ 16) &&
    decide (k * g.teamSp ≤ g.fld 2 6 6 * 32)

/-- How many teams of a grid an empty core, or pair, holds (R202, R209). -/
def Grid.perCore (g : Grid) : Nat :=
  ((List.range 16).filter fun k => g.coreHolds g.groups0 g.tregs g.aregs (k + 1) &&
    (!g.paired || g.coreHolds (g.nGroups - g.groups0) 0 g.aregs (k + 1))).length

/-- Whether a core is present and neither fenced nor being fenced (R249). -/
def State.coreUp (s : State) (c : Nat) : Bool :=
  decide (c < 640) && !(s.core c).absent && !(s.core c).fenced && !(s.saves.any fun v => v.error = some c)

/-- Whether a cluster-shared grid may use a core's cluster (R72). -/
def State.clusterUp (s : State) (c : Nat) : Bool := (List.range 8).all fun i => s.coreUp (c / 8 * 8 + i)

/-- The teams of a grid that the present, unfenced cores hold at once when empty (R202). -/
def State.capacity (s : State) (g : Grid) : Nat :=
  let heads := (List.range 640).filter fun c => (!g.paired || c % 2 = 0) && s.coreUp c && (!g.paired || s.coreUp (c + 1)) &&
    (g.cssz = 0 || s.clusterUp c)
  heads.length * g.perCore

/-- Whether the reserved bits and fields of a descriptor fail R202. -/
def Grid.formBad (g : Grid) (evn : Nat) : Bool :=
  let d := g.fld
  let role (k : Nat) : Nat := d 5 (2 * k) 2
  d 0 0 2 ≠ 0 || d 0 57 7 ≠ 0 || d 4 0 2 = 3 || d 4 30 34 ≠ 0 || d 6 33 31 ≠ 0 ||
    ((List.range 4).any fun k => d (7 + k) 17 15 ≠ 0 || (d (7 + k) 16 1 = 0 && g.desc.getD (7 + k) 0 ≠ 0) ||
      (d (7 + k) 16 1 = 1 && decide (evn ≤ d (7 + k) 0 16))) ||
    ((List.range 5).any fun k => g.desc.getD (11 + k) 0 ≠ 0) ||
    decide (2 ^ 32 < teamsOf g.desc) || (!g.paired && decide (16 < g.nGroups)) || (g.paired && g.nGroups = 1) ||
    decide (4 < d 4 9 3) || decide (16 < g.tregs) || decide (16 < g.aregs) ||
    (d 4 8 1 = 0 && g.desc.getD 5 0 ≠ 0) ||
    ((List.range 32).any fun k => if k < g.nGroups then role k = 3 else role k ≠ 0) ||
    ((List.range 4).any fun r => d 6 (4 * r) 4 = 1 || decide (8 < d 6 (4 * r) 4)) ||
    (if d 6 32 1 = 0 then d 6 16 16 ≠ 0 else decide (evn ≤ d 6 16 16))

/-- Whether a descriptor has the launch-descriptor fault (R202). -/
def State.descBad (s : State) (g : Grid) : Bool :=
  g.formBad (fld (s.ctx g.asid).evn 0 17) || splitBad (g.desc.getD 2 0) g.width g.paired || g.perCore = 0 ||
    (g.pinned && decide (s.capacity g < g.teams))

/-- A grid as its descriptor is read (R201). -/
def newGrid (desc : List (BitVec 64)) (va : BitVec 64) (asid : BitVec 16) (source queue : Nat) (gridId : BitVec 64)
    (order : Nat) : Grid :=
  { desc := desc, descVa := va, gridId := gridId, asid := asid, source := BitVec.ofNat 2 source,
    queue := BitVec.ofNat 6 queue, order := order, depMet := 0, readyAt := none, next := 0, teams := teamsOf desc, endedTeams := 0, drain := none, lastAt := none, discarded := false, frame := none }

/-- Read a descriptor at a virtual address of an ASID (R202, R205): none where the address is not aligned, the read meets
a fate or a sector is poisoned (log 32). -/
def State.readDesc (s : State) (asid : BitVec 16) (va : BitVec 64) : State × Option (List (BitVec 64)) :=
  if va.toNat % 128 ≠ 0 then (s, none)
  else
    match s.xlate asid va 0 with
    | (s, .ok k) => (s, if s.isPoisoned k 128 then none else some (s.readDwords k 16))
    | (s, .error _) => (s, none)

/-- The place of a line of a descriptor that a switch holds, if one does (R166): it is recalled before the descriptor is
read. -/
def State.descHeld (s : State) (asid : BitVec 16) (va : BitVec 64) : Option Nat :=
  match (s.xlate asid va 0).2 with
  | .ok k => [k, k + 64].find? fun p => !(s.lentAt p).isEmpty
  | .error _ => none

/-- Take a launch number of a context (R178, log 17). -/
def State.takeGridId (s : State) (asid : BitVec 16) : State × BitVec 64 :=
  let c := s.ctx asid
  (s.setCtx asid { c with nextGrid := c.nextGrid + 1 }, c.nextGrid)

/-- Submit a checked grid: its dependences are examined and, with no teams, it completes (R206, R207). -/
def State.submit (s : State) (g : Grid) : State :=
  let n := s.newId
  let s := n.1
  ({ s with grids := Tab.put s.grids n.2 (s.examine { g with order := n.2 }) }).settleGrids

/-- A launch fault record (R202, R224, R228). -/
def State.launchRecord (s : State) (g : Grid) (cause unit : Nat) : State :=
  s.emit 0 (record2 g.descVa 0 g.queue.toNat g.source.toNat 0 s.now cause (g.gridId.extractLsb' 0 32) g.asid unit)

/-! ### Where a team fits (R72, R209, R210) -/

/-- Whether one core takes a part of a grid's team: `n` groups, `t` tiles. -/
def State.coreTakes (s : State) (k : Nat) (g : Grid) (c n t : Nat) : Bool :=
  let x := s.core c
  s.coreUp c && (!x.splitv || (x.split = g.split && x.asid = g.asid)) && (!x.drain || (x.splitv && x.split = g.split)) &&
    decide (n ≤ s.freeSlots c) && decide (n * g.granules ≤ s.freeGranules c) &&
    (s.makeRoom c (fun _ => false) [] (List.replicate n g.granules)).isSome && decide (t ≤ s.freeTiles c) &&
    decide (g.aregs ≤ s.freeAccs c) && decide (g.teamSp ≤ s.freeSp c g.split) &&
    ((s.groupsOf c).all fun h => h.growSince.isNone) &&
    (match x.reserved with
     | some r => r = k || decide (((Tab.find s.grids r).map Grid.prio).getD 0 < g.prio)
     | none => true)

/-- Whether R72 permits a grid's team on a core's cluster. -/
def State.clusterTakes (s : State) (k : Nat) (g : Grid) (c : Nat) : Bool :=
  g.cssz = 0 || (s.clusterUp c &&
    (match Tab.find s.csHold (c / 8) with | some h => h = k | none => true) &&
    (List.range 8).all fun i =>
      let x := s.core (c / 8 * 8 + i)
      !x.splitv || (x.split = g.split && x.asid = g.asid))

/-- Whether a team of a grid fits on a core, or on the pair that begins there (R209). -/
def State.fits (s : State) (k : Nat) (g : Grid) (c : Nat) : Bool :=
  s.coreTakes k g c g.groups0 g.tregs && s.clusterTakes k g c &&
    (!g.paired || (c % 2 = 0 && s.coreTakes k g (c + 1) (g.nGroups - g.groups0) 0))

/-- The first core where a team of a grid fits, from a core on. -/
def State.firstFit (s : State) (k : Nat) (g : Grid) : Option Nat := (List.range 640).find? fun c => s.fits k g c

/-! ### Taking a core (R67, R72) -/

/-- The keys of a core's local SRAM: scratchpad, lane-private region, and its stripes of the cluster-shared region
(R64, R71). -/
def localTo (core key : Nat) : Bool :=
  (decide (region (16 + core) ≤ key) && decide (key < region (17 + core))) ||
    (decide (region (1024 + core) ≤ key) && decide (key < region (1025 + core))) ||
    (decide (region (2048 + core / 8) ≤ key) && decide (key < region (2049 + core / 8)) && key / 256 % 8 = core % 8)

/-- A core takes an ASID (R67): when it last held another's team, its local SRAM and L1 are cleared. -/
def State.takeCore (s : State) (core : Nat) (asid : BitVec 16) : State :=
  let c := s.core core
  if c.lastAsid = some asid then s
  else
    let s := { s with
      mem := s.mem.filter fun e => !localTo core e.1
      poisoned := s.poisoned.filter fun q => !localTo core (16 * q) }
    (s.l1Drop core).setCore core { c with lastAsid := some asid }

/-- The bytes that teams have left in the local SRAM of some cores, their stripes of the cluster-shared region among it. -/
def State.leftIn (s : State) (cores : List Nat) : List (BitVec 8) :=
  (s.mem.filter fun e => cores.any fun c => localTo c e.1).map (·.2)

/-- What a new team finds in n bytes of the local SRAM that it is given (R67): in each zero or a byte that an earlier team
of the context left in that SRAM, there or at another location, a free choice (log 2). -/
def State.carryOver (s : State) (left : List (BitVec 8)) (k n : Nat) : State :=
  if left.isEmpty then s
  else
    let pick (i : Nat) : BitVec 8 := ((0 :: left)[(Config.freeValue (s.freeCount + i)).toNat % (left.length + 1)]?).getD 0
    (List.range n).foldl (fun u i => u.writeLE (k + i) 1 (pick i).toNat) { s with freeCount := s.freeCount + n }

/-- A grid takes a cluster's cluster-shared region (R72): every core of the cluster takes its split and context. -/
def State.takeCluster (s : State) (k : Nat) (g : Grid) (c : Nat) : State :=
  let cl := c / 8
  if g.cssz = 0 ∨ (Tab.find s.csHold cl).isSome then s
  else
    let s := { s with csHold := Tab.put s.csHold cl k }
    let s := (List.range 8).foldl (fun s i =>
      let n := cl * 8 + i
      let s := s.takeCore n g.asid
      (s.setCore n { s.core n with splitv := true, split := g.split, asid := g.asid }).putCmap n) s
    s.carryOver (s.leftIn ((List.range 8).map (cl * 8 + ·))) (region (2048 + cl)) (8 * g.cssz * 2 ^ 14)

/-! ### Placing (R209, R210) -/

/-- The lowest n free group slots of a core. -/
def State.pickSlots (s : State) (c n : Nat) : List Nat :=
  ((List.range 16).filter fun k => (s.group c k).isNone).take n

/-- A base for a team's scratchpad on a core, past every other team's (log 2). -/
def State.spFree (s : State) (c n : Nat) : Nat :=
  let used := ((s.teamsOn c).map fun t => ((if t.core = c then t.spBase else t.spBase1), fld t.sram 24 12 * 512))
  let clear (b : Nat) : Bool := used.all fun u => decide (b + n ≤ u.1) || decide (u.1 + u.2 ≤ b)
  (((0 :: used.map fun u => u.1 + u.2).filter clear).foldl (fun m b => match m with
    | some x => some (min x b)
    | none => some b) none).getD 0

/-- A group of a team at its start (R187, R201, R263). -/
def newGroup (g : Grid) (team lin gid core slot : Nat) (seqSlot : BitVec 64) (traceMask : BitVec 7) : Group :=
  let x := g.fld 3 0 32
  let y := g.fld 3 32 16
  { core := core, slot := slot, gid := gid, team := team, grid := 0, asid := g.asid, width := g.width,
    role := if g.fld 4 8 1 = 1 then some (g.fld 5 (2 * gid) 2) else none, pc := g.desc.getD 0 0, repIdx := 0, flags := 0,
    trapen := 0, part := 0, wbase := 0, blockN := g.fld 4 9 3, base := 0, v := [], s := [], p := [],
    rstream := BitVec.ofNat 128 (g.gridId.toNat * 2 ^ 64 + lin * 32 + gid), seqNo := 0, seqSlot := seqSlot,
    kargs := g.desc.getD 1 0, rampSlot := 0, gridId := g.gridId,
    teamId := BitVec.ofNat 64 (lin % x + lin / x % y * 2 ^ 32 + lin / (x * y) * 2 ^ 48),
    laneBase := BitVec.ofNat 64 ((lin * g.nGroups + gid) * g.width), spec := none, accOwned := 0, stop := none, late := [],
    reissue := none, holds := [], waiting := false, onEmpty := false, waitsIn := none, ibuf := none, ibufWait := none, staged := [],
    traceMask := traceMask, startedAt := 0, lastRetire := 0, saved := false, lastTape := none,
    barSeen := [], rampWait := none, sampleAt := 0, growSince := none, zeroWrites := 0,
    quiesce := true, tokens := 0, tileOld := none }

/-- The class mask that a group of a context receives at its start (R444, R453). -/
def Ctx.startMask (c : Ctx) : BitVec 7 := if c.cfg.getLsbD 1 then 0 else c.trcCtl.extractLsb' 1 7

/-- SEQSLOT of a group at its start (R220): the slot of its frame entry in a grid that Carillon launched, else all ones. -/
def State.startSlot (s : State) (g : Grid) (lin gid : Nat) : BitVec 64 :=
  match g.frame with
  | some f =>
    let gsz := fld (s.reg 0x4000) 5 6
    let frm := s.reg 0x4010 + BitVec.ofNat 64 (2 ^ 18 * (f % 2))
    match (s.xlate g.asid frm 0).2 with
    | .ok _ =>
      let e := lin * gsz + gid
      let word (va : BitVec 64) : Nat := match (s.xlate g.asid va 0).2 with | .ok k => s.readLE k 8 | .error _ => 0
      if gid < gsz ∧ e < word (frm + 8) % 2 ^ 14 then
        BitVec.ofNat 64 (word (frm + BitVec.ofNat 64 (64 + 16 * e)) % 2 ^ 13)
      else BitVec.allOnes 64
    | .error _ => BitVec.allOnes 64
  | none => BitVec.allOnes 64

/-- Give the groups of a list that are for a core their register blocks (R188, R190). -/
def State.layGroups (s : State) (core : Nat) (gs : List Group) : State × List Group :=
  let mine := gs.filter fun g => g.core = core
  match s.makeRoom core (fun k => mine.any fun g => g.slot = k) [] (mine.map Group.granules) with
  | none => (s, gs)
  | some (ms, bs) =>
    let at_ := (mine.map Group.slot).zip bs
    (s.moveBlocks core ms, gs.map fun g =>
      if g.core = core then { g with base := (Tab.find at_ g.slot).getD 0 } else g)

/-- Place the next team of a grid on a core or pair (R209): its cores take its split and context (R67), it takes its
slots, scratchpad and lane slices, and its groups wait for the ramp. -/
def State.placeTeam (s : State) (k : Nat) (g : Grid) (c : Nat) : State :=
  let n := s.newId
  let t := n.2
  let s := n.1.takeCluster k g c
  let cores := if g.paired then [c, c + 1] else [c]
  let s := cores.foldl (fun s c =>
    let s := s.takeCore c g.asid
    s.setCore c { s.core c with splitv := true, split := g.split, asid := g.asid, reserved := none }) s
  let slots := (s.pickSlots c g.groups0).map (fun x => (c, x)) ++
    if g.paired then (s.pickSlots (c + 1) (g.nGroups - g.groups0)).map (fun x => (c + 1, x)) else []
  let slots := slots.mapIdx fun i x => (i, x.1, x.2)
  let sp := g.teamSp * 512
  let b0 := s.spFree c sp
  let b1 := s.spFree (c + 1) sp
  let mask := (s.ctx g.asid).startMask
  let groups := slots.map fun x => { newGroup g t g.next x.1 x.2.1 x.2.2 (s.startSlot g g.next x.1) mask with grid := k }
  let (s, groups) := cores.foldl (fun (r : State × List Group) c => r.1.layGroups c r.2) (s, groups)
  let team : Team := {
    grid := k, asid := g.asid, lin := g.next, core := c, paired := g.paired, width := g.width, nGroups := g.nGroups,
    slots := slots, ended := 0, tregs := g.tregs, aregs := g.aregs, sram := g.desc.getD 2 0, spBase := b0, spBase1 := b1,
    rings := (g.desc.getD 6 0).extractLsb' 0 16, phases := 0, bars := (List.range 16).map fun i => (i, ⟨[], g.nGroups, false⟩),
    tiles := [], rowEmpty := [], accs := [], repl := g.fld 4 26 1 = 1, ramp := .waiting, placedAt := t,
    rampSlot := s.now.toNat / 1000 }
  let (old0, old1) := (s.leftIn [c], s.leftIn [c + 1])
  let s := s.carryOver old0 (region (16 + c) + b0) sp
  let s := if g.paired then s.carryOver old1 (region (17 + c) + b1) sp else s
  let s := slots.foldl (fun s x =>
    s.carryOver (if x.2.1 = c then old0 else old1) (region (1024 + x.2.1) + x.2.2 * 65536) 65536) s
  let s := { s with
    teams := Tab.put s.teams t team
    groups := groups.foldl (fun m h => Tab.put m (gkey h.core h.slot) h) s.groups
    grids := Tab.put s.grids k { g with next := g.next + 1, lastAt := some s.now.toNat } }
  cores.foldl (fun s c => s.putCmap c) s

/-- Place every team of a pinned grid, each on the first core where it fits; none where they do not all fit at once
(R210). -/
def State.placeWhole (k : Nat) : Nat → State → Option State
  | 0, s => some s
  | n + 1, s =>
    match Tab.find s.grids k with
    | some g =>
      match s.firstFit k g with
      | some c => State.placeWhole k n (s.placeTeam k g c)
      | none => none
    | none => some s

/-- Free the cores that a pinned grid has reserved. -/
def State.unreserve (s : State) (k : Nat) : State :=
  { s with cores := s.cores.map fun (e : Nat × Core) => if e.2.reserved = some k then (e.1, { e.2 with reserved := none }) else e }

/-- Reserve every core that is free for a pinned grid (R210). -/
def State.reserveFree (s : State) (k : Nat) : State :=
  (List.range 640).foldl (fun s c =>
    if s.coreUp c && (s.teamsOn c).isEmpty && (s.core c).reserved.isNone then s.setCore c { s.core c with reserved := some k }
    else s) s

/-- Reject a pinned grid (R224): the record, the count, and the grid is gone (log 34). -/
def State.rampViolation (s : State) (k : Nat) (g : Grid) : State :=
  let s := s.launchRecord g 0x51 644
  let s := s.setReg 0x7018 (BitVec.ofNat 64 ((s.reg 0x7018).toNat + 1) &&& 0xFFFFFFFF)
  { s.unreserve k with grids := Tab.drop s.grids k }

/-- The rise limit of a slot in mW (R223). -/
def State.rise (s : State) : Nat := fld (s.dmp 0x7000) 0 10 * 1000

/-- SPLIT_DRAIN_TRIGGER (R211): a ready grid has had no team placed for 2^20 tk. -/
def execSplitDrainTrigger (grid : Nat) (s : State) : Host.Outcome State Fault Refusal :=
  match Tab.find s.grids grid with
  | some g =>
    let open_ := (List.range 640).any fun c =>
      let x := s.core c
      s.coreUp c && (!x.splitv || (x.split = g.split && x.asid = g.asid))
    let drains := g.drain.any fun cl => (List.range 8).any fun i => (s.core (cl * 8 + i)).drain
    if !g.wantsCore || drains || decide (s.since (g.lastAt.getD (g.readyAt.getD 0)) < 2 ^ 20) || open_ then .next s
    else
      match (List.range 80).find? fun cl => (Tab.find s.csHold cl).isNone &&
          (List.range 8).all fun i => !(s.core (cl * 8 + i)).drain with
      | some cl =>
        let s := { s with grids := Tab.put s.grids grid { g with drain := some cl } }
        .next ((List.range 8).foldl (fun s i =>
          let c := cl * 8 + i
          ((s.setCore c { s.core c with drain := true }).putCmap c).settleCore c) s)
      | none => .next s
  | none => .next s

/-- REGISTER_COMPACTION (R190, R92): the live blocks that hold no empty element are laid anew, the largest first; values do
not change, the staging buffers of the moved groups empty. -/
def execRegisterCompaction (core : Nat) (s : State) : Host.Outcome State Fault Refusal :=
  let fixed := ((s.groupsOf core).filter Group.pinned).map Group.regBlock
  let mov := [128, 64, 32, 16, 8, 4, 2, 1].flatMap fun k => (s.groupsOf core).filter fun g => !g.pinned && g.granules = k
  .next (match layAll fixed (mov.map Group.granules) with
    | some bs => s.moveBlocks core ((mov.map Group.slot).zip bs)
    | none => s)

/-- The main word of REGGROW. -/
def reggrowWord : Word := (Instr.reggrow.code.map Code.word).getD 0

/-- GROW_DEADLOCK (R212): every group of the core waits in REGGROW or is stopped, and none can be served: each waiting
REGGROW has the fault. -/
def execGrowDeadlock (core : Nat) (s : State) : Host.Outcome State Fault Refusal :=
  let gs := s.groupsOf core
  let stuck := gs.filter fun g => g.growSince.isSome && g.stop.isNone
  if stuck.isEmpty || (gs.any fun g => g.stop.isNone && g.growSince.isNone) ||
      stuck.any fun g => !s.growBehind g && (s.growPlace g).isSome then .next s
  else
    .next (stuck.foldl (fun s g => s.stopPrecise { g with growSince := none } (dieOf core) 0x53 (reggrowWord.zeroExtend 64) 0 0) s)

/-! ### The ramp (R223, R224, R467) -/

/-- Start a team in a ramp slot (R223): its groups may issue, and its cluster is powered (R448). -/
def State.startTeam (s : State) (k : Nat) (t : Team) (slot : Nat) : State :=
  let s := s.modTeam k fun t => { t with ramp := .started }
  let s := t.cores.foldl (fun s c => s.l1Drop c) s
  let s := s.modTraces (t.core / 8) fun b => { b with gated := false, gateAt := none }.carry s.now (t.core / 8)
  t.slots.foldl (fun s x =>
    match s.group x.2.1 x.2.2 with
    | some g =>
      let g := { g with
        quiesce := false, startedAt := s.now.toNat, sampleAt := s.clk
        rampSlot := BitVec.ofNat 64 slot }.recount g s.clk
      (s.setGroup g).trace g 6 8 g.pc g.seqNo 0
    | none => s) s

/-- Damper's slot account at a time (R223): a new slot has used nothing. -/
def Damper.at_ (d : Damper) (slot : Nat) : Damper := if d.slot = slot then d else { d with slot := slot, used := 0 }

/-- A die's limit as a ramp slot finds it (R466, R467): its sensor at or above TLIM makes it hot, and 40 units below
cools it. -/
def State.heat (s : State) (die : Nat) : State :=
  let off := 0x7020 + 8 * die
  let tmax := fld (s.reg off) 0 12
  let lim := fld (s.dmp off) 12 12
  if lim ≤ tmax ∧ !s.damper.hot.getLsbD die then
    { s.setReg off (s.reg off ||| 1#64 <<< 24) with damper := { s.damper with hot := s.damper.hot ||| 1#2 <<< die } }
  else if tmax + 40 ≤ lim then { s with damper := { s.damper with hot := s.damper.hot &&& ~~~(1#2 <<< die) } }
  else s

/-- Whether Damper grants at all (R252, R467). -/
def State.grants (s : State) : Bool := s.damper.hot = 0 && !s.damper.failed && !s.frozen

/-- One that waits for a grant (R223, R370): its place in the order, its mW, and the team or the group. -/
inductive Waiter where
  | team (k : Nat)
  | hint (core slot : Nat)
  deriving DecidableEq, Repr

/-- Those that wait in a slot, in the order of their placing or asking: teams that RAMPREQ still holds back take no
part. -/
def State.waiters (s : State) (slot : Nat) : List (Nat × Nat × Waiter) :=
  let ts := s.teams.filterMap fun e =>
    match e.2.ramp, Tab.find s.grids e.2.grid with
    | .waiting, some g =>
      if g.pinned || decide (slot < e.2.rampSlot + g.fld 4 27 3) then none else some (e.2.placedAt, s.est g, Waiter.team e.1)
    | _, _ => none
  let hs := s.groups.filterMap fun e =>
    match e.2.rampWait with
    | some (o, n) => if n = 0 then none else some (o, n, Waiter.hint e.2.core e.2.slot)
    | none => none
  (ts ++ hs).foldl (fun l x => insert x l) []
where
  /-- Insert by order. -/
  insert (x : Nat × Nat × Waiter) : List (Nat × Nat × Waiter) → List (Nat × Nat × Waiter)
    | [] => [x]
    | y :: l => if x.1 < y.1 then x :: y :: l else y :: insert x l

/-- Grant those that fit, in order; the first that does not fit holds back the rest (R223). -/
def State.grantAll (s : State) (slot : Nat) : List (Nat × Nat × Waiter) → State
  | [] => s
  | (_, n, w) :: rest =>
    if s.damper.used + n ≤ s.rise then
      let s := { s with damper := { s.damper with used := s.damper.used + n } }
      let s := match w with
        | .team k => match s.team k with | some t => s.startTeam k t slot | none => s
        | .hint c k => s.modGroup c k fun g => { g with rampWait := g.rampWait.map fun x => (x.1, 0) }
      State.grantAll s slot rest
    else s

/-- RAMP_SLOT (R223, R224): grant in the current slot: first the pinned grids that are placed, each whole, in the order of
their placing, and until they have started no team of another. -/
def execRampSlot (s : State) : Host.Outcome State Fault Refusal :=
  let slot := s.now.toNat / 1000
  let s := (s.heat 0).heat 1
  let s := { s with damper := s.damper.at_ slot }
  if !s.grants then .next s
  else
    match s.damper.pinned with
    | k :: ks =>
      let ts := s.teams.filter fun e => e.2.grid = k && e.2.ramp = .waiting
      let sum := ts.length * ((Tab.find s.grids k).map s.est).getD 0
      if ts.isEmpty then .next { s with damper := { s.damper with pinned := ks } }
      else if s.damper.used + sum ≤ s.rise then
        .next (ts.foldl (fun s e => s.startTeam e.1 e.2 slot)
          { s with damper := { s.damper with used := s.damper.used + sum, pinned := ks } })
      else .next s
    | [] => .next (s.grantAll slot (s.waiters slot))

/-! ### The watchdog (R215) -/

/-- Take back the arrivals of a group whose BAR performs nothing (R215; log 16). -/
def State.unarrive (s : State) (g : Group) : State :=
  if g.barSeen.isEmpty then s
  else s.modTeam g.team fun t => { t with bars := t.bars.map fun (e : Nat × Bar) =>
    if (Tab.find g.barSeen e.1).isSome then (e.1, { e.2 with arrived := e.2.arrived.filter (· ≠ g.gid) }) else e }

/-- WATCHDOG (R215): a group whose count has reached 2^WDLOG clk takes the fault at the instruction
it waits to issue (log 36). -/
def execWatchdog (core slot : Nat) (s : State) : Host.Outcome State Fault Refusal :=
  let n := fld (s.reg 0x3000) 1 6
  match s.group core slot with
  | some g =>
    if n = 0 || !g.wdRuns || decide (g.wdCount s.clk < 2 ^ n * 10) then .next s
    else
      let w : Word := match (s.fetch g).2 with
        | .ok i _ => (i.code.map Code.word).getD 0
        | _ => 0
      let mask : BitVec 64 := match (s.fetch g).2 with
        | .ok i _ => match i.code with
          | some c => if actsOnLanes c.major.toNat c.fnNat then g.active c.pfx else 0
          | none => 0
        | _ => 0
      let s := { s with psq := s.psq.filter fun e => !(e.2.core = core && e.2.slot = slot && e.2.copy.isNone && !e.2.done) }
      .next ((s.unarrive g).stopPrecise { g with rampWait := none, growSince := none, barSeen := [] } (dieOf core) 0x52
        (w.zeroExtend 64) mask 0)
  | none => .next s

/-! ### Launch queues (R203, R204) -/

/-- The offset of a register of a launch queue (R203). -/
def lqReg (q r : Nat) : Nat := 0x3100 + 0x20 * q + r

/-- LAUNCH_QUEUE_READ (R204): the descriptor at RIDX is read and checked, and RIDX passes it; one that fails sets DERR
and is recorded, and a line of it that a switch holds is recalled first (R166). -/
def execLaunchQueueRead (q : Nat) (s : State) : Host.Outcome State Fault Refusal :=
  let ctl := s.reg (lqReg q 8)
  let n := 2 ^ fld ctl 0 5
  let ridx := fld (s.reg (lqReg q 0x18)) 0 16 % n
  let asid := ctl.extractLsb' 5 16
  if 64 ≤ q ∨ !ctl.getLsbD 21 ∨ ridx = fld (s.reg (lqReg q 0x10)) 0 16 % n ∨ s.launchHeld asid then .next s
  else
    let va := s.reg (lqReg q 0) + BitVec.ofNat 64 (128 * ridx)
    match s.descHeld asid va with
    | some k => .next (s.recallLine (k / 64))
    | none =>
      let r := s.readDesc asid va
      let i := r.1.takeGridId asid
      let s := i.1.setReg (lqReg q 0x18) (BitVec.ofNat 64 ((ridx + 1) % n))
      let g := newGrid (r.2.getD []) va asid 0 q i.2 0
      if r.2.isNone || s.descBad g then
        .next ((s.setReg (lqReg q 8) (s.reg (lqReg q 8) ||| 1#64 <<< 22)).launchRecord g 0x50 645)
      else .next (s.submit g)

end Sys2Proof.Machine
end

