-- ==== Sys2Proof/Machine/Launch.lean ====
section
/-!
DEFINITION. Barriers, stages, events and launch: major 0x2A (R183, R205, R363 to R368), with the ordering of R148.
-/
namespace Sys2Proof.Machine

/-- A release: every earlier access is performed and every ticket settled (R52, R128, R148). -/
def releaseWait (s : State) (g : Group) : Run Unit := need (s.quiet g.core g.slot) .wait

/-- A barrier of a team. -/
def Team.bar (t : Team) (n : Nat) : Bar := (Tab.find t.bars n).getD ⟨[], t.nGroups, false⟩

/-- A group's arrival at a barrier (R364). -/
def Bar.arrive (b : Bar) (gid : Nat) : Bar :=
  let arrived := b.arrived ++ [gid]
  if arrived.length = b.expected then ⟨[], b.expected, !b.phase⟩ else ⟨arrived, b.expected, b.phase⟩

/-- Set a barrier. -/
def State.setBar (s : State) (team n : Nat) (b : Bar) : State :=
  s.modTeam team fun t => { t with bars := Tab.put t.bars n b }

/-- The part of BAR at issue (R364): a group that has arrived goes on once the phase has changed; one that has not
arrives, and goes on when its arrival changes the phase. -/
def barBody (n : Nat) (s : State) (g : Group) : Run (State × Group) :=
  match s.team g.team with
  | none => .ok (s, g)
  | some t =>
    let b := t.bar n
    match Tab.find g.barSeen n with
    | some ph =>
      if b.phase ≠ ph then .ok (s.acquireT g, { g with barSeen := Tab.drop g.barSeen n })
      else .error .wait
    | none => do
      releaseWait s g
      need (!b.arrived.contains g.gid) .wait
      let b' := b.arrive g.gid
      need (b'.phase ≠ b.phase) .wait
      return ((s.setBar g.team n b').acquireT g, g)

/-- The arrival of a group that goes on to wait in BAR (R364). -/
def State.barArrive (s : State) (core slot n : Nat) : State :=
  match s.group core slot with
  | some g =>
    match s.team g.team with
    | some t =>
      if g.waiting && g.canIssue && (Tab.find g.barSeen n).isNone && s.quiet core slot && !(t.bar n).arrived.contains g.gid then
        (s.setBar g.team n ((t.bar n).arrive g.gid)).setGroup { g with barSeen := Tab.put g.barSeen n (t.bar n).phase }
      else s
    | none => s
  | none => s

/-- BAR (R364): arrive, then wait until the phase changes; acquire-release at T. -/
def execBar (r : RRR) (s : State) : Host.Outcome State Fault Refusal :=
  match issueS (.bar r) noLimit (barBody r.b.toNat) s, s.cur with
  | .next t, some (c, k) => .next (t.barArrive c k r.b.toNat)
  | o, _ => o

/-- BARARR (R364): the phase before the arrival to S(d); a release at T. -/
def execBararr (r : RRR) (s : State) : Host.Outcome State Fault Refusal :=
  issueS (.bararr r) noLimit (fun s g => do
    let n := r.b.toNat
    let d := r.d.toNat
    gate g Pfx.none false [] [.s d 1]
    releaseWait s g
    match s.team g.team with
    | none => return (s, g)
    | some t =>
      let b := t.bar n
      need (!b.arrived.contains g.gid) .wait
      return (s.setBar g.team n (b.arrive g.gid), g.writeS d (if b.phase then 1 else 0) false)) s

/-- BARWAIT (R364): wait until the phase differs from S(a)[0]; acquire-release at T. -/
def execBarwait (r : RRR) (s : State) : Host.Outcome State Fault Refusal :=
  issueS (.barwait r) noLimit (fun s g => do
    let a := r.a.toNat
    gate g Pfx.none false [(.s a 1, r.wa)] []
    need (!g.spois a 1) (poisonUse 3 0)
    releaseWait s g
    match s.team g.team with
    | none => return (s, g)
    | some t =>
      need ((t.bar r.b.toNat).phase ≠ (g.sv a).getLsbD 0) .wait
      return (s.acquireT g, g)) s

/-- STAGEACQ (R366): wait until the stage's phase equals the expected one; acquire at T.  An acquire of the group that is
under way is performed before the phase is read (R128).  A ring that is not declared is
judged before its operand (R231). -/
def execStageacq (r : RRR) (s : State) : Host.Outcome State Fault Refusal :=
  issueS (.stageacq r) noLimit (fun s g => do
    match s.team g.team with
    | none => return (s, g)
    | some t =>
      let q := r.b.toNat % 4
      let a := r.a.toNat
      need (t.ring q ≠ 0) (.fate 0x45 0 0)
      gate g Pfx.none false [(.s a 1, r.wa)] []
      need (!g.spois a 1) (poisonUse 3 0)
      let k := t.stage q (g.sv a)
      need (s.acquired g.core g.slot) .wait
      need (t.phases.getLsbD k = r.b.getLsbD 2) .wait
      return (s.acquireT g, g)) s

/-- STAGEREL (R366): invert the stage's phase; release at T. -/
def execStagerel (r : RRR) (s : State) : Host.Outcome State Fault Refusal :=
  issueS (.stagerel r) noLimit (fun s g => do
    match s.team g.team with
    | none => return (s, g)
    | some t =>
      let q := r.b.toNat % 4
      let a := r.a.toNat
      need (t.ring q ≠ 0) (.fate 0x45 0 0)
      gate g Pfx.none false [(.s a 1, r.wa)] []
      need (!g.spois a 1) (poisonUse 3 0)
      releaseWait s g
      return (s.modTeam g.team fun t => { t with phases := t.phases ^^^ (1#32 <<< t.stage q (g.sv a)) }, g)) s

/-- The limits of an event index, and of a threshold, judged once the operands are full (R339, R367). -/
def eventLimit (r : RRR) (thresh : Bool) (s : State) (g : Group) : Bool :=
  (g.sel r.a.toNat).full && (!thresh || (g.sel r.b.toNat).full) &&
    (g.over r.a.toNat (min 65536 (fld (s.ctx g.asid).evn 0 17)) || (thresh && g.over r.b.toNat (2 ^ 32)))

/-- EVSIG (R367): signal an event; release at K. -/
def execEvsig (r : RRR) (s : State) : Host.Outcome State Fault Refusal :=
  issueS (.evsig r) (eventLimit r false) (fun s g => do
    let a := r.a.toNat
    gate g Pfx.none false [(.s a 1, r.wa)] []
    need (!g.spois a 1) (poisonUse 1 0)
    releaseWait s g
    return (s.signal g.asid (g.sv a).toNat, g)) s

/-- EVWAIT (R367): wait until an event has met a threshold; acquire at K. -/
def execEvwait (r : RRR) (s : State) : Host.Outcome State Fault Refusal :=
  issueS (.evwait r) (eventLimit r true) (fun s g => do
    let a := r.a.toNat
    let b := r.b.toNat
    gate g Pfx.none false [(.s a 1, r.wa), (.s b 1, r.wb)] []
    need (!g.spois a 1) (poisonUse 1 0)
    need (!g.spois b 1) (poisonUse 3 0)
    need (s.acquired g.core g.slot) .wait
    need (countMet (s.evCount g.asid (g.sv a).toNat) (g.sv b).toNat) .wait
    return (s.l1Drop g.core, g)) s

/-- LAUNCH (R205, R368): release at K; read and check the descriptor, wait while 256 device-launched grids of the context
are unplaced, submit the grid and give its GRIDID (log 33). -/
def execLaunch (r : RRR) (s : State) : Host.Outcome State Fault Refusal :=
  issueS (.launch r) noLimit (fun s g => do
    let a := r.a.toNat
    let d := r.d.toNat
    gate g Pfx.none false [(.s a 1, r.wa)] [.s d 1]
    need (!g.spois a 1) (poisonUse 1 0)
    releaseWait s g
    match s.descHeld g.asid (g.sv a) with
    | some k => .error (.waitLine k)
    | none => .ok ()
    let q := s.readDesc g.asid (g.sv a)
    q.1.seenBy <| match q.2 with
    | none => .error (.fate 0x50 0 0)
    | some desc => do
      let i := q.1.takeGridId g.asid
      let n := newGrid desc (g.sv a) g.asid 1 0 i.2 0
      need (!s.descBad n) (.fate 0x50 0 0)
      need (decide ((s.grids.filter fun e => e.2.source = 1 && e.2.asid = g.asid && decide (e.2.next < e.2.teams)).length < 256))
        .wait
      return (i.1.submit n, g.writeS d i.2 false)) s

end Sys2Proof.Machine
end

