-- ==== Sys2Proof/Machine/Observe.lean ====
section
/-!
DEFINITION. Power and observability: major 0x35 (R369 to R371), Damper's samples and heat (R225, R252, R467), Tattoo
(R449 to R452), trace samples, drains and gates (R446 to R448, R452).
-/
namespace Sys2Proof.Machine

/-! ### Major 0x35 -/

/-- The limit of a scalar operand: below a bound (R339). -/
def scalarLimit (k bound : Nat) (_ : State) (g : Group) : Bool :=
  g.over k bound

/-- RAMPHINT (R370): wait for a grant of S(a) mW; 0 mW, and any amount in a pinned grid, completes at once. -/
def execRamphint (r : RRR) (s : State) : Host.Outcome State Fault Refusal :=
  let a := r.a.toNat
  match issueS (.ramphint r) (scalarLimit a 50001) (fun s g => do
      gate g Pfx.none false [(.s a 1, r.wa)] []
      need (!g.spois a 1) (poisonUse 3 0)
      let pinned := ((Tab.find s.grids g.grid).map Grid.pinned).getD false
      need (g.sv a = 0 || pinned || (match g.rampWait with | some w => w.2 = 0 | none => false)) .wait
      return (s, { g with rampWait := none })) s, s.cur with
  | .next t, some (c, k) =>
    match t.group c k with
    | some g =>
      if g.waiting && !g.onEmpty && g.canIssue && g.rampWait.isNone then
        .next { t.setGroup { g with rampWait := some (t.nextId, (g.sv a).toNat) } with nextId := t.nextId + 1 }
      else .next t
    | none => .next t
  | o, _ => o

/-- BALLAST (R371): the count of ballast clk that the core's idle matrix unit is asked for. -/
def execBallast (r : RRR) (s : State) : Host.Outcome State Fault Refusal :=
  let a := r.a.toNat
  issueS (.ballast r) (scalarLimit a (2 ^ 24)) (fun s g => do
    gate g Pfx.none false [(.s a 1, r.wa)] []
    need (!g.spois a 1) (poisonUse 3 0)
    return (s.setCore g.core { s.core g.core with ballast := (g.sv a).extractLsb' 0 24 }, g)) s

/-- TRACEON (R369): the group's trace classes; no effect while the context may not trace. -/
def execTraceon (r : RRR) (s : State) : Host.Outcome State Fault Refusal :=
  issueS (.traceon r) noLimit (fun s g =>
    .ok (s, if (s.ctx g.asid).trcCtl.getLsbD 0 then { g with traceMask := r.b } else g)) s

/-- TRACEOFF (R369). -/
def execTraceoff (s : State) : Host.Outcome State Fault Refusal :=
  issueS .traceoff noLimit (fun s g =>
    .ok (s, if (s.ctx g.asid).trcCtl.getLsbD 0 then { g with traceMask := 0 } else g)) s

/-- The clk counters of a core when n clk pass (R449): the clk that a group spends in a wait of TYPE 5 in full; of 0x002 to
0x007 the clk in which the part could be busy, one that no slot, unit or group there could be left out (log 4). -/
def State.countCore (s : State) (n core : Nat) : State :=
  let on := s.groupsOf core
  let run (k : Nat) : Nat := if on.isEmpty then 0 else k
  let mat := s.matops.any fun e => e.2.core = core && !e.2.stopped && !e.2.finished
  let cpy := s.copies.any fun e => e.2.core = core && !e.2.stopped
  let s := s.bump core 0x002 (run (2 * n))
  let s := s.bump core 0x003 (if mat then n else 0)
  let s := s.bump core 0x004 (run n)
  let s := s.bump core 0x005 (if cpy then n else 0)
  let s := s.bump core 0x006 (run n)
  let s := s.bump core 0x007 (run n)
  s.bump core 0x008 (n * (on.filter fun g => g.waitsIn.isSome).length)

/-- Count n clk on every core that has a group or an operation (R449). -/
def State.countClk (s : State) (n : Nat) : State :=
  if n = 0 then s
  else
    let cores := (s.groups.map (fun e => e.2.core) ++ s.matops.map (fun e => e.2.core) ++ s.copies.map fun e => e.2.core).eraseDups
    cores.foldl (fun s c => s.countCore n c) s

/-- How many of the first n clk in which a part of a core could be busy it was (R449): a free number of them (log 4). -/
def busyClk (core part n : Nat) : Nat := ((List.range n).filter fun i => Config.partBusy core part i).length

/-- What a counter of a core shows of what it holds (R449): 0x002 to 0x007 the busy ones of their clk, the others all; of
0x009 also the ballast cycles that Damper asked for. -/
def State.shown (s : State) (core part : Nat) (v : BitVec 64) : BitVec 64 :=
  if 2 ≤ part ∧ part ≤ 7 then BitVec.ofNat 64 (busyClk core part v.toNat)
  else if part = 9 then v + Tab.get 0 s.damper.ran core
  else v

/-- The ticket-table entries of a core kept now (R449); those of an engine's lines are no accesses, as for 0x00A to 0x00C. -/
def State.ticketLevel (s : State) (core : Nat) : Nat :=
  (s.memops.map fun e => if e.2.core = core ∧ e.2.engine.isNone then e.2.keptEntries else 0).sum

/-- The vector lane-word writes of a core that zero flags have suppressed (R195, R449): those of groups that have gone and
those of the groups on it. -/
def State.zeroWrites (s : State) (core : Nat) : BitVec 64 :=
  Tab.get 0 (s.core core).counters 0x00F + BitVec.ofNat 64 (((s.groupsOf core).map Group.zeroWrites).sum)

/-- A counter of a core now (R449). -/
def State.counter (s : State) (core n : Nat) : BitVec 64 :=
  if 0x11 < n then 0
  else if n = 0 then BitVec.ofNat 64 (s.clk / 10)
  else if n = 0x00D then BitVec.ofNat 64 (s.ticketLevel core)
  else if n = 0x00F then s.zeroWrites core
  else s.shown core n (Tab.get 0 (s.core core).counters n)

/-- CNTRD (R369, R449): a counter of the issuing core; zero before the first tick. -/
def execCntrd (r : RRR) (s : State) : Host.Outcome State Fault Refusal :=
  let a := r.a.toNat
  let d := r.d.toNat
  issueS (.cntrd r) (scalarLimit a 4096) (fun s g => do
    gate g Pfx.none false [(.s a 1, r.wa)] [.s d 1]
    need (!g.spois a 1) (poisonUse 3 0)
    return (s, g.writeS d (if s.tatAt.isNone then 0 else s.counter g.core (g.sv a).toNat) false)) s

/-- A counter of a core as the last tick latched it (R451). -/
def State.latchedCounter (s : State) (core n : Nat) : BitVec 64 :=
  if 0x11 < n then 0
  else if n = 0 then BitVec.ofNat 64 (s.tatClk / 10)
  else if n = 9 then Tab.get 0 (s.core core).latched n
  else s.shown core n (Tab.get 0 (s.core core).latched n)

/-- TATRD (R369): a counter as latched at the last tick, or that tick's time-stamp; zero before the first tick. -/
def execTatrd (r : RRR) (s : State) : Host.Outcome State Fault Refusal :=
  let a := r.a.toNat
  let d := r.d.toNat
  issueS (.tatrd r) (scalarLimit a 4096) (fun s g => do
    gate g Pfx.none false [(.s a 1, r.wa)] [.s d 1]
    need (!g.spois a 1) (poisonUse 3 0)
    let n := (g.sv a).toNat
    let v := match s.tatAt with
      | none => 0
      | some t => if n = 0xFFF then t else s.latchedCounter g.core n
    return (s, g.writeS d v false)) s

/-! ### Damper (R225, R252, R467) -/

/-- Whether a core's matrix unit is idle: none of its operations goes on. -/
def State.matrixIdle (s : State) (core : Nat) : Bool :=
  !(s.core core).absent && !(s.core core).fenced && !(s.matops.any fun e => e.2.core = core && !e.2.stopped && !e.2.finished)

/-- The cores whose requested ballast runs (R371). -/
def State.askedUnits (s : State) : List Nat :=
  (s.cores.filter fun e => e.2.ballast != 0 && s.matrixIdle e.1).map (·.1)

/-- The module estimate in mW (R225, R371): the activity of the units, and a matrix unit's for each core whose requested
ballast runs (log 60). -/
def State.estimate (s : State) (p : BitVec 24) : Nat := (p.toNat + s.askedUnits.length * fld (s.dmp 0x7008) 16 16) % 2 ^ 24

/-- The idle matrix units on which Damper issues ballast to cover so many mW, from a free one on (R225, log 60). -/
def State.ballastUnits (s : State) (mw first : Nat) : List Nat :=
  let wm := max 1 (fld (s.dmp 0x7008) 16 16)
  (((List.range 640).map fun i => (first + i) % 640).filter fun c => s.matrixIdle c && !s.askedUnits.contains c).take
    ((mw + wm - 1) / wm)

/-- Whether Damper samples again: 100 tk have passed since the last sample (R7, R225). -/
def State.sampleDue (s : State) : Bool :=
  !s.damper.failed && s.damper.sampleAt.all fun t => decide (100 ≤ s.since t)

/-- DAMPER_SAMPLE (R225): the module estimate P sets the floor, and ballast covers what P lacks; DMP_EST holds both. -/
def execDamperSample (p : BitVec 24) (s : State) : Host.Outcome State Fault Refusal :=
  if !s.sampleDue then .next s
  else
    let p := s.estimate p
    let f := max p (s.damper.floor - fld (s.dmp 0x7000) 16 10 * 100)
    .next ({ s with
      freeCount := s.freeCount + 1
      damper := { s.damper with
        est := p, floor := f, ballast := f - p, sampleAt := some s.now.toNat
        units := if f = p then [] else s.ballastUnits (f - p) (Config.freeValue s.freeCount).toNat } }.bumpUnit 64 (f - p))

/-- Ballast runs for n clk (R225, R371): each idle unit that Damper or its own core asks counts its cycles, and the count
that BALLAST asked for runs down.  Damper asks for none while it has failed (R252). -/
def State.runBallast (s : State) (n : Nat) : State :=
  let asked := if s.cores.all fun e => e.2.ballast = 0 then [] else s.askedUnits
  let s := asked.foldl (fun (s : State) c =>
    let k := min n (s.core c).ballast.toNat
    (s.setCore c { s.core c with ballast := (s.core c).ballast - BitVec.ofNat 24 k }).bump c 9 k) s
  if s.damper.failed then s
  else { s with damper := { s.damper with
    ran := (s.damper.units.filter fun c => s.matrixIdle c && !asked.contains c).foldl (fun (m : Tab (BitVec 64)) c =>
      Tab.put m c (Tab.get 0 m c + BitVec.ofNat 64 n)) s.damper.ran } }

/-- THERMAL_HOT (R466, R467): a die's hottest sensor; at its limit HOT is set and no slot is granted until it is 40 units
below. -/
def execThermalHot (die : Nat) (tmax : BitVec 12) (s : State) : Host.Outcome State Fault Refusal :=
  if 2 ≤ die then .next s
  else
    let off := 0x7020 + 8 * die
    let lim := fld (s.dmp off) 12 12
    let s := s.setReg off (setFld (s.reg off) 0 12 tmax.toNat)
    if lim ≤ tmax.toNat then
      .next { s.setReg off (s.reg off ||| 1#64 <<< 24) with damper := { s.damper with hot := s.damper.hot ||| 1#2 <<< die } }
    else if tmax.toNat + 40 ≤ lim then
      .next { s with damper := { s.damper with hot := s.damper.hot &&& ~~~(1#2 <<< die) } }
    else .next s

/-- DAMPER_TAKEOVER (R252): the standby on die 1 takes over and records it. -/
def execDamperTakeover (s : State) : Host.Outcome State Fault Refusal :=
  if s.damper.failed && !s.damper.standby then
    .next ({ s with damper := { s.damper with failed := false, standby := true } }.emit 1
      (record3 0 644 4 false s.now 0x09 0 644))
  else .next s

/-! ### Bytes -/

/-- n bytes of a number, little-endian (R4). -/
def leBytes : Nat → Nat → List Byte
  | 0, _ => []
  | n + 1, v => BitVec.ofNat 8 v :: leBytes n (v / 256)

/-- The bytes of a 32-byte record. -/
def recBytes (r : BitVec 256) : List Byte := leBytes 32 r.toNat

/-- Write a list of bytes at a place. -/
def State.putBytes (s : State) (k : Nat) : List Byte → State
  | [] => s
  | b :: bs => State.putBytes (s.writeLE k 1 b.toNat) (k + 1) bs

/-- Zero n bytes from a place. -/
def State.zeroRange (s : State) (k n : Nat) : State :=
  { s with
    mem := s.mem.filter fun e => !(decide (k ≤ e.1) && decide (e.1 < k + n))
    poisoned := s.poisoned.filter fun q => !(decide (k ≤ 16 * q) && decide (16 * q + 16 ≤ k + n)) }

/-- Write the dwords of a list that are not zero at a place that reads zero. -/
def State.putDwords (s : State) (k : Nat) : List (BitVec 64) → State
  | [] => s
  | d :: ds => State.putDwords (if d = 0 then s else s.write64 k d) (k + 8) ds

/-- Seal a text under a context's key (R452): the ciphertext and the 16-byte tag (log 13). -/
def Ctx.seal (c : Ctx) (nonce : BitVec 96) (aad text : List Byte) : List Byte × List Byte :=
  let f := Config.gcm (c.key.getD 0) nonce aad text
  ((List.range text.length).map f, (List.range 16).map fun i => f (text.length + i))

/-! ### Tattoo (R450 to R452) -/

/-- The core block of a sample (R451), sealed for a confidential resident context (R452). -/
def State.tatBlock (s : State) (head : List Byte) (index : BitVec 64) (c : Nat) : List Byte :=
  let x := s.core c
  let asid : BitVec 16 := if x.splitv then x.asid else (Config.freeValue (s.tatFree + c * 16 + 1)).extractLsb' 0 16
  let conf := x.splitv && (s.ctx asid).cfg.getLsbD 1
  let text := ((List.range 18).flatMap fun n => leBytes 8 (s.latchedCounter c n).toNat) ++ List.replicate 80 0
  let word := leBytes 8 (asid.toNat + (if x.absent then 0 else 2 ^ 16) + (if x.fenced then 2 ^ 17 else 0) +
    if conf then 2 ^ 18 else 0)
  if conf then
    let q := (s.ctx asid).seal (0#20 ++ 0#2 ++ BitVec.ofNat 10 c ++ index) (head.take 16 ++ word) text
    q.1 ++ q.2 ++ word ++ List.replicate 8 0
  else text ++ List.replicate 16 0 ++ word ++ List.replicate 8 0

/-- The unit block of a sample (R451). -/
def State.unitBlock (s : State) : List (BitVec 64) :=
  let u := fun o => Tab.get 0 s.units o
  [(s.mtu 0).walks, (s.mtu 1).walks, (s.mtu 0).records, (s.mtu 1).records, u 32, u 40, u 48,
    BitVec.ofNat 64 s.damper.est, BitVec.ofNat 64 ((u 64).toNat / 10)]

/-- Latch every counter of both dies at a tick (R451). -/
def State.latchAll (s : State) : State :=
  { s with
    tatAt := some s.now, tatFree := s.freeCount, tatClk := s.clk, freeCount := s.freeCount + 640 * 16
    cores := s.cores.map fun (e : Nat × Core) => (e.1, { e.2 with
      latched := [0x009, 0x00D, 0x00F].foldl (fun m n => Tab.set 0 m n (s.counter e.1 n)) e.2.counters }) }

/-- TATTOO_TICK (R451): at a tick every counter latches, and a sample goes to the ring, or is dropped while the ring is
full. -/
def execTattooTick (s : State) : Host.Outcome State Fault Refusal :=
  let ctl := s.reg 0x8000
  if !ctl.getLsbD 0 || s.now.toNat % 2 ^ fld ctl 1 5 ≠ 0 || s.tatAt = some s.now then .next s
  else
    let s := s.latchAll
    let n := 2 ^ fld ctl 6 5
    let tail := fld (s.reg 0x8018) 0 16
    let index := s.tatIndex
    let s := { s with tatIndex := s.tatIndex + 1 }
    if (tail + 1) % n = fld (s.reg 0x8010) 0 16 % n then .next { s with tatDrops := min 65535 (s.tatDrops + 1) }
    else
      let k := s.baseOf 0x8008 6 + 164416 * tail
      let w := s.node + fld ctl 1 5 * 2 ^ 10 + s.tatDrops * 2 ^ 16
      let head := leBytes 8 s.now.toNat ++ leBytes 8 index.toNat
      let s := (s.zeroRange k 164416).putDwords k [s.now, index, BitVec.ofNat 64 w]
      let s := (List.range 640).foldl (fun s c => s.putBytes (k + 0x40 + 256 * c) (s.tatBlock head index c)) s
      let s := s.putDwords (k + 0x28040) s.unitBlock
      .next { s.setReg 0x8018 (BitVec.ofNat 64 ((tail + 1) % n)) with tatDrops := 0 }

/-! ### Trace (R446 to R448, R452) -/

/-- PC_SAMPLE (R446 TYPE 7): every 2^SAMPK clk of residence, what the group is doing (log 36). -/
def execPcSample (core slot : Nat) (s : State) : Host.Outcome State Fault Refusal :=
  match s.group core slot with
  | some g =>
    let n := fld (s.ctx g.asid).trcCtl 8 5
    if n = 0 || g.quiesce || g.saved || decide (s.clk - g.sampleAt < 2 ^ n * 10) then .next s
    else
      let what := if g.stop.isSome then 3 else if !g.waiting && g.holds.isEmpty && g.ibufWait.isNone then 0
        else if g.onEmpty then 1 else 2
      .next ((s.setGroup { g with sampleAt := s.clk }).trace g 5 7 g.pc g.seqNo what)
  | none => .next s

/-- Whether a context's trace ring has room for n records, and the place of entry i past its tail (R443, R447). -/
def Ctx.trcRoom (c : Ctx) (n : Nat) : Bool :=
  let size := 2 ^ fld c.trcCtl 13 5
  decide (n ≤ (fld c.trcHead 0 24 + size - fld c.trcTail 0 24 - 1) % size)

/-- The place of the entry i past the tail of a context's ring. -/
def Ctx.trcPlace (c : Ctx) (i : Nat) : Nat :=
  physKey 0 (fld c.trcBase 52 1) (fld c.trcBase 12 40 * 2 ^ 12) + 32 * ((fld c.trcTail 0 24 + i) % 2 ^ fld c.trcCtl 13 5)

/-- Write records into a context's ring, in order, then advance TAIL (R447). -/
def State.trcWrite (s : State) (asid : BitVec 16) (rs : List (BitVec 256)) : State :=
  let c := s.ctx asid
  let s := (rs.mapIdx fun i r => (i, r)).foldl (fun s x => s.writeLE (c.trcPlace x.1) 32 x.2.toNat) s
  s.setCtx asid { c with trcTail := BitVec.ofNat 64 ((fld c.trcTail 0 24 + rs.length) % 2 ^ fld c.trcCtl 13 5) }

/-- A 32-byte record from bytes. -/
def recOf (bs : List Byte) : BitVec 256 := BitVec.ofNat 256 (bs.foldr (fun b n => b.toNat + 256 * n) 0)

/-- The 32-byte records that a text holds, `n` of them. -/
def recsOf : Nat → List Byte → List (BitVec 256)
  | 0, _ => []
  | n + 1, bs => recOf (bs.take 32) :: recsOf n (bs.drop 32)

/-- TRACE_DRAIN (R447, R452): the oldest record of a cluster's buffer goes to its context's ring while it has room; a
confidential context's records go in sealed batches of up to 32; a pending loss count takes an entry that is freed (R448). -/
def execTraceDrain (cluster : Nat) (s : State) : Host.Outcome State Fault Refusal :=
  let b := Tab.get TraceBuf.zero s.traces cluster
  match b.recs with
  | [] => .next s
  | r :: rest =>
    let asid := recAsid r
    let c := s.ctx asid
    if c.cfg.getLsbD 1 then
      let batch := (b.recs.takeWhile fun x => recAsid x = asid).take 32
      if !c.trcRoom (batch.length + 1) then .next s
      else
        let d1 := BitVec.ofNat 64 (cluster % 128 + batch.length * 2 ^ 7 + asid.toNat * 2 ^ 16)
        let q := c.seal (0#20 ++ 1#2 ++ BitVec.ofNat 10 cluster ++ c.batch) (leBytes 8 c.batch.toNat ++ leBytes 8 d1.toNat)
          (batch.flatMap recBytes)
        let head := recOf (leBytes 8 c.batch.toNat ++ leBytes 8 d1.toNat ++ q.2)
        let s := s.modTraces cluster fun b => { b with recs := b.recs.drop batch.length }.carry s.now cluster
        .next ((s.setCtx asid { c with batch := c.batch + 1 }).trcWrite asid (head :: recsOf batch.length q.1))
    else if c.trcRoom 1 then
      .next ((s.modTraces cluster fun b => { b with recs := rest }.carry s.now cluster).trcWrite asid [r])
    else .next s

/-- CLUSTER_POWER_GATE (R448): with no group on the cluster, a gate is requested; it happens once the buffer has drained
or 20 µs have passed, and drops and counts what is left. -/
def execClusterPowerGate (cluster : Nat) (s : State) : Host.Outcome State Fault Refusal :=
  let b := Tab.get TraceBuf.zero s.traces cluster
  let put (b : TraceBuf) : Host.Outcome State Fault Refusal :=
    .next { s with traces := Tab.set TraceBuf.zero s.traces cluster b }
  if b.gated then .next s
  else if s.groups.any fun e => e.2.core / 8 = cluster then put { b with gateAt := none }
  else
    match b.gateAt with
    | none => put { b with gateAt := some s.now.toNat }
    | some t =>
      if b.recs.isEmpty || decide (20000 ≤ s.since t) then
        put {
          recs := [], lost := b.lost + b.recs.length, lostAsid := (b.recs.getLast?.map recAsid).getD b.lostAsid
          gated := true, gateAt := none }
      else .next s

/-- SCHED_CTL_WRITE (R213): the issue mode, which only the management core may change, and the watchdog interval. -/
def execSchedCtlWrite (src : Bool) (w : BitVec 64) (s : State) : Host.Outcome State Fault Refusal :=
  let old := s.reg 0x3000
  let n := fld w 1 6
  if (!src && w.getLsbD 0 != old.getLsbD 0) || (n ≠ 0 && (decide (n < 20) || decide (40 < n))) then
    .next (s.writeError src 0x3000)
  else .next (s.setReg 0x3000 (BitVec.ofNat 64 (w.toNat % 128)))

end Sys2Proof.Machine
end

