-- ==== Sys2Proof/Machine/Engine.lean ====
section
/-!
DEFINITION. What the engines and units share: access to memory with the fates of R102 and R236, range locks (R140,
R142), tokens (R88), faults of an engine operation (R90, R227), and copying blocks of storage with their poison.
-/
namespace Sys2Proof.Machine

/-! ### Fates of a unit's own accesses -/

/-- Why a unit's access or action does not go on: the CAUSE, the die whose MTU found it (2: the issuing core's), the
address or DETAIL, ACCESS, and the state that the accesses before it left, whose marks stay (R26).  Cause 0 is no fate:
the unit waits for a switch to return the line at the place `va` (R166), or, with a `va` of all ones, for another
operation. -/
structure UnitFate where
  cause : Nat
  die : Nat
  va : BitVec 64
  access : Nat
  seen : State
  deriving DecidableEq, Repr

/-- What a unit's action answers. -/
abbrev Unit_ (α : Type) : Type := Except UnitFate α

/-- A fate of the page-store unit at a block table (R120, R229). -/
def State.kvFate {α : Type} (s : State) (cause : Nat) (bt : BitVec 64) : Unit_ α := .error ⟨cause, 2, bt, 0, s⟩

/-- A wait for another operation. -/
def State.unitWait {α : Type} (s : State) : Unit_ α := .error ⟨0, 2, BitVec.allOnes 64, 0, s⟩

/-- Whether a fate is a wait. -/
def UnitFate.isWait (f : UnitFate) : Bool := f.cause = 0

/-- A poison use of an operand that a unit reads itself at an address, DETAIL 3 (R236). -/
def State.unitPoison {α : Type} (s : State) (va : BitVec 64) : Unit_ α := .error ⟨0x05, 2, va, 0, s⟩

/-- An in-memory structure that breaks a reserved bit or field (R11). -/
def State.unitIllegal {α : Type} (s : State) : Unit_ α := .error ⟨0x01, 2, 0, 0, s⟩

/-- Dword 0 of the record of a fate (R38, R229): an address, or the main word with DETAIL. -/
def UnitFate.d0 (f : UnitFate) (w : Word) : BitVec 64 :=
  if f.cause = 0x05 then 3#32 ++ w else if f.cause = 0x01 then 0#32 ++ w else f.va

/-- A fate that names another address of its structure, when it is a translation fate (R413). -/
def UnitFate.naming (f : UnitFate) (va : BitVec 64) : UnitFate :=
  if 0x10 ≤ f.cause ∧ f.cause ≤ 0x13 then { f with va := va } else f

/-- The place that a unit's access of n bytes at a virtual address reaches under an ASID; a line that a switch holds is
waited for (R166). -/
def State.unitPlace (s : State) (asid : BitVec 16) (va : BitVec 64) (access : Nat) : Unit_ (State × Nat) :=
  match s.xlate asid va access with
  | (s, .ok k) => if (s.lentAt k).isEmpty then .ok (s, k) else .error ⟨0, 2, BitVec.ofNat 64 k, 0, s⟩
  | (s, .error (die, c)) => .error ⟨c, die, va, access, s⟩

/-- The alignment of an access of n bytes (R62): its own size, of a longer one a sector's. -/
def State.aligned (s : State) (va : BitVec 64) (n access : Nat) : Unit_ Unit :=
  if va.toNat % min n 16 = 0 then .ok () else .error ⟨0x10, 2, va, access, s⟩

/-- Read n bytes of a structure (R62, R102). -/
def State.vread (s : State) (asid : BitVec 16) (va : BitVec 64) (n : Nat) : Unit_ (State × Nat) := do
  s.aligned va n 0
  let (s, k) ← s.unitPlace asid va 0
  if s.isPoisoned k n then s.unitPoison va else return (s, s.readLE k n)

/-- Write n bytes of a structure (R62); an engine's write drops the lines it writes from its core's L1 (R80). -/
def State.vwrite (s : State) (asid : BitVec 16) (va : BitVec 64) (n v : Nat) (core : Option Nat := none) : Unit_ State := do
  s.aligned va n 1
  let (s, k) ← s.unitPlace asid va 1
  let s := s.writeLE k n v
  match core with
  | some c => return s.l1DropRange c k n
  | none => return s

/-- Write n bytes of a structure for an instruction of a core (R62): the copies that its L1 holds are updated (R77). -/
def State.cwrite (s : State) (core : Nat) (asid : BitVec 16) (va : BitVec 64) (n v : Nat) : Unit_ State := do
  s.aligned va n 1
  let (s, k) ← s.unitPlace asid va 1
  return (s.writeLE k n v).l1Update core k n v

/-- What a unit's operation that meets a fate leaves (R26, R114, R120): what the MTUs and slices did for its accesses, and
the eviction cursor where its rounds left it. -/
def State.afterFate (s : State) (f : UnitFate) : State :=
  { s.adoptMarks f.seen with carillon := { s.carillon with evictCursor := f.seen.carillon.evictCursor } }

/-- What happens when a unit must wait: the line it waits for is recalled. -/
def State.unitHold (s : State) (f : UnitFate) : State :=
  let s := s.adoptMarks f.seen
  if f.va = BitVec.allOnes 64 then s else s.recallLine (f.va.toNat / 64)

/-! ### Range locks (R140, R142) -/

/-- A range that an operation registers: space, first byte, end, and whether it is write-locked. -/
structure Span where
  space : Nat
  lo : Nat
  hi : Nat
  write : Bool
  deriving DecidableEq, Repr

/-- A span rounded outward to 64-byte granules. -/
def Span.granules (r : Span) : Span := { r with lo := r.lo / 64 * 64, hi := (r.hi + 63) / 64 * 64 }

/-- Whether two spans touch a common granule. -/
def Span.meets (a b : Span) : Bool :=
  let a := a.granules
  let b := b.granules
  a.space = b.space && decide (a.lo < b.hi) && decide (b.lo < a.hi)

/-- Whether a new operation must wait for the ranges a core has locked (R142). -/
def State.lockedOut (s : State) (core : Nat) (asid : BitVec 16) (rs : List Span) : Bool :=
  (s.core core).locks.any fun e => e.2.asid = asid && rs.any fun r => (r.write || e.2.write) &&
    r.meets ⟨e.2.space, e.2.lo, e.2.hi, e.2.write⟩

/-- Register the ranges of an operation, each in the lowest free entry (R140). -/
def State.lockAll (s : State) (core op : Nat) (asid : BitVec 16) (rs : List Span) : State :=
  let c := s.core core
  s.setCore core { c with locks := rs.foldl (fun m r =>
    let r := r.granules
    Tab.put m (Tab.fresh m 64 0) ⟨op, r.space, asid, r.lo, r.hi, r.write⟩) c.locks }

/-- Whether a core has n free lock entries. -/
def State.locksFree (s : State) (core n : Nat) : Bool := decide ((s.core core).locks.length + n ≤ 64)

/-- Whether an operation's write range overlaps its own read range (R359). -/
def selfOverlap (rs : List Span) : Bool := rs.any fun a => a.write && rs.any fun b => !b.write && a.meets b

/-- Whether an earlier access of the group touches a range of an operation (R143): the operation follows it. -/
def State.follows (s : State) (core slot op : Nat) (rs : List Span) : Bool :=
  (s.accessesOf core slot).any fun e => decide (e.1 < op) && e.2.lanes.any fun l => l.at_ != .done &&
    rs.any fun r => r.space = e.2.space && decide (l.addr.toNat < r.hi) && decide (r.lo < l.addr.toNat + e.2.bytes)

/-- Whether a group's earlier accesses let a unit act for it on n bytes at an address: its acquires are performed (R128),
and so are its accesses to those bytes (R127). -/
def State.inOrder (s : State) (g : Group) (va : BitVec 64) (n : Nat) : Bool :=
  s.acquired g.core g.slot && !s.follows g.core g.slot s.nextId [⟨0, va.toNat, va.toNat + n, true⟩]

/-- The range-lock check of n bytes of global memory that a unit reads or writes for an instruction (R141). -/
def State.unlocked (s : State) (g : Group) (va : BitVec 64) (n : Nat) (write : Bool) : Run Unit :=
  match s.lockHit g.core 0 g.asid va.toNat n write with
  | some i => .error (.fate 0x20 i 0)
  | none => .ok ()

/-- The ranges an operation holds. -/
def State.spansOf (s : State) (core op : Nat) : List Span :=
  ((s.core core).locks.filter fun e => e.2.op = op).map fun e => ⟨e.2.space, e.2.lo, e.2.hi, e.2.write⟩

/-- The check of a range (R359 step 4): the fate, if any, of n bytes at an address of a space. -/
def State.rangeBad (s : State) (asid : BitVec 16) (t : Team) (space : Nat) (a : BitVec 64) (n access : Nat) : Option Nat :=
  if n = 0 then none
  else if space ≠ 0 then (if s.outside asid t space a n access then some 0x10 else none)
  else
    let last := a + BitVec.ofNat 64 (n - 1)
    if !addrOk a || decide (2 ^ 57 < a.toNat + n) || isFabric a != isFabric last then some 0x10
    else if !isFabric a then none
    else if vaPeer a ≠ vaPeer last ∨ vaWin a ≠ vaWin last then some 0x10
    else match s.checkFabric asid a n access, s.checkFabric asid last 1 access with
      | .error c, _ => some c
      | .ok _, .error c => some c
      | .ok _, .ok _ => none

/-! ### Tokens and faults of engine operations -/

/-- Fill a scalar register as a token (R88), with its trace record (R446 TYPE 3). -/
def State.fillToken (s : State) (core slot reg : Nat) (pc : BitVec 64) (seq : BitVec 32) (v : BitVec 64) (pz : Bool) : State :=
  let s := s.modGroup core slot fun g =>
    let g := g.fillS reg v pz
    { g with tokens := g.tokens ||| (1#128 <<< reg) }
  match s.group core slot with
  | some g => s.trace g 1 3 pc seq (v.toNat % 2 ^ 32)
  | none => s

/-- Give the group of an engine operation a late fault (R90, R227): it is recorded as it is detected (R253), the group stops
at its next boundary, and OP 0 restarts the operation. -/
def State.engineFate (s : State) (core slot : Nat) (asid : BitVec 16) (pc : BitVec 64) (seq : BitVec 32) (w : Word)
    (f : UnitFate) (op : Nat) : State :=
  let die := if f.die = 2 then dieOf core else f.die
  (s.modGroup core slot fun g => { g with late := g.late ++ [⟨BitVec.ofNat 8 f.cause, .boundary, 0, [op]⟩] }).emit die
    (record0 (f.d0 w) 0 pc f.access f.cause seq asid core slot)

/-! ### Storage -/

/-- Copy n bytes of storage from one place to another that does not overlap it, both aligned to sectors, with their
poison (R114). -/
def State.copyBlock (s : State) (dst src n : Nat) : State :=
  let inside (k a : Nat) : Bool := decide (k ≤ a) && decide (a < k + n)
  let cells := (s.mem.filter fun e => inside src e.1).map fun e => (e.1 - src + dst, e.2)
  let pz := (s.poisoned.filter fun q => inside src (16 * q)).map fun q => q - src / 16 + dst / 16
  let s := s.zeroRange dst n
  { s with
    mem := cells.foldl (fun m e => Tab.set 0 m e.1 e.2) s.mem
    poisoned := pz ++ s.poisoned }

/-- Where a byte of a space that an engine names lies: of a detached operation (R240) space 2 is the scratchpad image in
the save area. -/
def State.enginePlace (s : State) (core : Nat) (asid : BitVec 16) (team : Nat) (image : Option (Nat × Nat)) (space : Nat)
    (a : BitVec 64) (access : Nat) : Unit_ (State × Nat) :=
  match space with
  | 0 => s.unitPlace asid a access
  | 2 =>
    match image, s.team team with
    | some (sp, _), _ => .ok (s, sp + a.toNat)
    | none, some t => .ok (s, s.spacePlace core 0 asid t 0 2 a.toNat)
    | none, none => s.unitWait
  | n => .ok (s, s.sharedPlace core asid n a.toNat)

end Sys2Proof.Machine
end

