-- ==== Sys2Proof/Machine/Pages.lean ====
section
/-!
DEFINITION. The paged key-value store's structures: page format records (R99 to R101), block tables (R102 to R104), page
descriptors, the free list and the frame stacks (R96, R97), and moving pages between tiers (R113, R114).
-/
namespace Sys2Proof.Machine

/-! ### Page format records (R99 to R101) -/

/-- A legal page format record: log2 of the tokens of a page, heads, head dimension, element bytes, layer groups, and
the record itself. -/
structure PageFmt where
  ltpp : Nat
  nh : Nat
  hdim : Nat
  es : Nat
  lg : Nat
  raw : BitVec 128
  deriving DecidableEq, Repr

/-- The bytes of an element type of a page (R99). -/
def pageElem (t : Nat) : Option Nat :=
  match t with
  | 1 | 12 | 13 => some 1
  | 9 | 10 => some 2
  | 11 => some 4
  | _ => none

/-- The format that a record names, if it is legal (R101). -/
def pageFmt (w : BitVec 128) : Option PageFmt :=
  let n := w.toNat
  let ltpp := n % 16
  let nh := n / 2 ^ 8 % 256
  let hd16 := n / 2 ^ 16 % 256
  let lg := n / 2 ^ 32 % 256
  match pageElem (n / 2 ^ 24 % 32) with
  | some es =>
    if ltpp ≤ 8 ∧ n / 16 % 16 = 0 ∧ 1 ≤ nh ∧ 1 ≤ hd16 ∧ hd16 ≤ 32 ∧ n / 2 ^ 29 % 8 = 0 ∧ 1 ≤ lg ∧ n / 2 ^ 40 = 0 ∧
        2 * nh * 2 ^ ltpp * (16 * hd16) * es ≤ 65536 then
      some ⟨ltpp, nh, 16 * hd16, es, lg, w⟩
    else none
  | none => none

/-- The tokens of a page. -/
def PageFmt.tokens (f : PageFmt) : Nat := 2 ^ f.ltpp

/-- The token pages that hold a number of tokens. -/
def PageFmt.pagesFor (f : PageFmt) (l : Nat) : Nat := (l + f.tokens - 1) / f.tokens

/-- The byte of a page at which an element lies (R100). -/
def PageFmt.offset (f : PageFmt) (kv h t d : Nat) : Nat := (((kv * f.nh + h) * f.tokens + t) * f.hdim + d) * f.es

/-- The bytes of one token of one head and half: a run that is contiguous in a page and in a tile (R100, R115). -/
def PageFmt.row (f : PageFmt) : Nat := f.hdim * f.es

/-- The bytes of the tile of n tokens and m heads (R115). -/
def PageFmt.tile (f : PageFmt) (n m : Nat) : Nat := 2 * m * n * f.row

/-! ### Block tables (R102 to R104) -/

/-- A block table as its header gives it. -/
structure BTab where
  asid : BitVec 16
  va : BitVec 64
  length : Nat
  ntp : Nat
  cap : Nat
  owner : Nat
  fmt : PageFmt
  deriving DecidableEq, Repr

/-- Read a block table's header and its format record (R102). -/
def State.readTable (s : State) (asid : BitVec 16) (bt : BitVec 64) : Unit_ (State × BTab) := do
  if bt.toNat % 64 ≠ 0 then s.kvFate 0x10 bt
  let (s, h) ← s.vread asid bt 32
  let fa := BitVec.ofNat 64 (h / 2 ^ 128)
  if h / 2 ^ 109 % 2 ^ 19 ≠ 0 ∨ h / 2 ^ 192 ≠ 0 then s.unitIllegal
  if fa.toNat % 16 ≠ 0 then s.kvFate 0x10 fa
  let (s, w) ← s.vread asid fa 16
  match pageFmt (BitVec.ofNat 128 w) with
  | some f => return (s, ⟨asid, bt, h % 2 ^ 32, h / 2 ^ 32 % 2 ^ 32, h / 2 ^ 64 % 2 ^ 32, h / 2 ^ 96 % 2 ^ 13, f⟩)
  | none => s.unitIllegal

/-- Write a block table's LENGTH and NTP. -/
def State.writeCounts (s : State) (b : BTab) (length ntp : Nat) (core : Option Nat := none) : Unit_ State :=
  s.vwrite b.asid b.va 8 (length % 2 ^ 32 + ntp % 2 ^ 32 * 2 ^ 32) core

/-- The address of entry e of a block table. -/
def BTab.entryVa (b : BTab) (e : Nat) : BitVec 64 := b.va + BitVec.ofNat 64 (32 + 8 * e)

/-- The entries of a block table that are held. -/
def BTab.entries (b : BTab) : Nat := b.ntp * b.fmt.lg

/-- A block-table entry that names a descriptor and its generation. -/
def entryWord (pdi gen : Nat) : Nat := pdi % 2 ^ 26 + gen % 256 * 2 ^ 26 + 2 ^ 63

/-! ### Page descriptors (R96, R97) -/

/-- A page descriptor of a live page; `gen` and the frame also stand in one that is free. -/
structure PageDesc where
  v : Bool
  tier : Nat
  cw : Bool
  busy : Bool
  pin : Nat
  ref : Nat
  lastg : Nat
  frame : Nat
  die : Nat
  owner : Nat
  gen : Nat
  deriving DecidableEq, Repr

/-- The first dword of a descriptor. -/
def PageDesc.lo (p : PageDesc) : Nat :=
  (if p.v then 1 else 0) + p.tier % 2 * 2 + (if p.cw then 4 else 0) + (if p.busy then 8 else 0) + p.pin % 256 * 2 ^ 8 +
    p.ref % 2 ^ 16 * 2 ^ 16 + p.lastg % 2 ^ 32 * 2 ^ 32

/-- The second dword of a descriptor. -/
def PageDesc.hi (p : PageDesc) : Nat :=
  p.frame % 2 ^ 36 + p.die % 2 * 2 ^ 36 + p.owner % 2 ^ 13 * 2 ^ 40 + p.gen % 256 * 2 ^ 56

/-- The descriptor that 16 bytes hold. -/
def pageDesc (n : Nat) : PageDesc :=
  { v := n.testBit 0, tier := n / 2 % 2, cw := n.testBit 2, busy := n.testBit 3, pin := n / 2 ^ 8 % 256,
    ref := n / 2 ^ 16 % 2 ^ 16, lastg := n / 2 ^ 32 % 2 ^ 32, frame := n / 2 ^ 64 % 2 ^ 36, die := n / 2 ^ 100 % 2,
    owner := n / 2 ^ 104 % 2 ^ 13, gen := n / 2 ^ 120 % 256 }

/-- Whether 16 bytes break a reserved bit of a descriptor (R11, R97). -/
def pageDescBad (n : Nat) : Bool := n / 2 ^ 4 % 16 != 0 || n / 2 ^ 101 % 8 != 0 || n / 2 ^ 117 % 8 != 0

/-- The place of descriptor i. -/
def State.pdKey (s : State) (i : Nat) : Nat := s.baseOf 0x5008 12 + 16 * i

/-- The number of descriptors. -/
def State.pdN (s : State) : Nat := fld (s.reg 0x5010) 0 27

/-- Descriptor i as it stands. -/
def State.pd (s : State) (i : Nat) : PageDesc := pageDesc (s.readLE (s.pdKey i) 16)

/-- Write descriptor i: one atomic update (R105). -/
def State.setPd (s : State) (i : Nat) (p : PageDesc) : State := s.writeLE (s.pdKey i) 16 (p.lo + p.hi * 2 ^ 64)

/-- Read descriptor i (R104): poison is a use (R236), a reserved bit is R11's fate (DEDUCED, log 65). -/
def State.readPd (s : State) (i : Nat) : Unit_ PageDesc :=
  let k := s.pdKey i
  if s.isPoisoned k 16 then s.unitPoison 0
  else if pageDescBad (s.readLE k 16) then s.unitIllegal
  else .ok (s.pd i)

/-- Resolve entry e of a block table (R104): the descriptor's index and contents. -/
def State.resolve (s : State) (b : BTab) (e : Nat) : Unit_ (State × Nat × PageDesc) := do
  let (s, w) ← s.vread b.asid (b.entryVa e) 8
  if w / 2 ^ 34 % 2 ^ 29 ≠ 0 then s.unitIllegal
  let i := w % 2 ^ 26
  if w / 2 ^ 63 = 0 ∨ s.pdN ≤ i then s.kvFate 0x30 b.va
  let p ← s.readPd i
  if !p.v ∨ p.gen ≠ w / 2 ^ 26 % 256 then s.kvFate 0x30 b.va
  return (s, i, p)

/-- Resolve the entries of a list, in order. -/
def State.resolveAll (s : State) (b : BTab) : List Nat → Unit_ (State × List (Nat × Nat × PageDesc))
  | [] => .ok (s, [])
  | e :: es => do
    let (s, i, p) ← s.resolve b e
    let (s, rest) ← State.resolveAll s b es
    return (s, (e, i, p) :: rest)

/-- The place of a frame. -/
def frameKey (tier die frame : Nat) : Nat := physKey tier die (frame * 2 ^ 16)

/-- The place of a page. -/
def PageDesc.place (p : PageDesc) : Nat := frameKey p.tier p.die p.frame

/-- Bits [41:10] of the time-stamp (R97). -/
def State.stamp (s : State) : Nat := s.now.toNat / 2 ^ 10 % 2 ^ 32

/-! ### The free list and the frame stacks (R96, R97) -/

/-- Take the first free descriptor. -/
def State.popFree (s : State) (bt : BitVec 64) : Unit_ (State × Nat) :=
  let r := s.reg 0x5018
  let i := fld r 0 27
  if fld r 27 27 = 0 then s.kvFate 0x31 bt
  else
    let next := s.readLE (s.pdKey i) 8 / 2 ^ 32 % 2 ^ 27
    .ok (s.setReg 0x5018 (setFld (setFld r 0 27 next) 27 27 (fld r 27 27 - 1)), i)

/-- The registers of the frame stack of a tier: its base and its top. -/
def stackRegs (tier : Nat) : Nat × Nat := if tier = 0 then (0x5020, 0x5028) else (0x5030, 0x5038)

/-- The frames on the stack of a tier. -/
def State.stackCount (s : State) (tier : Nat) : Nat := fld (s.reg (stackRegs tier).2) 0 27

/-- Take the top frame of a tier's stack: the entry with FRAME and DIE. -/
def State.popStack (s : State) (tier : Nat) (bt : BitVec 64) : Unit_ (State × Nat) :=
  let q := stackRegs tier
  let r := s.reg q.2
  let n := fld r 0 27
  if n = 0 then s.kvFate 0x31 bt
  else
    let k := s.baseOf q.1 12 + 8 * (n - 1)
    if s.isPoisoned k 8 then s.unitPoison bt
    else .ok (s.setReg q.2 (setFld r 0 27 (n - 1)), s.readLE k 8 % 2 ^ 37)

/-- Push a frame on a tier's stack; a full one drops it and sets KVS_CTL.OVF (R96, R111). -/
def State.pushStack (s : State) (tier entry : Nat) : State :=
  let q := stackRegs tier
  let r := s.reg q.2
  let n := fld r 0 27
  if fld r 27 27 ≤ n then s.setReg 0x5000 (s.reg 0x5000 ||| 2)
  else (s.writeLE (s.baseOf q.1 12 + 8 * n) 8 entry).setReg q.2 (setFld r 0 27 (n + 1))

/-- The stack entry of a page's frame. -/
def PageDesc.entry (p : PageDesc) : Nat := p.frame % 2 ^ 36 + p.die % 2 * 2 ^ 36

/-- Release descriptor i (R111); one whose last reference goes while it is being moved is waited for (DEDUCED, log 12). -/
def State.releasePd (s : State) (i : Nat) : Unit_ State := do
  let p ← s.readPd i
  if 1 < p.ref then return s.setPd i { p with ref := p.ref - 1, cw := decide (2 < p.ref) }
  else if p.busy then s.unitWait
  else
    let s := s.pushStack p.tier p.entry
    let r := s.reg 0x5018
    let q : PageDesc := { p with v := false, cw := false, busy := false, pin := 0, ref := 0, lastg := fld r 0 27, gen := (p.gen + 1) % 256 }
    return (s.setPd i q).setReg 0x5018 (setFld (setFld r 0 27 i) 27 27 (fld r 27 27 + 1))

/-! ### Moving pages (R113, R114) -/

/-- Start a move of a page (R114): BUSY is set and a frame of the destination tier taken. -/
def State.startMove (s : State) (i : Nat) (toLpddr : Bool) (bt : BitVec 64) : Unit_ State := do
  let (s, f) ← s.popStack (if toLpddr then 1 else 0) bt
  let s := s.setPd i { s.pd i with busy := true }
  return { s with moves := s.moves ++ [⟨i, f, toLpddr⟩] }

/-- Whether a gather or handoff is reading a page (R113). -/
def State.reading (s : State) (i : Nat) : Bool := s.copies.any fun e => e.2.phase = 1 && e.2.pages.contains i

/-- The score of a descriptor, when it is eligible for eviction (R113). -/
def State.evictScore (s : State) (i : Nat) : Option Int :=
  let p := s.pd i
  if p.v && p.tier = 0 && p.pin = 0 && !p.busy && !s.reading i then
    let age : Nat := (s.stamp + 2 ^ 32 - p.lastg) % 2 ^ 32
    some (Int.ofNat age - 1024 * Int.ofNat (fld (s.reg 0x5040) 54 10) * (Int.ofNat p.ref - 1))
  else none

/-- The eligible descriptor of a window with the highest score, ties to the lower index. -/
def State.evictPick (s : State) (window : List Nat) : Option Nat :=
  (window.foldl (fun (best : Option (Nat × Int)) i =>
    match s.evictScore i, best with
    | some v, some (j, w) => if w < v ∨ (v = w ∧ i < j) then some (i, v) else some (j, w)
    | some v, none => some (i, v)
    | none, b => b) none).map (·.1)

/-- The HBM4 frames there will be once the evictions under way are done. -/
def State.framesToCome (s : State) : Nat := s.stackCount 0 + (s.moves.filter PsMove.toLpddr).length

/-- Eviction in rounds (R113), `fuel` of them at most: until HBM4 will hold `goal` frames, `pages` pages are evicted, the
LPDDR-6 stack is empty, or the rounds have examined every descriptor. -/
def State.evictRounds (s : State) (goal pages examined : Nat) : Nat → State
  | 0 => s
  | fuel + 1 =>
    let n := s.pdN
    if goal ≤ s.framesToCome ∨ pages = 0 ∨ s.stackCount 1 = 0 ∨ n ≤ examined then s
    else
      let w := min 4096 n
      let c := s.carillon.evictCursor % n
      let pick := s.evictPick ((List.range w).map fun k => (c + k) % n)
      let s := { s with carillon := { s.carillon with evictCursor := (c + w) % n } }
      match pick with
      | some i =>
        match s.startMove i true 0 with
        | .ok t => State.evictRounds t goal (pages - 1) (examined + w) fuel
        | .error _ => s
      | none => State.evictRounds s goal pages (examined + w) fuel

/-- Start the bring-back of a page for an operation on a block table (R114): when the HBM4 stack is empty, evictions are
started first, and the operation waits for them; when none can be, its fate is KV pool empty. -/
def State.bringBack (s : State) (i : Nat) (bt : BitVec 64) : Unit_ State :=
  if 0 < s.stackCount 0 then s.startMove i false bt
  else if 0 < s.framesToCome then .ok s
  else
    let t := s.evictRounds 1 (s.pdN + 1) 0 (s.pdN / 4096 + 1)
    if 0 < t.framesToCome then .ok t else t.kvFate 0x31 bt

/-- Bring the pages of a list that need it back to HBM4; whether all of them are there and none is being moved.  DESIGN
CHOICE (log 65): an operation reads or pins its pages once all of them are there. -/
def State.bringAll (s : State) (bt : BitVec 64) : List Nat → Unit_ (State × Bool)
  | [] => .ok (s, true)
  | i :: is => do
    let p := s.pd i
    let s' ← if p.busy ∨ p.tier = 0 then Except.ok s else s.bringBack i bt
    let (s'', ok) ← State.bringAll s' bt is
    return (s'', ok && !p.busy && p.tier = 0)

/-- PAGE_MOVE (R114): the copy of a page that is being moved is done, and its old frame goes back to its stack. -/
def execPageMove (pdi : Nat) (s : State) : Host.Outcome State Fault Refusal :=
  match s.moves.find? fun m => m.pdi = pdi with
  | some m =>
    let p := s.pd pdi
    let tier := if m.toLpddr then 1 else 0
    let q := { p with busy := false, tier := tier, frame := m.frame % 2 ^ 36, die := m.frame / 2 ^ 36 % 2 }
    let s := s.copyBlock q.place p.place (2 ^ 16)
    let s := (s.setPd pdi q).pushStack p.tier p.entry
    .next { s with moves := s.moves.filter fun x => x.pdi ≠ pdi }
  | none => .next s

end Sys2Proof.Machine
end

