-- ==== Sys2Proof/Machine/Copy.lean ====
section
/-!
DEFINITION. The copy engine: major 0x29 (R88 to R90, R140 to R143, R357 to R362) and its 4 KiB chunks.
-/
namespace Sys2Proof.Machine

/-! ### Operands -/

/-- The n scalar registers from k. -/
def Group.block (g : Group) (k n : Nat) : List (BitVec 64) := (List.range n).map fun i => g.sv (k + i)

/-- The MOD payload of an instruction, zero without MOD. -/
def modPayload (x : Pfx) : BitVec 24 := (x.mod.map fun m => m.word.extractLsb' 0 24).getD 0

/-- An operand register captured at issue. -/
def CopyOp.r (c : CopyOp) (k : Nat) : BitVec 64 := c.regs.getD k 0

/-- The destination space. -/
def CopyOp.dsp (c : CopyOp) : Nat := if c.form = 2 then 2 else fld c.ctl 32 3
/-- The source space. -/
def CopyOp.ssp (c : CopyOp) : Nat := if c.form = 3 then 2 else fld c.ctl 35 3
/-- The bytes of a row. -/
def CopyOp.len (c : CopyOp) : Nat := fld c.ctl 0 32
/-- The rows. -/
def CopyOp.rows (c : CopyOp) : Nat := if c.form = 1 then fld c.ctl 40 16 else 1
/-- The first token of a gather or append write, or the first token page of a handoff's registers. -/
def CopyOp.t0 (c : CopyOp) : Nat := fld (c.r 2) 0 32
/-- The number of tokens. -/
def CopyOp.n (c : CopyOp) : Nat := fld (c.r 2) 32 32
/-- The layer group. -/
def CopyOp.g (c : CopyOp) : Nat := fld (c.r 3) 0 8
/-- The first head. -/
def CopyOp.h0 (c : CopyOp) : Nat := fld (c.r 3) 8 8
/-- The number of heads. -/
def CopyOp.m (c : CopyOp) : Nat := fld (c.r 3) 16 8

/-- An operation of the copy engine as an instruction issues it. -/
def newCopy (g : Group) (i : Instr) (x : Pfx) (form : Nat) (r : RRR) (nregs : Nat) (ctl : BitVec 64) (bytes : Nat) : CopyOp :=
  { form := form, core := g.core, slot := g.slot, site := g.slot, gid := g.gid, team := g.team, asid := g.asid, token := r.d.toNat,
    pc := g.pc, seq := g.seqNo, word := (i.code.map Code.word).getD 0, modw := modPayload x, regs := g.block r.a.toNat nregs,
    ctl := ctl, chunk := 0, bytes := bytes, cancel := false, stopped := false, detached := none, wait := none, buf := [],
    phase := 0, pages := [] }

/-- The destination and source ranges of CPY, CPY2D and CPYFILL (R140): for CPY2D those that bound its rows; an
operation of no bytes has none. -/
def CopyOp.spans (c : CopyOp) : List Span :=
  let ext (stride : Nat) : Nat := (c.rows - 1) * stride + c.len
  let d : Span := ⟨c.dsp, (c.r 0).toNat, (c.r 0).toNat + ext (fld (c.r 2) 0 32), true⟩
  if c.len = 0 then []
  else if c.form = 5 then [d]
  else [d, ⟨c.ssp, (c.r 1).toNat, (c.r 1).toNat + ext (fld (c.r 2) 32 32), false⟩]

/-! ### Issue -/

/-- A unit's fate as an instruction meets it: precise (R102, R120, R359), but for poison that the unit reads itself, which
stops the group at the boundary before the instruction (R236, R374). -/
def UnitFate.halt (f : UnitFate) : Halt :=
  if f.isWait then (if f.va = BitVec.allOnes 64 then .wait else .waitLine f.va.toNat)
  else if f.cause = 0x01 then illegalMain
  else if f.cause = 0x05 then .boundary 0x05 3
  else if f.die = 2 then .fateAt f.cause f.va 0 f.access
  else .fateOn f.die f.cause f.va 0 f.access

/-- A unit's answer as a part of an instruction, with the state that its accesses left (R26). -/
def unitRun {α : Type} : Unit_ α → Run α
  | .ok a => .ok a
  | .error f => .error (.seen f.seen f.halt)

/-- An operand as the limits judge it: a poisoned one is not judged (R339). -/
def Group.judged (g : Group) (k : Nat) : Option (BitVec 64) := if (g.sel k).pois then none else some (g.sv k)

/-- The checks of the control word and of the addresses and strides (R358). -/
def copyBad (form : Nat) (dst src str ctl : Option (BitVec 64)) : Bool :=
  let spaces := [0, 2, 3, 4]
  let word4 (v : Option (BitVec 64)) : Bool := v.any fun a => a.toNat % 4 != 0
  (ctl.any fun c => fld c 0 32 % 4 != 0 || !spaces.contains (fld c 32 3) || fld c 38 2 != 0 || fld c 56 8 != 0 ||
    (if form = 1 then fld c 40 16 = 0 else fld c 40 16 != 0) ||
    (if form = 5 then fld c 35 3 != 0 else !spaces.contains (fld c 35 3))) ||
  word4 dst || (if form = 5 then src.any fun a => fld a 32 32 != 0 else word4 src) ||
  (form = 1 && str.any fun t => fld t 0 2 != 0 || fld t 32 2 != 0 ||
    ctl.any fun c => decide (1 < fld c 40 16) && decide (fld t 0 32 < fld c 0 32))

/-- The number of operand registers a form of major 0x29 reads (R357). -/
def copyRegs (form : Nat) : Nat :=
  match form with
  | 1 => 3
  | 2 | 3 | 4 => 4
  | 6 => 0
  | _ => 2

/-- The limits of CPY, CPY2D and CPYFILL, judged once their operands are full (R339, R358). -/
def copyLimit (form : Nat) (r : RRR) (_ : State) (g : Group) : Bool :=
  let a := r.a.toNat
  (Opd.s a (copyRegs form)).isFull g && (g.sel r.b.toNat).full &&
    copyBad form (g.judged a) (g.judged (a + 1)) (g.judged (a + 2)) (g.judged r.b.toNat)

/-- Step 4 of R359 over ranges: the first that fails has its fate precisely. -/
def State.checkSpans (s : State) (g : Group) (rs : List Span) : Run Unit :=
  match s.team g.team with
  | none => .ok ()
  | some t =>
    match rs.findSome? fun r =>
        (s.rangeBad g.asid t r.space (BitVec.ofNat 64 r.lo) (r.hi - r.lo) (if r.write then 1 else 0)).map fun c => (r, c) with
    | some (r, c) => .error (.fateAt c (BitVec.ofNat 64 r.lo) 0 (if r.write then 1 else 0))
    | none => .ok ()

/-- The wait-free end of issue (R359): once the token is full and the ranges are free, register the ranges, mark the token
empty and start the operation under a number. -/
def State.launchCopy (s : State) (g : Group) (c : CopyOp) (rs : List Span) : Run (State × Group × Nat) := do
  need (!selfOverlap rs) (.fate 0x20 (2 ^ 6) 0)
  need (g.sel c.token).full .waitEmpty
  need (s.locksFree g.core rs.length && !s.lockedOut g.core g.asid rs) .wait
  let n := s.newId
  let s := { n.1 with copies := Tab.put n.1.copies n.2 c }.lockAll g.core n.2 g.asid rs
  return (s, g.emptyS c.token, n.2)

/-- The body of CPY, CPY2D and CPYFILL (R357 to R360). -/
def copyBody (i : Instr) (x : Pfx) (form : Nat) (r : RRR) (s : State) (g : Group) : Run (State × Group) := do
  let (a, b, d) := (r.a.toNat, r.b.toNat, r.d.toNat)
  let n := copyRegs form
  gate g x false [(.s a n, r.wa), (.s b 1, r.wb)] []
  let addrs := if form = 5 then 1 else 2
  need (!g.spois a addrs) (poisonUse 1 0)
  need (!(g.spois (a + addrs) (n - addrs) || g.spois b 1)) (poisonUse 3 0)
  let c := newCopy g i x form r n (g.sv b) 0
  let c := { c with bytes := c.rows * c.len }
  s.checkSpans g c.spans
  let s := if c.dsp = 2 then s else s.modTeam g.team fun t => { t with repl := false }
  if c.bytes = 0 then
    need (g.sel d).full .waitEmpty
    return (s.trace g 1 3 g.pc g.seqNo 0, g.writeS d 0 false)
  else
    let q ← s.launchCopy g c c.spans
    return (q.1, q.2.1)

/-- CPY (R357, R360). -/
def execCpy (x : Pfx) (r : RRR) (s : State) : Host.Outcome State Fault Refusal :=
  issueS (.cpy x r) (copyLimit 0 r) (copyBody (.cpy x r) x 0 r) s

/-- CPY2D (R357, R360). -/
def execCpy2d (x : Pfx) (r : RRR) (s : State) : Host.Outcome State Fault Refusal :=
  issueS (.cpy2d x r) (copyLimit 1 r) (copyBody (.cpy2d x r) x 1 r) s

/-- CPYFILL (R357, R360). -/
def execCpyfill (x : Pfx) (r : RRR) (s : State) : Host.Outcome State Fault Refusal :=
  issueS (.cpyfill x r) (copyLimit 5 r) (copyBody (.cpyfill x r) x 5 r) s

/-- The part of GATH, SCAT and KVSEND before the page-store unit (R149, R359, R361): the implicit release at K, the read
of the block table and its format record, the checks of the tile, and the arrival at the unit. -/
def pagesBody (i : Instr) (x : Pfx) (form : Nat) (r : RRR) (s : State) (g : Group) : Run (State × Group) := do
  let a := r.a.toNat
  gate g x false [(.s a 4, r.wa)] []
  let addrs := if form = 4 then 1 else 2
  need (!g.spois a addrs) (poisonUse 1 0)
  need (!g.spois (a + addrs) (4 - addrs)) (poisonUse 3 0)
  need (s.quiet g.core g.slot) .wait
  let (s, b) ← unitRun (s.readTable g.asid (g.sv a))
  let c := newCopy g i x form r 4 0 0
  let o := (g.sv (a + 1)).toNat
  let bytes := if form = 4 then 0 else b.fmt.tile c.n c.m
  let tile : List Span := if form = 4 then [⟨6, (g.sv a).toNat, (g.sv a).toNat + 64, false⟩]
    else if bytes = 0 then [] else [⟨2, o, o + bytes, form = 2⟩]
  let s := if form = 2 then s else s.modTeam g.team fun t => { t with repl := false }
  let q ← s.seenBy (do
    need (form = 4 || o % 16 = 0) (.fateAt 0x10 (g.sv (a + 1)) 0 (if form = 2 then 1 else 0))
    if form ≠ 4 then s.checkSpans g tile
    s.launchCopy g { c with bytes := bytes } tile)
  return (q.1.arrive (({ c with bytes := bytes } : CopyOp).arrival q.2.2), q.2.1)

/-- GATH (R115, R361). -/
def execGath (x : Pfx) (r : RRR) (s : State) : Host.Outcome State Fault Refusal :=
  issueS (.gath x r) noLimit (pagesBody (.gath x r) x 2 r) s

/-- SCAT (R109, R361). -/
def execScat (x : Pfx) (r : RRR) (s : State) : Host.Outcome State Fault Refusal :=
  issueS (.scat x r) noLimit (pagesBody (.scat x r) x 3 r) s

/-- KVSEND (R116 to R119, R361). -/
def execKvsend (x : Pfx) (r : RRR) (s : State) : Host.Outcome State Fault Refusal :=
  issueS (.kvsend x r) noLimit (pagesBody (.kvsend x r) x 4 r) s

/-! ### The end of an operation -/

/-- Set a byte's bit in storage. -/
def State.setBit (s : State) (k bit : Nat) (v : Bool) : State :=
  let old := (s.byte (k + bit / 8)).toNat
  s.writeLE (k + bit / 8) 1 (if old.testBit (bit % 8) = v then old else old ^^^ 2 ^ (bit % 8))

/-- End an operation: its ranges are released, then its token fills (R88, R140); of a detached one the token is written
into the saved group image, full and clean (R196, R240). -/
def State.copyEnd (s : State) (id : Nat) (c : CopyOp) (n : Nat) : State :=
  let s := { s.unlock c.core id with copies := Tab.drop s.copies id }
  match c.detached with
  | some (_, image) =>
    ((s.write64 (image + 0x80 + 8 * c.token) (BitVec.ofNat 64 n)).setBit (image + 0x480) c.token true).setBit (image + 0x490)
      c.token false
  | none => s.fillToken c.core c.slot c.token c.pc c.seq (BitVec.ofNat 64 n) false

/-- A fate of an operation's own access (R90): a wait is no fate; an operation whose group is gone ends; any other stops
at its chunk with a late fault of its group, or, detached, with the stop of its saved group. -/
def State.copyFate (s : State) (id : Nat) (c : CopyOp) (f : UnitFate) : State :=
  if f.isWait then s.unitHold f
  else
    let s := s.adoptMarks f.seen
    let die := if f.die = 2 then dieOf c.core else f.die
    let stop : State := { s with copies := Tab.put s.copies id { c with stopped := true, wait := none, buf := [] } }
    if c.detached.isSome then stop.detachedFault id c die f.cause (f.d0 c.word) f.access
    else if c.slot = noSlot then { s.unlock c.core id with copies := Tab.drop s.copies id }
    else stop.engineFate c.core c.slot c.asid c.pc c.seq c.word f id

/-- CPYCAN (R362): an operation pending on the token stops at its chunk; a gather that the unit has not taken never
begins. -/
def execCpycan (x : Pfx) (r : RRR) (s : State) : Host.Outcome State Fault Refusal :=
  issueS (.cpycan x r) noLimit (fun s g =>
    match s.copies.find? fun e => e.2.core = g.core && e.2.slot = g.slot && e.2.token = r.d.toNat && e.2.detached.isNone &&
        e.2.form != 3 && e.2.form != 4 with
    | some (id, c) =>
      if c.form = 2 && c.phase = 0 then
        let s := ({ s with psq := s.psq.filter fun e => e.2.copy ≠ some id }.setGroup g).copyEnd id c 0
        .ok (s, (s.group g.core g.slot).getD g)
      else .ok ({ s with copies := Tab.put s.copies id { c with cancel := true } }, g)
    | none => .ok (s, g)) s

/-! ### Chunks (R360) -/

/-- The byte positions of the words of a chunk. -/
def CopyOp.positions (c : CopyOp) : List Nat :=
  (List.range (min 1024 ((c.bytes - 4096 * c.chunk) / 4))).map fun j => 4096 * c.chunk + 4 * j

/-- The destination address of a byte position. -/
def CopyOp.dstAddr (c : CopyOp) (i : Nat) : BitVec 64 :=
  match c.form with
  | 1 => c.r 0 + BitVec.ofNat 64 (i / c.len * fld (c.r 2) 0 32 + i % c.len)
  | 2 => c.r 1 + BitVec.ofNat 64 i
  | _ => c.r 0 + BitVec.ofNat 64 i

/-- The source address of a byte position. -/
def CopyOp.srcAddr (c : CopyOp) (i : Nat) : BitVec 64 :=
  match c.form with
  | 1 => c.r 1 + BitVec.ofNat 64 (i / c.len * fld (c.r 2) 32 32 + i % c.len)
  | _ => c.r 1 + BitVec.ofNat 64 i

/-- Where byte i of a tile lies in its pages (R100, R115): the place of the page in the list of pages from the first
token's, and the byte of that page. -/
def tilePage (f : PageFmt) (t0 n h0 m i : Nat) : Nat × Nat :=
  let row := i / f.row
  let t := t0 + row % n
  let h := h0 + row / n % m
  (t / f.tokens - t0 / f.tokens, f.offset (row / n / m) h (t % f.tokens) 0 + i % f.row)

/-- Where the source word of a byte position lies. -/
def State.srcPlace (s : State) (c : CopyOp) (i : Nat) : Unit_ (State × Nat) :=
  if c.form = 2 then
    match pageFmt (c.ctl.zeroExtend 128) with
    | some f =>
      let q := tilePage f c.t0 c.n c.h0 c.m i
      .ok (s, (s.pd (c.pages.getD q.1 0)).place + q.2)
    | none => s.unitIllegal
  else s.enginePlace c.core c.asid c.team c.detached c.ssp (c.srcAddr i) 0

/-- Read the source words of a list of positions, with their poison. -/
def State.readWords (s : State) (c : CopyOp) : List Nat → Unit_ (State × List (BitVec 32 × Bool))
  | [] => .ok (s, [])
  | i :: is => do
    let (s, k) ← s.srcPlace c i
    let w := (BitVec.ofNat 32 (s.readLE k 4), s.isPoisoned k 4)
    let (s, ws) ← State.readWords s c is
    return (s, w :: ws)

/-- Where the words of a list of positions go. -/
def State.dstPlaces (s : State) (c : CopyOp) : List Nat → Unit_ (State × List Nat)
  | [] => .ok (s, [])
  | i :: is => do
    let (s, k) ← s.enginePlace c.core c.asid c.team c.detached c.dsp (c.dstAddr i) 1
    let (s, ks) ← State.dstPlaces s c is
    return (s, k :: ks)

/-- Write units of n bytes at places: a poisoned sector that they cover whole is clean, and a sector with a poisoned unit
is then poisoned (R95, R236). -/
def State.putUnits (s : State) (n : Nat) (ws : List (Nat × Nat × Bool)) : State :=
  let covered (q : Nat) : Bool := (List.range (16 / n)).all fun j => ws.any fun w => w.1 = 16 * q + n * j
  let s := { s with poisoned := s.poisoned.filter fun q => !covered q }
  ws.foldl (fun s w => let s := s.writeLE w.1 n w.2.1; if w.2.2 then s.poison w.1 n else s) s

/-- The memory operation of a chunk in fabric space (R143, R360). -/
def CopyOp.memOp (c : CopyOp) (id : Nat) (kind : MemKind) (lanes : List LaneAcc) : MemOp :=
  { kind := kind, core := c.core, slot := c.slot, gid := c.gid, team := c.team, asid := c.asid, pc := c.pc, repIdx := 0,
    word := c.word, seq := c.seq, space := 0, order := 0, scope := 1, hint := 0, type := 6, bytes := 4, aop := 0,
    dstKind := .none, dst := 0, nreg := 1, lanes := lanes, lines := [], per := 16, mask := 0, writesP := none,
    engine := some (0, id) }

/-- Start the fabric accesses of a chunk, and wait for them. -/
def State.chunkFabric (s : State) (id : Nat) (c : CopyOp) (kind : MemKind) (addrs : List (BitVec 64))
    (data : List (BitVec 32 × Bool)) : State :=
  let lanes := (List.range addrs.length).map fun j =>
    { laneReq j (addrs.getD j 0) (data.getD j (0, false)).1.toNat 0 with at_ := .fabric, pois := (data.getD j (0, false)).2 }
  let o := c.memOp id kind lanes
  let n := s.newId
  { n.1 with
    memops := Tab.put n.1.memops n.2 { o with lines := n.1.fabLines o }
    copies := Tab.put n.1.copies id { c with wait := some n.2, buf := data } }.pump

/-- The end of a chunk: the operation goes on to the next, or, when it was the last or the operation is cancelled, ends. -/
def State.chunkDone (s : State) (id : Nat) (c : CopyOp) : State :=
  let n := min c.bytes (4096 * (c.chunk + 1))
  if n = c.bytes ∨ c.cancel then s.copyEnd id c n
  else { s with copies := Tab.put s.copies id { c with chunk := c.chunk + 1, wait := none, buf := [] } }

/-- The second half of a chunk: its words are written. -/
def State.chunkWrite (s : State) (id : Nat) (c : CopyOp) (ws : List (BitVec 32 × Bool)) : State :=
  let is := c.positions
  if c.dsp = 0 ∧ isFabric (c.dstAddr 0) then s.chunkFabric id c .store (is.map c.dstAddr) ws
  else
    match s.dstPlaces c is with
    | .error f => s.copyFate id c f
    | .ok (s, ks) =>
      let s := s.putUnits 4 (ks.zip (ws.map fun w => (w.1.toNat, w.2)))
      let s := if c.dsp = 0 ∨ c.dsp = 4 then ks.foldl (fun s k => s.l1DropRange c.core k 4) s else s
      s.chunkDone id c

/-- The first half of a chunk: its source words are read. -/
def State.chunkRead (s : State) (id : Nat) (c : CopyOp) : State :=
  let is := c.positions
  if c.form = 5 then s.chunkWrite id c (is.map fun _ => ((c.r 1).extractLsb' 0 32, false))
  else if c.form ≠ 2 ∧ c.ssp = 0 ∧ isFabric (c.srcAddr 0) then s.chunkFabric id c .engine (is.map c.srcAddr) []
  else
    match s.readWords c is with
    | .error f => s.copyFate id c f
    | .ok (s, ws) => s.chunkWrite id c ws

/-- COPY_CHUNK (R360, R362): a chunk of an operation goes on as far as it can: its words are read, then written; a
fabric access is waited for; a cancelled operation ends (log 37). -/
def execCopyChunk (id : Nat) (s : State) : Host.Outcome State Fault Refusal :=
  match Tab.find s.copies id with
  | none => .next s
  | some c =>
    if c.stopped || c.form = 3 || c.form = 4 || (c.form = 2 && c.phase = 0) then .next s
    else
      match c.wait with
      | some k =>
        match Tab.find s.memops k with
        | some o =>
          if !o.isDone then .next s
          else
            let s := { s with memops := Tab.drop s.memops k }
            let c := { c with wait := none }
            .next (if c.buf.isEmpty then s.chunkWrite id c (o.lanes.map fun l => (l.data.extractLsb' 0 32, l.pois))
              else s.chunkDone id c)
        | none => .next s
      | none =>
        if c.cancel then .next (s.copyEnd id c (4096 * c.chunk))
        else if s.follows c.core c.slot id (s.spansOf c.core id) then .next s
        else .next (s.chunkRead id c)

end Sys2Proof.Machine
end

