-- ==== Sys2Proof/Machine/Slots.lean ====
section
/-!
DEFINITION. The batch table (R411 to R413): its entries as Carillon's cache reads and writes them, the generators they
hold (R276, R277), slot errors (R415), requests for the next boundary (R221, R397) and emission (R418).
-/
namespace Sys2Proof.Machine

/-! ### Entries -/

/-- The address of dword k of a slot's entry. -/
def State.slotVa (s : State) (slot k : Nat) : BitVec 64 := s.btVa (256 * slot + 8 * k)

/-- An access to a slot's entry: a translation fate names the entry's address (R413). -/
def State.ofEntry {α : Type} (s : State) (slot : Nat) (r : Unit_ α) : Unit_ α := r.mapError (·.naming (s.slotVa slot 0))

/-- A dword of a slot's entry. -/
def State.slotDw (s : State) (slot k : Nat) : Unit_ (State × BitVec 64) := do
  let (s, v) ← s.ofEntry slot (s.vread s.carAsid (s.slotVa slot k) 8)
  return (s, BitVec.ofNat 64 v)

/-- Write a dword of a slot's entry. -/
def State.setSlotDw (s : State) (slot k : Nat) (v : BitVec 64) : Unit_ State :=
  s.ofEntry slot (s.vwrite s.carAsid (s.slotVa slot k) 8 v.toNat)

/-- The place of a slot's whole entry, which lies in one page (R411). -/
def State.slotPlace (s : State) (slot access : Nat) : Unit_ (State × Nat) := s.unitPlace s.carAsid (s.slotVa slot 0) access

/-- The states of a slot (R411). -/
def slotFree : Nat := 0
/-- Admitted. -/
def slotAdmitted : Nat := 1
/-- In prefill. -/
def slotPrefill : Nat := 2
/-- Decoding. -/
def slotDecode : Nat := 3
/-- Drafting. -/
def slotDraft : Nat := 4
/-- Done. -/
def slotDone : Nat := 7
/-- In error. -/
def slotInError : Nat := 8

/-- Whether a state is prefill, decode or draft. -/
def slotRuns (st : Nat) : Bool := decide (2 ≤ st) && decide (st ≤ 4)

/-- Whether a state is parked, for a tool or for memory. -/
def slotParked (st : Nat) : Bool := st = 5 || st = 6

/-- Set a slot's state. -/
def State.setSlotState (s : State) (slot st : Nat) : Unit_ State := do
  let (s, d) ← s.slotDw slot 0
  s.setSlotDw slot 0 (setFld d 0 4 st)

/-- Take a slot out of the admission order. -/
def State.leaveOrder (s : State) (slot : Nat) : State :=
  { s with carillon := { s.carillon with admitted := s.carillon.admitted.filter (· ≠ slot) } }

/-- Send a slot to error with a code (R415, R416): its state, and the KIND 2 record of R228. -/
def State.slotError (s : State) (slot code : Nat) : Unit_ State := do
  let (s, d) ← s.slotDw slot 0
  let s ← s.setSlotDw slot 0 (setFld (setFld d 0 4 slotInError) 16 16 code)
  return (s.emit 0 (record2 (s.slotVa slot 0) slot 0 2 code s.now 0x61 0 s.carAsid 643)).leaveOrder slot

/-- The slot-error fate of RNGSET and BTST (R393, R395): a slot in state free does not enter error (R416). -/
def State.slotFault (s : State) (slot code : Nat) : Unit_ State := do
  let (s, d) ← s.slotDw slot 0
  if fld d 0 4 = slotFree then return s else s.slotError slot code

/-- Whether a temperature is in an error class (R279). -/
def tempBad (t : Nat) : Bool :=
  let e := t / 2 ^ 23 % 256
  let neg := t.testBit 31
  (e = 255 && (neg || t % 2 ^ 23 != 0)) || (decide (0 < e) && decide (e < 255) && neg)

/-- Whether a top-p is a NaN, or negative and not -0 (R415). -/
def topPBad (t : Nat) : Bool :=
  (t / 2 ^ 23 % 256 = 255 && t % 2 ^ 23 != 0) || (t.testBit 31 && t % 2 ^ 31 != 0)

/-! ### Requests (R221, R397) -/

/-- Change what Carillon has been asked. -/
def State.setReqs (s : State) (rs : List (Nat × Nat)) : State := { s with carillon := { s.carillon with reqs := rs } }

/-- Whether a park of a slot is pending. -/
def State.parkPending (s : State) (slot : Nat) : Bool := s.carillon.reqs.any fun r => r.2 = slot && decide (r.1 ≤ 1)

/-- Note a park (R397): kind 0 for a tool, 1 for memory. -/
def State.requestPark (s : State) (slot kind : Nat) : State := s.setReqs (s.carillon.reqs ++ [(kind, slot)])

/-- Clear NPEND: a wake does so (R428). -/
def State.clearNpend (s : State) (slot : Nat) : Unit_ State := do
  let (s, d) ← s.slotDw slot 12
  s.setSlotDw slot 12 (setFld d 32 1 0)

/-- A trigger of a boundary (R218, R471): a request, a wake or a slot command. -/
def State.triggerFrame (s : State) : State :=
  { s with carillon := { s.carillon with trigger := true, again := s.carillon.again || s.carillon.faultStep != 0 } }

/-- A wake of a slot (R221): it cancels a park that is pending, and takes effect at the boundary (R416; log 39). -/
def State.requestWake (s : State) (slot : Nat) : State :=
  let rest := s.carillon.reqs.filter fun r => !(r.2 = slot && decide (r.1 ≤ 1))
  (s.setReqs (if rest.contains (2, slot) then rest else rest ++ [(2, slot)])).triggerFrame

/-! ### Generators (R276, R277) -/

/-- The draws of n steps of a generator with increment c, in order, and the state after them (R276). -/
def lcgDraws (c st : BitVec 128) : Nat → List Word × BitVec 128
  | 0 => ([], st)
  | n + 1 =>
    let st' := lcgNext c st
    let r := lcgDraws c st' n
    ((lcgOut st').extractLsb' 0 32 :: r.1, r.2)

/-- A 128-bit value of a slot's generator: 0 the state, 1 the increment, 2 the checkpoint. -/
def State.slotRng (s : State) (slot k : Nat) : Unit_ (State × BitVec 128) := do
  let (s, v) ← s.ofEntry slot (s.vread s.carAsid (s.slotVa slot (14 + 2 * k)) 16)
  return (s, BitVec.ofNat 128 v)

/-- Write a 128-bit value of a slot's generator. -/
def State.setSlotRng (s : State) (slot k : Nat) (v : BitVec 128) : Unit_ State :=
  s.ofEntry slot (s.vwrite s.carAsid (s.slotVa slot (14 + 2 * k)) 16 v.toNat)

/-! ### Emission (R418) -/

/-- Whether a token is one of n at an address. -/
def State.isStop (s : State) (va : BitVec 64) (tok : Nat) : Nat → Unit_ (State × Bool)
  | 0 => .ok (s, false)
  | n + 1 => do
    let (s, v) ← s.vread s.carAsid va 4
    let (s, b) ← State.isStop s (va + 4) tok n
    return (s, v = tok || b)

/-- What SEQEMIT emits by: the address that receives the token, the stop set and its number of tokens (R411). -/
structure Emission where
  out : BitVec 64
  stops : BitVec 64
  nstop : Nat
  deriving DecidableEq, Repr

/-- The first part of SEQEMIT's action for a slot (R418): the tests before the store of the token; none where nothing is
emitted. -/
def State.emitTests (s : State) (slot tok : Nat) : Unit_ (State × Option Emission) := do
  let (s, d0) ← s.slotDw slot 0
  if !slotRuns (fld d0 0 4) then return (s, none)
  let (s, d6) ← s.slotDw slot 6
  if fld d6 32 32 ≤ tok then
    let s ← s.slotError slot (if tok = 0xFFFFFFFE then 8 else 7)
    return (s, none)
  let (s, d5) ← s.slotDw slot 5
  if tempBad (fld d5 0 32) then
    let s ← s.slotError slot 4
    return (s, none)
  else if topPBad (fld d5 32 32) then
    let s ← s.slotError slot 5
    return (s, none)
  else
    let (s, d4) ← s.slotDw slot 4
    let (s, d7) ← s.slotDw slot 7
    let (s, d8) ← s.slotDw slot 8
    let (s, d11) ← s.slotDw slot 11
    return (s, some ⟨d11 + BitVec.ofNat 64 (4 * fld d4 0 32), d7, fld d8 0 11⟩)

/-- The last part of SEQEMIT's action (R418), after the store of the token and the look at the stop set: the count, the
last token, the state, and the code that S(d) receives. -/
def State.emitEnd (s : State) (slot tok : Nat) (stop : Bool) : Unit_ (State × Nat) := do
  let (s, d2) ← s.slotDw slot 2
  let (s, d3) ← s.slotDw slot 3
  let (s, d4) ← s.slotDw slot 4
  let n := fld d4 0 32
  let s ← s.setSlotDw slot 4 (BitVec.ofNat 64 ((n + 1) % 2 ^ 32 + tok * 2 ^ 32))
  let full := decide (fld d3 0 32 ≤ fld d2 0 32 + n + 1) || decide (fld d3 32 32 ≤ n + 1)
  if stop then
    let s ← s.setSlotState slot slotDone
    return (s, 1)
  else if full then
    let s ← s.setSlotState slot slotDone
    return (s, 2)
  else return (s, 0)

end Sys2Proof.Machine
end

