-- ==== Sys2Proof/Machine/Batch.lean ====
section
/-!
DEFINITION. The sequence generators and the batch table: majors 0x30 and 0x31 (R373, R374, R392 to R399).  Their slots'
entries are read and written at issue, as one action each (R394); a translation fate there is precise (R413).
-/
namespace Sys2Proof.Machine

/-! ### Slots as operands -/

/-- The limits of a slot operand (R373): Carillon enabled, its context, and a slot in use in S(a)[12:0], nothing above bit
`used`; values, `more` among them, are judged once all the operands in `ops` are full (R339). -/
def slotBad (used a : Nat) (ops : List Nat) (more : Bool) (s : State) (g : Group) : Bool :=
  let e := g.sel a
  !(s.reg 0x4000).getLsbD 0 || g.asid != s.carAsid ||
    (e.full && (ops.all fun k => (g.sel k).full) &&
      (more || (!e.pois && (decide (fld (s.reg 0x4000) 27 14 ≤ fld e.val 0 13) || decide (2 ^ used ≤ e.val.toNat)))))

/-- The limits of an instruction whose S(a) is a slot alone and whose only operand it is. -/
def slotLimit (r : RRR) (s : State) (g : Group) : Bool := slotBad 13 r.a.toNat [] false s g

/-- The slot that S(a) names. -/
def Group.slotOf (g : Group) (r : RRR) : Nat := fld (g.sv r.a.toNat) 0 13

/-- A result that reaches its destination late (R192): the elements are empty until it arrives. -/
def State.late (s : State) (g : Group) (o : MemOp) : State × Group :=
  let n := s.newId
  ({ n.1 with memops := Tab.put n.1.memops n.2 o }, g.markDst o false)

/-- A result on its way. -/
def Group.lateOp (g : Group) (x : Pfx) (dst : DstKind) (d nreg : Nat) (lanes : List LaneAcc) : MemOp :=
  { g.newOp x 0 .result (if dst = .s then 8 else 6) 16 with
    dstKind := dst, dst := d, nreg := nreg, mask := maskOf (lanes.map LaneAcc.lane), lanes := lanes }

/-- An element on its way. -/
def lateEl (lane v : Nat) (pz : Bool) : LaneAcc := { laneReq lane 0 v 0 with at_ := .placed 0, pois := pz }

/-! ### Sequence generators (R392, R393) -/

/-- RNGDRAW (R276, R392): one draw for each active lane, in ascending order; S(d) fills late as N32. -/
def execRngdraw (x : Pfx) (r : RRR) (s : State) : Host.Outcome State Fault Refusal :=
  issueS (.rngdraw x r) (slotLimit r) (fun s g => do
    let act := g.active x
    gate g x true [(.s r.a.toNat 1, r.wa)] [.v r.d.toNat 1 act]
    need (!g.spois r.a.toNat 1) (poisonUse 1 act)
    need (s.acquired g.core g.slot) .wait
    let ls := lanesOf g.width act
    if ls.isEmpty then return (s, g)
    else
      let slot := g.slotOf r
      let (s, st) ← unitRun (s.slotRng slot 0)
      let (s, c) ← unitRun (s.slotRng slot 1)
      let q := lcgDraws c st ls.length
      let s ← unitRun (s.setSlotRng slot 0 q.2)
      return s.late g (g.lateOp x .v (g.vreg r.d.toNat) 1
        ((ls.zip q.1).map fun e => lateEl e.1 e.2.toNat false))) s

/-- RNGJUMP (R277, R392). -/
def execRngjump (x : Pfx) (r : RRR) (s : State) : Host.Outcome State Fault Refusal :=
  issueS (.rngjump x r) (slotBad 13 r.a.toNat [r.b.toNat] false) (fun s g => do
    gate g x false [(.s r.a.toNat 1, r.wa), (.s r.b.toNat 1, r.wb)] []
    need (!g.spois r.a.toNat 1) (poisonUse 1 0)
    need (!g.spois r.b.toNat 1) (poisonUse 3 0)
    need (s.acquired g.core g.slot) .wait
    let slot := g.slotOf r
    let (s, st) ← unitRun (s.slotRng slot 0)
    let (s, c) ← unitRun (s.slotRng slot 1)
    let s ← unitRun (s.setSlotRng slot 0 (lcgJump c ((g.sv r.b.toNat).zeroExtend 128) st))
    return (s, g)) s

/-- RNGGET (R392): a pair that fills late; poison of the entry moves with the value. -/
def execRngget (x : Pfx) (r : RRR) (s : State) : Host.Outcome State Fault Refusal :=
  issueS (.rngget x r) (slotLimit r) (fun s g => do
    let d := r.d.toNat
    gate g x false [(.s r.a.toNat 1, r.wa)] [.s d 2]
    need (!g.spois r.a.toNat 1) (poisonUse 1 0)
    need (s.acquired g.core g.slot) .wait
    let (s, k) ← unitRun (s.slotPlace (g.slotOf r) 0)
    let k := k + 112 + 16 * r.b.toNat
    return s.late g (g.lateOp x .s d 2 [lateEl 0 (s.readLE k 16) (s.isPoisoned k 16)])) s

/-- RNGSET (R393): an even increment is a slot error and is not written. -/
def execRngset (x : Pfx) (r : RRR) (s : State) : Host.Outcome State Fault Refusal :=
  issueS (.rngset x r) (slotBad 13 r.a.toNat (if r.b.toNat ≤ 2 then [r.d.toNat, r.d.toNat + 1] else []) false) (fun s g => do
    let d := r.d.toNat
    let sel := r.b.toNat
    gate g x false ([(.s r.a.toNat 1, r.wa)] ++ if sel ≤ 2 then [(.s d 2, false)] else []) []
    need (!g.spois r.a.toNat 1) (poisonUse 1 0)
    need (decide (2 < sel) || !g.spois d 2) (poisonUse 2 0)
    need (s.acquired g.core g.slot) .wait
    let slot := g.slotOf r
    let v : BitVec 128 := g.sv (d + 1) ++ g.sv d
    match sel with
    | 1 =>
      let s ← unitRun (if v.getLsbD 0 then s.setSlotRng slot 1 v else s.slotFault slot 3)
      return (s, g)
    | 3 =>
      let (s, st) ← unitRun (s.slotRng slot 0)
      let s ← unitRun (s.setSlotRng slot 2 st)
      return (s, g)
    | 4 =>
      let (s, st) ← unitRun (s.slotRng slot 2)
      let s ← unitRun (s.setSlotRng slot 0 st)
      return (s, g)
    | k =>
      let s ← unitRun (s.setSlotRng slot k v)
      return (s, g)) s

/-- The F32 value of a draw, d[31:8] × 2^-24 (R278). -/
def drawF32 (w : Word) : Word :=
  let m := w.toNat / 256
  if m = 0 then 0 else BitVec.ofNat 32 ((Nat.log2 m + 103) * 2 ^ 23 + (m * 2 ^ (23 - Nat.log2 m) - 2 ^ 23))

/-- RNGFLT (R278, R392): poison moves with the element. -/
def execRngflt (x : Pfx) (r : RRR) (s : State) : Host.Outcome State Fault Refusal :=
  issueG (.rngflt x r) (fun g => do
    let act := g.active x
    gate g x true [(.v r.a.toNat 1 act, r.wa)] [.v r.d.toNat 1 act]
    return g.eachLane act fun h l => h.writeV r.d.toNat l (drawF32 (g.vel r.a.toNat l).val) (g.vel r.a.toNat l).pois) s

/-! ### Batch table and sequences (R395 to R399) -/

/-- The parts that every form of major 0x31 begins with: its gate, the poison of its slot, and the implicit release at K
(R396). -/
def slotGate (g : Group) (x : Pfx) (r : RRR) (s : State) (srcs : List (Opd × Bool)) (dsts : List Opd) (use : Run Unit) :
    Run Unit := do
  gate g x false ([(.s r.a.toNat 1, r.wa)] ++ srcs) dsts
  need (!g.spois r.a.toNat 1) (poisonUse 1 0)
  use
  need (s.quiet g.core g.slot) .wait

/-- The limits of BTLD: the slot, and an address that is a multiple of 8 (R395). -/
def btLimit (r : RRR) (s : State) (g : Group) : Bool :=
  let e := g.sel r.b.toNat
  slotBad 13 r.a.toNat [r.b.toNat] (!e.pois && decide (e.val.toNat % 8 ≠ 0)) s g

/-- BTLD (R395): the entry to memory as one store of the group, which acts as an acquire at K once it is performed
(R396), and with which S(d) fills; its poison moves with it. -/
def execBtld (x : Pfx) (r : RRR) (s : State) : Host.Outcome State Fault Refusal :=
  issueS (.btld x r) (btLimit r) (fun s g => do
    let b := r.b.toNat
    slotGate g x r s [(.s b 1, r.wb)] [.s r.d.toNat 1] (need (!g.spois b 1) (poisonUse 1 0))
    let (s, k) ← unitRun (s.slotPlace (g.slotOf r) 0)
    let n := if (g.sv b).toNat % 16 = 0 then 16 else 8
    let o := g.newOp x ((Instr.btld x r).code.map Code.word |>.getD 0) .store 8 n
    s.access g { o with
      order := 1, scope := 4, mask := 1, per := 32, dstKind := .s, dst := r.d.toNat
      lanes := (List.range (256 / n)).map fun j =>
        { laneReq j (g.sv b + BitVec.ofNat 64 (n * j)) (s.readLE (k + n * j) n) 0 with pois := s.isPoisoned (k + n * j) n } } true) s

/-- The dwords that only Carillon writes (R412). -/
def carillonDwords : Nat := 0x3015

/-- The limits of BTST (R395). -/
def btstLimit (r : RRR) (s : State) (g : Group) : Bool :=
  let e := g.sel r.d.toNat
  let b := g.sel r.b.toNat
  slotBad 13 r.a.toNat [r.b.toNat, r.d.toNat] ((!b.pois && decide (b.val.toNat % 8 ≠ 0)) ||
    (!e.pois && (decide (2 ^ 32 ≤ e.val.toNat) || e.val &&& BitVec.ofNat 64 carillonDwords ≠ 0))) s g

/-- The read of its buffer that a group's BTST has begun. -/
def State.pulled (s : State) (core slot : Nat) : Option (Nat × MemOp) :=
  s.memops.find? fun e => e.2.engine = some (2, gkey core slot)

/-- The action of BTST (R395): the dwords of a mask of the buffer into the entry; a poisoned one is a poison use, and an
even increment a slot error. -/
def State.storeEntry (s : State) (slot : Nat) (m : BitVec 64) (o : MemOp) : Run State := do
  let ks := (List.range 32).filter fun k => m.getLsbD k
  let el (k : Nat) : LaneAcc := o.lanes.getD k (laneReq 0 0 0 0)
  need (ks.all fun k => !(el k).pois) (poisonUse 2 0)
  let (s, p) ← unitRun (s.slotPlace slot 1)
  let inc := if m.getLsbD 16 then (el 16).data.toNat else s.readLE (p + 128) 8
  if (m.getLsbD 16 || m.getLsbD 17) && inc % 2 = 0 then unitRun (s.slotFault slot 3)
  else return s.putUnits 8 (ks.map fun k => (p + 8 * k, (el k).data.toNat % 2 ^ 64, false))

/-- The part of BTST at issue: it waits for its buffer. -/
def btstBody (x : Pfx) (r : RRR) (s : State) (g : Group) : Run (State × Group) := do
  let (b, d) := (r.b.toNat, r.d.toNat)
  slotGate g x r s [(.s b 1, r.wb), (.s d 1, false)] [] (do
    need (!g.spois b 1) (poisonUse 1 0)
    need (!g.spois d 1) (poisonUse 3 0))
  match s.pulled g.core g.slot with
  | some (k, o) =>
    need o.isDone .wait
    let s ← ({ s with memops := Tab.drop s.memops k } : State).storeEntry (g.slotOf r) (g.sv d) o
    return (s.l1Drop g.core, g)
  | none => hold

/-- The read of the buffer of a group that waits in BTST, with the checks and fates of its own access (R395); a stop drops
what was read, so that a reissue reads it again (R232). -/
def State.pullBuffer (s : State) (x : Pfx) (r : RRR) (core slot : Nat) : State :=
  match s.group core slot with
  | some g =>
    if g.stop.isSome then { s with memops := s.memops.filter fun e => e.2.engine != some (2, gkey core slot) }
    else if g.waiting && !g.onEmpty && g.canIssue && s.quiet core slot && (s.pulled core slot).isNone then
      let w := (Instr.btst x r).code.map Code.word |>.getD 0
      let o := g.newOp x w .engine 8 8
      match s.access g { o with
          mask := 1, per := 32, engine := some (2, gkey core slot)
          lanes := (List.range 32).map fun j => laneReq j (g.sv r.b.toNat + BitVec.ofNat 64 (8 * j)) 0 0 } true with
      | .ok q => q.1.setGroup q.2
      | .error h => s.settle g w h
    else s
  | none => s

/-- BTST (R395). -/
def execBtst (x : Pfx) (r : RRR) (s : State) : Host.Outcome State Fault Refusal :=
  match issueS (.btst x r) (btstLimit r) (btstBody x r) s, s.cur with
  | .next t, some (c, k) => .next (t.pullBuffer x r c k)
  | o, _ => o

/-- SEQPARK (R397): a request for the next boundary. -/
def execSeqpark (x : Pfx) (r : RRR) (s : State) : Host.Outcome State Fault Refusal :=
  issueS (.seqpark x r) (slotLimit r) (fun s g => do
    slotGate g x r s [] [] (.ok ())
    let (s, _) ← unitRun (s.slotPlace (g.slotOf r) 0)
    return ((s.requestPark (g.slotOf r) (r.b.toNat % 2)).l1Drop g.core, g)) s

/-- SEQWAKE (R221, R397). -/
def execSeqwake (x : Pfx) (r : RRR) (s : State) : Host.Outcome State Fault Refusal :=
  issueS (.seqwake x r) (slotLimit r) (fun s g => do
    slotGate g x r s [] [] (.ok ())
    let (s, _) ← unitRun (s.slotPlace (g.slotOf r) 0)
    return ((s.requestWake (g.slotOf r)).l1Drop g.core, g)) s

/-- SEQDONE (R397): done at once, unless the slot is free or in error. -/
def execSeqdone (x : Pfx) (r : RRR) (s : State) : Host.Outcome State Fault Refusal :=
  issueS (.seqdone x r) (slotLimit r) (fun s g => do
    slotGate g x r s [] [] (.ok ())
    let slot := g.slotOf r
    let (s, d) ← unitRun (s.slotDw slot 0)
    let st := fld d 0 4
    let s ← unitRun (if st = slotFree ∨ st = slotInError then .ok s else s.setSlotState slot slotDone)
    return (s.l1Drop g.core, g)) s

/-- The limits of SEQEMIT: the slot, and S(b)[63:32] zero (R398). -/
def emitLimit (r : RRR) (s : State) (g : Group) : Bool :=
  slotBad 13 r.a.toNat [r.b.toNat] (g.over r.b.toNat (2 ^ 32)) s g

/-- The store of the emitted token (R418), a release at F: into the package's memory at once, through a window as a store
of the group (R17, R160). -/
def State.emitStore (s : State) (g : Group) (x : Pfx) (r : RRR) (e : Emission) (tok : Nat) : Run (State × Group) :=
  if isFabric e.out then
    let o := g.newOp x ((Instr.seqemit x r).code.map Code.word |>.getD 0) .store 6 4
    s.access g { o with space := 0, order := 2, scope := 5, mask := 1, lanes := [laneReq 0 e.out tok 0] } true
  else do
    let s ← unitRun (s.vwrite s.carAsid e.out 4 tok)
    return (s, g)

/-- The addresses of a stop set. -/
def Emission.stopAddrs (e : Emission) : List (BitVec 64) := (List.range e.nstop).map fun j => e.stops + BitVec.ofNat 64 (4 * j)

/-- Whether an emitted token is in the stop set, once it is stored (R418): a set behind a window is what the read of the
waiting group brought, but that the token itself stands where it was stored. -/
def State.emitStops (s : State) (g : Group) (e : Emission) (tok : Nat) : Run (State × Bool) :=
  if isFabric e.stops && decide (0 < e.nstop) then
    match s.pulled g.core g.slot with
    | some (k, o) => do
      need (o.isDone && o.lanes.map LaneAcc.addr = e.stopAddrs) .wait
      let ls := o.lanes.filter fun l => l.addr ≠ e.out
      need (ls.all fun l => !l.pois) (poisonUse 3 0)
      return ({ s with memops := Tab.drop s.memops k }, ls.length ≠ o.lanes.length || ls.any fun l => l.data.toNat % 2 ^ 32 = tok)
    | none => hold
  else unitRun (s.isStop e.stops tok e.nstop)

/-- SEQEMIT's action (R398, R418): the code that S(d) receives. -/
def State.emitToken (s : State) (g : Group) (x : Pfx) (r : RRR) (slot tok : Nat) : Run (State × Group × Nat) := do
  let (s, e) ← unitRun (s.emitTests slot tok)
  match e with
  | none => return (s, g, 3)
  | some e =>
    let (s, g) ← s.emitStore g x r e tok
    let (s, stop) ← s.emitStops g e tok
    let (s, v) ← unitRun (s.emitEnd slot tok stop)
    return (s, g, v)

/-- The read of a stop set behind a window for a group that waits in SEQEMIT, after the checks of the token's own store
(R418); it is made again where the entry has changed meanwhile, and a stop drops what was read (R232). -/
def State.pullStops (s : State) (x : Pfx) (r : RRR) (core slot : Nat) : State :=
  match s.group core slot with
  | some g =>
    let drop := { s with memops := s.memops.filter fun e => e.2.engine != some (2, gkey core slot) }
    if g.stop.isSome then drop
    else if g.waiting && !g.onEmpty && g.canIssue && s.quiet core slot then
      match s.emitTests (g.slotOf r) (fld (g.sv r.b.toNat) 0 32) with
      | .ok (_, some e) =>
        if !(isFabric e.stops && decide (0 < e.nstop)) then drop
        else if (s.pulled core slot).any fun q => !q.2.isDone || q.2.lanes.map LaneAcc.addr = e.stopAddrs then s
        else
          let w := (Instr.seqemit x r).code.map Code.word |>.getD 0
          let o := g.newOp x w .engine 6 4
          let q := do
            let _ ← drop.emitStore g x r e (fld (g.sv r.b.toNat) 0 32)
            drop.access g { o with
              space := 0, mask := 1, per := 1024, engine := some (2, gkey core slot)
              lanes := ((List.range e.nstop).zip e.stopAddrs).map fun (a : Nat × BitVec 64) => laneReq a.1 a.2 0 0 } true
          match q with
          | .ok q => q.1.setGroup q.2
          | .error h => drop.settle g w h
      | _ => drop
    else s
  | none => s

/-- SEQEMIT (R398, R418). -/
def execSeqemit (x : Pfx) (r : RRR) (s : State) : Host.Outcome State Fault Refusal :=
  match issueS (.seqemit x r) (emitLimit r) (fun s g => do
    let b := r.b.toNat
    slotGate g x r s [(.s b 1, r.wb)] [.s r.d.toNat 1] (need (!g.spois b 1) (poisonUse 2 0))
    let (s, g, v) ← s.emitToken g x r (g.slotOf r) (fld (g.sv b) 0 32)
    return (s.l1Drop g.core, g.writeS r.d.toNat (BitVec.ofNat 64 v) false)) s, s.cur with
  | .next t, some (c, k) => .next (t.pullStops x r c k)
  | o, _ => o

/-- The limits of MASKLD: the slot and node in S(a)[19:0], and S(b)[63:32] zero (R399). -/
def maskLimit (r : RRR) (s : State) (g : Group) : Bool :=
  slotBad 20 r.a.toNat [r.b.toNat] (g.over r.b.toNat (2 ^ 32)) s g

/-- The mask bits of tokens from a base, for n lanes (R399, R420). -/
def State.maskBits (s : State) (va : BitVec 64) (vocab base : Nat) : Nat → Unit_ (State × Nat)
  | 0 => .ok (s, 0)
  | n + 1 => do
    let (s, m) ← State.maskBits s va vocab base n
    let t := base + n
    if vocab ≤ t then return (s, m)
    else
      let (s, v) ← s.vread s.carAsid (va + BitVec.ofNat 64 (t / 8)) 1
      return (s, if v.testBit (t % 8) then m + 2 ^ n else m)

/-- The bits of a slot's grammar mask for a node (R399, R420): none where the mask is missing. -/
def State.grammarMask (s : State) (slot node : Nat) (beyond : Bool) (base n : Nat) : Unit_ (State × Option Nat) := do
  let (s, mt) ← s.slotDw slot 9
  if mt = 0 then return (s, some (2 ^ n - 1))
  else
    let (s, d6) ← s.slotDw slot 6
    let (s, d8) ← s.slotDw slot 8
    let vocab := fld d6 32 32
    let (s, h) ← s.vread s.carAsid mt 64
    if h / 2 ^ 128 ≠ 0 then s.unitIllegal
    let present := h / 2 ^ (if beyond then 64 else 0) % 2 ^ 64
    if max (fld d8 16 7) 1 ≤ node ∨ !present.testBit node then return (s, none)
    else
      let mb := (vocab + 511) / 512 * 64
      let (s, m) ← s.maskBits (mt + BitVec.ofNat 64 (64 + mb * (node + if beyond then 64 else 0))) vocab base n
      return (s, some m)

/-- MASKLD (R399).  DEDUCED (log 66): p14 receives its status with no lane active too, as under ?!p0. -/
def execMaskld (x : Pfx) (r : RRR) (s : State) : Host.Outcome State Fault Refusal :=
  issueS (.maskld x r) (maskLimit r) (fun s g => do
    let b := r.b.toNat
    let d := r.d.toNat
    slotGate g x r s [(.s b 1, r.wb)] [.p d, .p 14] (need (!g.spois b 1) (poisonUse 3 0))
    let a := g.sv r.a.toNat
    let (s, m) ← unitRun (s.grammarMask (g.slotOf r) (fld a 13 6) (a.getLsbD 19) (fld (g.sv b) 0 32) g.width)
    let g := g.writeP d (g.active x) (BitVec.ofNat 64 (m.getD 0))
    return (s.l1Drop g.core, g.writeP 14 g.allLanes (if m.isSome then g.allLanes else 0))) s

/-- SEQSTAT (R395): the state, the error code and the length copy; poison of the entry moves with them. -/
def execSeqstat (x : Pfx) (r : RRR) (s : State) : Host.Outcome State Fault Refusal :=
  issueS (.seqstat x r) (slotLimit r) (fun s g => do
    slotGate g x r s [] [.s r.d.toNat 1] (.ok ())
    let (s, k) ← unitRun (s.slotPlace (g.slotOf r) 0)
    let d := s.read64 k
    return (s.l1Drop g.core, g.writeS r.d.toNat
      (BitVec.ofNat 64 (fld d 0 4 + fld d 16 16 * 2 ^ 16 + fld d 32 32 * 2 ^ 32)) (s.isPoisoned k 8))) s

end Sys2Proof.Machine
end

