-- ==== Sys2Proof/Machine/Bitmap.lean ====
section
/-!
DEFINITION. Routing bitmaps: major 0x33 (R401 to R403).
-/
namespace Sys2Proof.Machine

/-- The bits of the bitmap that a selector names. -/
def bitmapBits (r : RRR) : Nat := 1024 * 2 ^ (r.b.toNat % 4)

/-- The address fate of a bitmap that is not at a multiple of 64 (R401). -/
def bitmapAligned (g : Group) (r : RRR) (mask : BitVec 64) (access : Nat) : Run Unit :=
  need (decide ((g.sv r.a.toNat).toNat % 64 = 0)) (.fateAt 0x10 (g.sv r.a.toNat) mask access)

/-- The read of a whole bitmap, word i as lane entry i (R402). -/
def bitmapRead (i : Instr) (x : Pfx) (r : RRR) (fn : Nat) (dst : DstKind) (d : Nat) (mask : BitVec 64) (s : State) (g : Group) :
    Run (State × Group) := do
  bitmapAligned g r mask 0
  let o := g.newOp x (i.code.map Code.word |>.getD 0) .bitmap 6 4
  s.access g { o with
    aop := fn, dstKind := dst, dst := d, mask := mask, per := 4
    lanes := (List.range (bitmapBits r / 32)).map fun j => laneReq j (g.sv r.a.toNat + BitVec.ofNat 64 (4 * j)) 0 0 } (dst = .s)

/-- The body of BRANK and BSEL: no active lane, nothing happens. -/
def bitmapLanes (i : Instr) (x : Pfx) (r : RRR) (fn : Nat) (s : State) (g : Group) : Run (State × Group) := do
  let act := g.active x
  let d := r.d.toNat
  gate g x true [(.s r.a.toNat 1, r.wa), (.v d 1 act, false)] [.v d 1 act]
  need (!g.spois r.a.toNat 1) (poisonUse 1 act)
  if act = 0 then return (s, g) else bitmapRead i x r fn .v (g.vreg d) act s g

/-- BRANK (R401, R402). -/
def execBrank (x : Pfx) (r : RRR) (s : State) : Host.Outcome State Fault Refusal :=
  issueS (.brank x r) noLimit (bitmapLanes (.brank x r) x r 0) s

/-- BSEL (R401, R402). -/
def execBsel (x : Pfx) (r : RRR) (s : State) : Host.Outcome State Fault Refusal :=
  issueS (.bsel x r) noLimit (bitmapLanes (.bsel x r) x r 1) s

/-- BCNT (R401, R402). -/
def execBcnt (x : Pfx) (r : RRR) (s : State) : Host.Outcome State Fault Refusal :=
  issueS (.bcnt x r) noLimit (fun s g => do
    gate g x false [(.s r.a.toNat 1, r.wa)] [.s r.d.toNat 1]
    need (!g.spois r.a.toNat 1) (poisonUse 1 0)
    bitmapRead (.bcnt x r) x r 4 .s r.d.toNat 0 s g) s

/-- The body of BSET and BCLR (R403): lanes at or past the bitmap's end read status 0 and are not performed. -/
def bitmapWrite (i : Instr) (x : Pfx) (r : RRR) (set : Bool) (s : State) (g : Group) : Run (State × Group) := do
  let act := g.taking x
  let d := r.d.toNat
  gate g x true [(.s r.a.toNat 1, r.wa), (.v d 1 act, false)] [.p 14]
  need (!g.spois r.a.toNat 1) (poisonUse 1 act)
  need (g.vpoisLanes d 1 act = 0) (poisonUse 1 (g.vpoisLanes d 1 act))
  if act = 0 then return (s, g)
  else
    bitmapAligned g r act 2
    let pos (l : Nat) : Nat := (g.vel d l).val.toNat
    let ins := (lanesOf g.width act).filter fun l => decide (pos l < bitmapBits r)
    let out := act &&& ~~~maskOf ins
    let o := g.newOp x (i.code.map Code.word |>.getD 0) .atomic 6 4
    s.access (g.writeP 14 out 0) { o with
      aop := if set then 4 else 3, mask := act, writesP := some 14
      lanes := ins.map fun l =>
        laneReq l (g.sv r.a.toNat + BitVec.ofNat 64 (4 * (pos l / 32)))
          (if set then 2 ^ (pos l % 32) else 2 ^ 32 - 1 - 2 ^ (pos l % 32)) 0 } false

/-- BSET (R403). -/
def execBset (x : Pfx) (r : RRR) (s : State) : Host.Outcome State Fault Refusal :=
  issueS (.bset x r) noLimit (bitmapWrite (.bset x r) x r true) s

/-- BCLR (R403). -/
def execBclr (x : Pfx) (r : RRR) (s : State) : Host.Outcome State Fault Refusal :=
  issueS (.bclr x r) noLimit (bitmapWrite (.bclr x r) x r false) s

end Sys2Proof.Machine
end

