-- ==== Sys2Proof/Machine/PageStore.lean ====
section
/-!
DEFINITION. The page-store unit: its actions (R107 to R112, R115 to R119) in arrival order (R105), the instructions of
major 0x32 (R400), and handoffs between modules.
-/
namespace Sys2Proof.Machine

/-! ### Actions -/

/-- Take a descriptor and an HBM4 frame for a page of a block table: the descriptor's index and what it is to hold
(R107, R109). -/
def State.takePage (s : State) (b : BTab) : Unit_ (State × Nat × PageDesc) := do
  let (s, i) ← s.popFree b.va
  let (s, f) ← s.popStack 0 b.va
  let p : PageDesc :=
    { v := true, tier := 0, cw := false, busy := false, pin := 0, ref := 1, lastg := s.stamp, frame := f % 2 ^ 36,
      die := f / 2 ^ 36 % 2, owner := b.owner, gen := (s.pd i).gen }
  return (s, i, p)

/-- Allocate n pages for the entries from e of a block table (R107), zeroed. -/
def State.appendPages (s : State) (b : BTab) (e : Nat) : Nat → Unit_ State
  | 0 => .ok s
  | n + 1 => do
    let (s, i, p) ← s.takePage b
    let s := (s.zeroRange p.place (2 ^ 16)).setPd i p
    let s ← s.vwrite b.asid (b.entryVa e) 8 (entryWord i p.gen)
    State.appendPages s b (e + 1) n

/-- Append (R107): the pages held after it. -/
def State.kvAppend (s : State) (b : BTab) (k : Nat) : Unit_ (State × Nat) := do
  let n := k * b.fmt.lg
  if b.cap < b.ntp + k then s.kvFate 0x32 b.va
  if fld (s.reg 0x5018) 27 27 < n ∨ s.stackCount 0 < n then s.kvFate 0x31 b.va
  let s ← s.appendPages b b.entries n
  let s ← s.writeCounts b b.length (b.ntp + k)
  return (s, b.ntp + k)

/-- Count one reference more to each page of a list, and name it in the same entry of a block table (R108). -/
def State.sharePages (s : State) (b : BTab) : List (Nat × Nat × PageDesc) → Unit_ State
  | [] => .ok s
  | (e, i, _) :: rest => do
    let p := s.pd i
    if p.ref = 65535 then s.kvFate 0x33 b.va
    let s ← (s.setPd i { p with ref := p.ref + 1, cw := true }).vwrite b.asid (b.entryVa e) 8 (entryWord i p.gen)
    State.sharePages s b rest

/-- Whether an entry of a list names a descriptor with REF = 65,535 (R108). -/
def State.refFull (s : State) (b : BTab) : List Nat → Unit_ (State × Bool)
  | [] => .ok (s, false)
  | e :: es => do
    let (s, w) ← s.vread b.asid (b.entryVa e) 8
    let i := w % 2 ^ 26
    if w / 2 ^ 63 = 1 ∧ i < s.pdN ∧ (s.pd i).ref = 65535 then return (s, true)
    else State.refFull s b es

/-- Share (R108): the token pages shared. -/
def State.kvShare (s : State) (a b : BTab) (l : Nat) : Unit_ (State × Nat) := do
  if b.ntp ≠ 0 ∨ a.length < l ∨ a.fmt.raw ≠ b.fmt.raw then s.kvFate 0x37 a.va
  let k := a.fmt.pagesFor l
  if b.cap < k then s.kvFate 0x32 a.va
  let (s, full) ← s.refFull a (List.range (k * a.fmt.lg))
  if full then s.kvFate 0x33 a.va
  let (s, ps) ← s.resolveAll a (List.range (k * a.fmt.lg))
  let s ← s.sharePages b ps
  let s ← s.writeCounts b l k
  return (s, k)

/-- Release the pages of a list of entries, in order (R110). -/
def State.releaseEntries (s : State) (b : BTab) : List Nat → Unit_ State
  | [] => .ok s
  | e :: es => do
    let (s, i, p) ← s.resolve b e
    let s ← s.releasePd i
    let s ← s.vwrite b.asid (b.entryVa e) 8 (entryWord i p.gen % 2 ^ 63)
    State.releaseEntries s b es

/-- Truncate (R110): the entries released. -/
def State.kvTruncate (s : State) (b : BTab) (l : Nat) : Unit_ (State × Nat) := do
  if b.length < l then s.kvFate 0x37 b.va
  let k := b.fmt.pagesFor l
  let es := ((List.range (b.entries - k * b.fmt.lg)).map (k * b.fmt.lg + ·)).reverse
  let s ← s.releaseEntries b es
  let s ← s.writeCounts b l k
  return (s, es.length)

/-- Copy-on-write of entry e, which names page i (R109): the descriptor that the entry names after it. -/
def State.copyOnWrite (s : State) (b : BTab) (e i : Nat) (core : Option Nat := none) : Unit_ (State × Nat) := do
  let old := s.pd i
  let (s, j, p) ← s.takePage b
  let p := { p with lastg := old.lastg }
  let s := (s.copyBlock p.place old.place (2 ^ 16)).setPd j p
  let s ← s.vwrite b.asid (b.entryVa e) 8 (entryWord j p.gen) core
  let s ← s.releasePd i
  return (s, j)

/-- The range of entries of KVCOW, KVPIN and KVUNPIN (R400). -/
def State.tableRange (s : State) (b : BTab) (w : BitVec 64) : Unit_ (List Nat) :=
  let e0 := fld w 0 32
  let n := fld w 32 32
  if n = 0 ∨ b.entries < e0 + n then s.kvFate 0x37 b.va else .ok ((List.range n).map (e0 + ·))

/-- Copy the shared pages of a list of entries (R109). -/
def State.cowEntries (s : State) (b : BTab) (n : Nat) : List Nat → Unit_ (State × Nat)
  | [] => .ok (s, n)
  | e :: es => do
    let (s, i, p) ← s.resolve b e
    if p.ref ≤ 1 then State.cowEntries s b n es
    else if p.busy then s.unitWait
    else
      let (s, _) ← s.copyOnWrite b e i
      State.cowEntries s b (n + 1) es

/-- Change the pin count of the pages of a list (R112). -/
def State.pinPages (s : State) (b : BTab) (up : Bool) : List (Nat × Nat × PageDesc) → Unit_ State
  | [] => .ok s
  | (_, i, _) :: rest =>
    let p := s.pd i
    if up && p.pin = 255 then s.kvFate 0x33 b.va
    else if !up && p.pin = 0 then s.kvFate 0x34 b.va
    else State.pinPages (s.setPd i { p with pin := if up then p.pin + 1 else p.pin - 1 }) b up rest

/-- Pin and unpin (R112): the entries changed, once no page of a pin is evicted or being moved. -/
def State.kvPin (s : State) (b : BTab) (w : BitVec 64) (up : Bool) : Unit_ (State × Option Nat) := do
  let es ← s.tableRange b w
  let (s, ps) ← s.resolveAll b es
  let t ← s.pinPages b up ps
  if up then
    let (s, ready) ← s.bringAll b.va (ps.map fun p => p.2.1)
    return if ready then (t, some es.length) else (s, none)
  else return (t, some es.length)

/-- Read an entry (R400): REF, PIN and CW, or TIER, DIE and BUSY. -/
def State.kvRead (s : State) (b : BTab) (e : Nat) (where_ : Bool) : Unit_ (State × Nat) := do
  if b.entries ≤ e then s.kvFate 0x37 b.va
  let (s, _, p) ← s.resolve b e
  return (s, if where_ then p.tier + p.die * 2 + (if p.busy then 4 else 0)
    else p.ref + p.pin * 2 ^ 16 + (if p.cw then 2 ^ 24 else 0))

/-- What a page-store instruction does at the unit (R106, R400): its result, or nothing yet. -/
def State.kvPerform (s : State) (q : PsOp) : Unit_ (State × Option Nat) := do
  let w := q.a.getD 2 0
  let n := fld w 0 32
  let (s, b) ← s.readTable q.asid (q.a.getD 0 0)
  match q.kind with
  | 0 => do let r ← s.kvAppend b n; return (r.1, some r.2)
  | 1 => do let r ← s.kvTruncate b n; return (r.1, some r.2)
  | 2 => do
    let (s, c) ← s.readTable q.asid (q.a.getD 1 0)
    let r ← s.kvShare b c n
    return (r.1, some r.2)
  | 4 => do
    let es ← s.tableRange b w
    let r ← s.cowEntries b 0 es
    return (r.1, some r.2)
  | 5 => s.kvPin b w true
  | 6 => s.kvPin b w false
  | k => do let r ← s.kvRead b n (k = 7); return (r.1, some r.2)

/-! ### The instructions of major 0x32 (R400) -/

/-- The operation that a group waits for at the unit. -/
def State.psOf (s : State) (core slot : Nat) : Option (Nat × PsOp) :=
  s.psq.find? fun e => e.2.core = core && e.2.slot = slot && e.2.copy.isNone

/-- The limits of S(b), judged once the operands are full (R339, R373, R400). -/
def kvLimit (fn : Nat) (r : RRR) (_ : State) (g : Group) : Bool :=
  let e := g.sel r.b.toNat
  let v := e.val.toNat
  (Opd.s r.a.toNat (if fn = 2 then 2 else 1)).isFull g && e.full && !e.pois && match fn with
    | 0 => v = 0 || decide (65535 < v)
    | 4 | 5 | 6 => false
    | _ => decide (2 ^ 32 ≤ v)

/-- The part of a page-store instruction at issue (R149, R400): the implicit release at K, the wait until the unit has
performed it, its result to S(d), and the acquire at K. -/
def kvBody (fn : Nat) (x : Pfx) (r : RRR) (s : State) (g : Group) : Run (State × Group) := do
  let n := if fn = 2 then 2 else 1
  gate g x false [(.s r.a.toNat n, r.wa), (.s r.b.toNat 1, r.wb)] [.s r.d.toNat 1]
  need (!g.spois r.a.toNat n) (poisonUse 1 0)
  need (!g.spois r.b.toNat 1) (poisonUse 3 0)
  need (s.quiet g.core g.slot) .wait
  match s.psOf g.core g.slot with
  | some (k, q) =>
    need q.done .wait
    let s := ({ s with psq := Tab.drop s.psq k }.l1Drop g.core).trace g 1 3 g.pc g.seqNo (q.b.toNat % 2 ^ 32)
    return (s, g.writeS r.d.toNat q.b false)
  | none => hold

/-- The arrival of a page-store instruction at the unit, once its group waits there and its earlier accesses are
performed (R149): there the command begins for the trace (R446 TYPE 2). -/
def State.kvArrive (s : State) (fn : Nat) (w : Word) (r : RRR) (core slot : Nat) : State :=
  match s.group core slot with
  | some g =>
    if g.waiting && !g.onEmpty && g.canIssue && s.quiet core slot && (s.psOf core slot).isNone then
      let q : PsOp :=
        { kind := fn, core := core, slot := slot, asid := g.asid, copy := none, word := w, pc := g.pc, seq := g.seqNo,
          dst := r.d.toNat, a := [g.sv r.a.toNat, if fn = 2 then g.sv (r.a.toNat + 1) else 0, g.sv r.b.toNat], b := 0,
          done := false }
      (s.arrive q).trace g 1 2 g.pc g.seqNo (0x32 + fn * 64)
    else s
  | none => s

/-- Issue of a page-store instruction, with its arrival at the unit. -/
def kvIssue (i : Instr) (fn : Nat) (x : Pfx) (r : RRR) (s : State) : Host.Outcome State Fault Refusal :=
  match issueS i (kvLimit fn r) (kvBody fn x r) s, s.cur with
  | .next t, some (c, k) => .next (t.kvArrive fn ((i.code.map Code.word).getD 0) r c k)
  | o, _ => o

/-- KVALLOC (R107, R400). -/
def execKvalloc (x : Pfx) (r : RRR) (s : State) : Host.Outcome State Fault Refusal := kvIssue (.kvalloc x r) 0 x r s
/-- KVTRUNC (R110, R400). -/
def execKvtrunc (x : Pfx) (r : RRR) (s : State) : Host.Outcome State Fault Refusal := kvIssue (.kvtrunc x r) 1 x r s
/-- KVSHARE (R108, R400). -/
def execKvshare (x : Pfx) (r : RRR) (s : State) : Host.Outcome State Fault Refusal := kvIssue (.kvshare x r) 2 x r s
/-- KVREF (R400). -/
def execKvref (x : Pfx) (r : RRR) (s : State) : Host.Outcome State Fault Refusal := kvIssue (.kvref x r) 3 x r s
/-- KVCOW (R109, R400). -/
def execKvcow (x : Pfx) (r : RRR) (s : State) : Host.Outcome State Fault Refusal := kvIssue (.kvcow x r) 4 x r s
/-- KVPIN (R112, R400). -/
def execKvpin (x : Pfx) (r : RRR) (s : State) : Host.Outcome State Fault Refusal := kvIssue (.kvpin x r) 5 x r s
/-- KVUNPIN (R112, R400). -/
def execKvunpin (x : Pfx) (r : RRR) (s : State) : Host.Outcome State Fault Refusal := kvIssue (.kvunpin x r) 6 x r s
/-- KVWHERE (R400). -/
def execKvwhere (x : Pfx) (r : RRR) (s : State) : Host.Outcome State Fault Refusal := kvIssue (.kvwhere x r) 7 x r s

/-! ### Gathers, append writes and handoffs at the unit -/

/-- The checks of a gather or an append write against its table (R109, R115, R361; log 41). -/
def State.tokensOk (s : State) (c : CopyOp) (b : BTab) (limit : Nat) : Unit_ Unit :=
  if b.fmt.lg ≤ c.g ∨ b.fmt.nh < c.h0 + c.m ∨ c.n = 0 ∨ c.m = 0 ∨ c.bytes ≠ b.fmt.tile c.n c.m then s.kvFate 0x37 b.va
  else if limit < c.t0 + c.n then s.kvFate 0x35 b.va
  else .ok ()

/-- The entries of the token pages that an operation's tokens touch, ascending. -/
def CopyOp.entries (c : CopyOp) (f : PageFmt) : List Nat :=
  let p0 := c.t0 / f.tokens
  (List.range ((c.t0 + c.n - 1) / f.tokens + 1 - p0)).map fun j => (p0 + j) * f.lg + c.g

/-- Take a gather (R115): once its pages are in HBM4 they are marked as read, and the copy begins. -/
def State.takeGather (s : State) (id : Nat) (c : CopyOp) : Unit_ (State × Bool) := do
  let (s, b) ← s.readTable c.asid (c.r 0)
  s.tokensOk c b b.length
  let (s, ps) ← s.resolveAll b (c.entries b.fmt)
  let (s, ready) ← s.bringAll b.va (ps.map fun p => p.2.1)
  if !ready then return (s, false)
  else
    let s := ps.foldl (fun s p => s.setPd p.2.1 { s.pd p.2.1 with lastg := s.stamp }) s
    return ({ s with copies := Tab.put s.copies id { c with phase := 1, pages := (ps.map fun p => p.2.1), ctl := b.fmt.raw.extractLsb' 0 64 } },
      true)

/-- Write the tile's bytes for token page p into a page (R100, R109), with their poison (R236). -/
def State.scatWrite (s : State) (c : CopyOp) (t : Team) (f : PageFmt) (p i : Nat) : State :=
  let d := s.pd i
  let rows := (List.range (2 * c.m * c.n)).filter fun r => (c.t0 + r % c.n) / f.tokens = p
  rows.foldl (fun s r =>
    let q := tilePage f c.t0 c.n c.h0 c.m (r * f.row)
    (List.range (f.row / 16)).foldl (fun s j =>
      s.copyBlock (d.place + q.2 + 16 * j) (s.spacePlace c.core c.slot c.asid t 0 2 ((c.r 1).toNat + r * f.row + 16 * j)) 16) s) s

/-- One token page of an append write (R109), entry e: whether it is done, or must be waited for. -/
def State.scatPage (s : State) (c : CopyOp) (t : Team) (b : BTab) (e : Nat) : Unit_ (State × Bool) := do
  let (s, i, p) ← s.resolve b e
  if p.busy then return (s, false)
  else if 1 < p.ref then
    let (s, j) ← s.copyOnWrite b e i (some c.core)
    return (s.scatWrite c t b.fmt (e / b.fmt.lg) j, true)
  else if p.tier = 1 then return (← s.bringBack i b.va, false)
  else return (s.scatWrite c t b.fmt (e / b.fmt.lg) i, true)

/-- The page work of an append write over the entries that are left, in order (R109): the entries done, and the fate or
the wait at which it stands; before a fate the work for the earlier pages stays (R120). -/
def State.scatPages (s : State) (c : CopyOp) (t : Team) (b : BTab) (done : List Nat) :
    List Nat → State × List Nat × Option UnitFate
  | [] => (s, done, none)
  | e :: es =>
    match s.scatPage c t b e with
    | .error f => (s, done, some f)
    | .ok (s, true) => State.scatPages s c t b (done ++ [e]) es
    | .ok (s, false) => (s, done, none)

/-- Start to bring back the pages that an append write waits for (R109). -/
def State.scatWait (s : State) (b : BTab) (es : List Nat) : State :=
  es.foldl (fun s e =>
    match s.resolve b e with
    | .ok (t, i, p) => if p.busy ∨ p.tier = 0 ∨ 1 < p.ref then t else (match t.bringBack i b.va with | .ok u => u | .error _ => t)
    | .error _ => s) s

/-- Perform an append write (R109) from the page where a fate stopped it: the state, whether it is done, and its fate.  Its
page work takes effect as a whole (R121): while one of its pages is being moved, or must be brought back, none is done. -/
def State.scatter (s : State) (id : Nat) (c : CopyOp) (t : Team) : Unit_ (State × Bool × Option UnitFate) := do
  let (t0, b) ← s.readTable c.asid (c.r 0)
  t0.tokensOk c b (b.ntp * b.fmt.tokens)
  let es := c.entries b.fmt
  let left := es.drop c.pages.length
  let (u, done, f) := t0.scatPages c t b c.pages left
  let s := { u with copies := Tab.put u.copies id { c with pages := done } }
  match f with
  | some f => if f.isWait then .error f else return (s, false, some f)
  | none =>
    if done.length < es.length then return (t0.scatWait b left, false, none)
    else match s.writeCounts b (max b.length (c.t0 + c.n)) b.ntp (some c.core) with
    | .ok s => return (s, true, none)
    | .error f => if f.isWait then .error f else return (s, false, some f)

/-- Take a handoff (R116, R118, R119, R361): the checks of the endpoint and of the tokens, the pages brought back, then
the opening message and eight data messages a page.  DESIGN CHOICE (log 42): the reads leave LASTG, and the messages carry the
bytes of poisoned sectors and no poison. -/
def State.takeHandoff (s : State) (id : Nat) (c : CopyOp) : Unit_ (State × Bool) := do
  let (s, b) ← s.readTable c.asid (c.r 0)
  let (p0, k) := (fld (c.r 1) 0 32, fld (c.r 1) 32 32)
  let (l, ep) := (fld (c.r 2) 0 32, fld (c.r 2) 32 32)
  let key := s.baseOf 0x5058 5 + 32 * ep
  if fld (s.reg 0x5060) 0 16 ≤ ep then s.kvFate 0x37 b.va
  if s.isPoisoned key 32 then s.unitPoison b.va
  let d2 := s.read64 (key + 16)
  let d3 := s.read64 (key + 24)
  if !d2.getLsbD 44 ∨ fld d2 40 4 = 0 ∨ fld d2 45 19 ≠ 0 ∨ fld d3 6 58 ≠ 0 then s.kvFate 0x37 b.va
  if l = 0 ∨ k * b.fmt.tokens < l then s.kvFate 0x37 b.va
  if b.length < p0 * b.fmt.tokens + l then s.kvFate 0x35 b.va
  let (s, ps) ← s.resolveAll b ((List.range (k * b.fmt.lg)).map (p0 * b.fmt.lg + ·))
  let (s, ready) ← s.bringAll b.va (ps.map fun p => p.2.1)
  if !ready then return (s, false)
  else
    let opening : HandoffMsg :=
      { sender := s.node, addr := BitVec.ofNat 128 (s.readLE key 16), jobId := (s.reg 0x5060).extractLsb' 16 24,
        tag := (c.r 3).extractLsb' 0 32, ordinal := 0, chunk := 0, opening := true, format := b.fmt.raw,
        l := BitVec.ofNat 32 l, k := BitVec.ofNat 32 k, payload := [] }
    let send (m : HandoffMsg) : UeOut := .msg (fld d2 40 4) (fld d3 0 6) (fld d2 24 16) m
    let data := (List.range ps.length).flatMap fun o => (List.range 8).map fun h =>
      let place := (s.pd ((ps.getD o (0, 0, pageDesc 0)).2.1)).place + 8192 * h
      send { opening with
        ordinal := BitVec.ofNat 32 o, chunk := BitVec.ofNat 3 h, opening := false, format := 0, l := 0, k := 0
        payload := (List.range 8192).map fun j => s.byte (place + j) }
    return ({ s with
      ueOut := s.ueOut ++ send opening :: data
      copies := Tab.put s.copies id { c with phase := 1, bytes := k * b.fmt.lg * 2 ^ 16 } }, true)

/-! ### Arrival order (R105) -/

/-- The block tables an operation names. -/
def PsOp.tables (q : PsOp) : List (BitVec 64) := q.a.take (if q.kind = 2 then 2 else 1)

/-- Whether an operation changes a block table or replaces a page. -/
def PsOp.changes (q : PsOp) : Bool := !([3, 7, 10, 12].contains q.kind)

/-- Whether an operation may take effect: the unit is enabled, no earlier one names its table, and, if it changes one, no
gather of that table is still reading (R96, R105). -/
def State.psReady (s : State) (id : Nat) (q : PsOp) : Bool :=
  let names (asid : BitVec 16) (t : BitVec 64) : Bool := q.asid = asid && q.tables.contains t
  (s.reg 0x5000).getLsbD 0 && !q.done &&
    (s.psq.all fun e => decide (id ≤ e.1) || e.2.done || !(e.2.tables.any (names e.2.asid))) &&
    (!q.changes || s.copies.all fun e => !(e.2.form = 2 && e.2.phase = 1 && names e.2.asid (e.2.r 0)))

/-- A page-store instruction at the unit: its result is kept for its group, or its fate stops the group precisely
(R120), or, for poison that the unit read itself, at the boundary before the instruction (R236, R374). -/
def State.psInstr (s : State) (id : Nat) (q : PsOp) : State :=
  match s.kvPerform q with
  | .ok (s, some v) =>
    if q.slot = noSlot then { s with psq := Tab.drop s.psq id }
    else { s with psq := Tab.put s.psq id { q with done := true, b := BitVec.ofNat 64 v } }
  | .ok (s, none) => s
  | .error f =>
    if f.isWait then s.unitHold f
    else
      let s := { s.afterFate f with psq := Tab.drop s.psq id }
      match s.group q.core q.slot with
      | some g =>
        if f.cause = 0x05 then s.stopBoundary g f.cause (f.d0 q.word)
        else s.stopPrecise g (if f.die = 2 then dieOf g.core else f.die) f.cause (f.d0 q.word) 0 f.access
      | none => s

/-- An engine operation at the unit: taken or performed, or given its fate (R120). -/
def State.psEngine (s : State) (id cid : Nat) (c : CopyOp) : State :=
  let fate (s : State) (f : UnitFate) : State :=
    if f.isWait then s.unitHold f
    else { s.afterFate f with psq := Tab.drop s.psq id }.copyFate cid { c with pages := [] } f
  let taken : Unit_ (State × Bool) → State
    | .ok (t, true) => { t with psq := Tab.drop t.psq id }
    | .ok (t, false) => t
    | .error f => fate s f
  if c.form = 2 then taken (s.takeGather cid c)
  else if c.form = 4 then taken (s.takeHandoff cid c)
  else
    match s.team c.team with
    | none => { s with psq := Tab.drop s.psq id }.copyEnd cid c 0
    | some t =>
      match s.scatter cid c t with
      | .error f => fate s f
      | .ok (t, _, some f) => fate t f
      | .ok (t, false, none) => t
      | .ok (t, true, none) => { t with psq := Tab.drop t.psq id }.copyEnd cid c c.bytes

/-! ### Handoffs -/

/-- HANDOFF_COMPLETION (R118): the receiver's completion fills the token; its refusal, or an unreachable peer, is the fate
KV handoff failed, and a replay sends the whole handoff again.  A fill after a save is logged (R240). -/
def execHandoffCompletion (id : Nat) (ok : Bool) (s : State) : Host.Outcome State Fault Refusal :=
  match Tab.find s.copies id with
  | some c =>
    if c.form ≠ 4 ∨ c.phase ≠ 1 then .next s
    else if !ok then .next (s.copyFate id { c with phase := 0 } ⟨0x36, 2, c.r 0, 0, s⟩)
    else
      match c.detached with
      | some (key, _) =>
        let x := s.ctx c.asid
        let s := s.setCtx c.asid { x with fillLog := x.fillLog ++ [(key, BitVec.ofNat 64 c.bytes)] }
        .next { s.unlock c.core id with copies := Tab.drop s.copies id }
      | none => .next (s.copyEnd id c c.bytes)
  | none => .next s

/-- Whether a handoff message arrives at one of the module's own ports under its JOBID (R119). -/
def State.isOwnPort (s : State) (m : HandoffMsg) : Bool :=
  m.jobId = (s.reg 0x5060).extractLsb' 16 24 &&
    (List.range 4).any fun p => m.addr = s.reg (0x5068 + 16 * p + 8) ++ s.reg (0x5068 + 16 * p)

/-- The place of entry i of the receive ring. -/
def State.rxKey (s : State) (i : Nat) : Nat := s.baseOf 0x5048 6 + 64 * i

/-- The lowest posted entry of the receive ring for a tag that no handoff under way has taken (R117). -/
def State.rxMatch (s : State) (tag : BitVec 32) : Option Nat :=
  (List.range (fld (s.reg 0x5050) 0 12)).find? fun i =>
    s.readLE (s.rxKey i) 4 = tag.toNat && (s.byte (s.rxKey i + 20)).getLsbD 0 && !(s.receives.any fun r => r.entry = some i)

/-- Allocate n pages for a handoff (R107 without zero-fill, R117). -/
def State.receivePages (s : State) (b : BTab) : Nat → Unit_ (State × List Nat)
  | 0 => .ok (s, [])
  | n + 1 => do
    let (s, i, p) ← s.takePage b
    let (s, is) ← State.receivePages (s.setPd i p) b n
    return (s, i :: is)

/-- Put back the receive under a sender and tag. -/
def State.setReceive (s : State) (r : Receive) : State :=
  { s with receives := (s.receives.filter fun q => !(q.sender = r.sender && q.tag = r.tag)) ++ [r] }

/-- The receive under a sender and tag. -/
def State.receiveOf (s : State) (sender : Nat) (tag : BitVec 32) : Option Receive :=
  s.receives.find? fun q => q.sender = sender && q.tag = tag

/-- Give back the descriptors and frames that a refused handoff had taken, the last first (R117): a refusal changes nothing
at the receiver, and GEN stays. -/
def State.giveBack (s : State) (is : List Nat) : State :=
  is.reverse.foldl (fun s i =>
    let s := match s.moves.find? fun m => m.pdi = i with
      | some m => { s.pushStack (if m.toLpddr then 1 else 0) m.frame with moves := s.moves.filter fun x => x.pdi ≠ i }
      | none => s
    let p := s.pd i
    let s := s.pushStack p.tier p.entry
    let r := s.reg 0x5018
    (s.setPd i { p with v := false, cw := false, busy := false, pin := 0, ref := 0, lastg := fld r 0 27 }).setReg 0x5018
      (setFld (setFld r 0 27 i) 27 27 (fld r 27 27 + 1))) s

/-- Refuse a handoff (R117): what it had taken is given back, and its data messages that are still on their way will be
dropped as they come (log 42). -/
def State.refuse (s : State) (sender : Nat) (tag : BitVec 32) (coming : List Nat) : State :=
  let r := s.receiveOf sender tag
  let s := s.giveBack ((r.map Receive.pages).getD [])
  let drop := (r.map Receive.drop).getD [] ++ coming.filter fun i =>
    !((r.map Receive.stash).getD []).any fun m => m.ordinal.toNat * 8 + m.chunk.toNat = i
  let s := { s with
    receives := s.receives.filter fun q => !(q.sender = sender && q.tag = tag)
    ueOut := s.ueOut ++ [.refusal sender tag] }
  if drop.isEmpty then s else s.setReceive ⟨sender, tag, none, 0, 0, 0, 0, 0, [], [], [], drop⟩

/-- Place the payload of a data message (R116). -/
def State.placeChunk (s : State) (r : Receive) (m : HandoffMsg) : State :=
  let o := m.ordinal.toNat
  match r.pages[o]? with
  | some i =>
    let s := s.putBytes ((s.pd i).place + 8192 * m.chunk.toNat) (m.payload.take 8192)
    let id := o * 8 + m.chunk.toNat
    s.setReceive { r with got := if r.got.contains id then r.got else id :: r.got }
  | none => s

/-- The opening of a handoff (R117): the checks, and the pages. -/
def State.openHandoff (s : State) (m : HandoffMsg) (i : Nat) : Unit_ (State × Receive) := do
  let k := m.k.toNat
  let va := s.read64 (s.rxKey i + 8)
  let asid := (s.read64 (s.rxKey i + 16)).extractLsb' 0 16
  let (s, b) ← s.readTable asid va
  if s.readLE (s.rxKey i + 4) 4 < k ∨ b.cap < k ∨ m.format ≠ b.fmt.raw then s.kvFate 0x36 va
  let (s, ps) ← s.receivePages b (k * b.fmt.lg)
  return (s, ⟨m.sender, m.tag, some i, asid, va, m.l.toNat, k, b.fmt.lg, ps, [], [], []⟩)

/-- Write the entries of pages from entry e of a block table. -/
def State.nameEntries (s : State) (b : BTab) (e : Nat) : List Nat → Unit_ State
  | [] => .ok s
  | i :: is => do
    let s ← s.vwrite b.asid (b.entryVa e) 8 (entryWord i (s.pd i).gen)
    State.nameEntries s b (e + 1) is

/-- The end of a handoff (R117): the block table is written, the entry cleared and the event signalled, and then the
completion is sent. -/
def State.endHandoff (s : State) (r : Receive) (i : Nat) : Unit_ State := do
  let (s, b) ← s.readTable r.asid r.bt
  let s ← s.nameEntries b 0 r.pages
  let s ← s.writeCounts b r.l r.k
  let k := s.rxKey i
  let d := s.read64 (k + 16)
  let s := (s.write64 (k + 16) (d &&& ~~~(1#64 <<< 32))).signal r.asid (fld d 16 16)
  let s := { s with
    receives := s.receives.filter fun q => !(q.sender = r.sender && q.tag = r.tag)
    ueOut := s.ueOut ++ [.completion r.sender r.tag] }
  return if r.drop.isEmpty then s else s.setReceive ⟨r.sender, r.tag, none, 0, 0, 0, 0, 0, [], [], [], r.drop⟩

/-- End a handoff all of whose chunks have arrived; while a line it needs is held by a switch it waits (R166). -/
def State.settleHandoff (s : State) (sender : Nat) (tag : BitVec 32) : State :=
  match s.receiveOf sender tag with
  | some r =>
    match r.entry with
    | some i =>
      if r.got.length = 8 * r.pages.length then
        match s.endHandoff r i with
        | .ok t => t
        | .error f => if f.isWait then s.unitHold f else (s.adoptMarks f.seen).refuse sender tag []
      else s
    | none => s
  | none => s

/-- Take one message of a handoff (R116, R117): the state, and whether it is taken or must wait.  Data before the opening
is kept for it; data of a refused handoff is dropped. -/
def State.takeMessage (s : State) (m : HandoffMsg) : State × Bool :=
  let r := (s.receiveOf m.sender m.tag).getD ⟨m.sender, m.tag, none, 0, 0, 0, 0, 0, [], [], [], []⟩
  let id := m.ordinal.toNat * 8 + m.chunk.toNat
  if m.opening then
    let coming := List.range (8 * m.k.toNat * ((pageFmt m.format).map PageFmt.lg).getD 0)
    match r.entry, s.rxMatch m.tag with
    | some _, _ => (s, true)
    | none, none => (s.refuse m.sender m.tag coming, true)
    | none, some i =>
      match s.openHandoff m i with
      | .ok (t, q) =>
        let t := r.stash.foldl (fun t x => t.placeChunk ((t.receiveOf m.sender m.tag).getD q) x)
          (t.setReceive { q with drop := r.drop })
        (t.settleHandoff m.sender m.tag, true)
      | .error f => if f.isWait then (s.unitHold f, false) else ((s.adoptMarks f.seen).refuse m.sender m.tag coming, true)
  else if r.drop.contains id then (s.setReceive { r with drop := r.drop.erase id }, true)
  else
    match r.entry with
    | some _ => ((s.placeChunk r m).settleHandoff m.sender m.tag, true)
    | none => (s.setReceive { r with stash := r.stash ++ [m] }, true)

/-- The messages of handoffs that the unit holds are taken, in the order they came, as far as they can be: none while the
unit is not enabled (R96). -/
def State.drainHandoffs (s : State) : State :=
  if !(s.reg 0x5000).getLsbD 0 then s
  else
    let s := s.receives.foldl (fun s r => s.settleHandoff r.sender r.tag) s
    s.handoffs.foldl (fun s m =>
      match s.takeMessage m with
      | (s, true) => { s with handoffs := s.handoffs.erase m }
      | (s, false) => s) s

/-- HANDOFF_RECEIVE (R117, R119): a message of a handoff arrives, in any order, at one of the module's own ports.  DESIGN CHOICE
(log 42): while KVS_CTL.EN is 0 (R96) the messages wait. -/
def execHandoffReceive (m : HandoffMsg) (s : State) : Host.Outcome State Fault Refusal :=
  .next (if s.isOwnPort m then { s with handoffs := s.handoffs ++ [m] }.drainHandoffs else s)

/-- PAGE_STORE_OPERATION (R105 to R112, R115, R118): an operation that has arrived is performed, as far as it can be;
a number that names none lets the unit look at the handoff messages it holds. -/
def execPageStoreOperation (id : Nat) (s : State) : Host.Outcome State Fault Refusal :=
  match Tab.find s.psq id with
  | none => .next s.drainHandoffs
  | some q =>
    if !s.psReady id q then .next s
    else
      match q.copy with
      | none => .next (s.psInstr id q)
      | some cid =>
        match Tab.find s.copies cid with
        | some c => .next (s.psEngine id cid c)
        | none => .next { s with psq := Tab.drop s.psq id }

end Sys2Proof.Machine
end

