-- ==== Sys2Proof/Machine/Carillon.lean ====
section
/-!
DEFINITION. Carillon (R216 to R221, R252, R414 to R416, R421, R428, R471): its registers, the frame boundary, and the
frame.
-/
namespace Sys2Proof.Machine

/-! ### Registers (R216) -/

/-- Whether Carillon is enabled. -/
def State.carOn (s : State) : Bool := (s.reg 0x4000).getLsbD 0

/-- The slots in use. -/
def State.nslot (s : State) : Nat := fld (s.reg 0x4000) 27 14

/-- The ring of completion records: its entries, where the next goes and how far the host has read. -/
def State.cqRing (s : State) : Nat × Nat × Nat :=
  let r := s.reg 0x4048
  let n := 2 ^ fld r 0 5
  (n, fld r 21 16 % n, fld r 5 16 % n)

/-- Whether the completion ring is full (R218). -/
def State.cqFull (s : State) : Bool := let q := s.cqRing; (q.2.1 + 1) % q.1 = q.2.2

/-- Whether a value of CAR_CTL is illegal (R216). -/
def carCtlBad (w : BitVec 64) : Bool :=
  fld w 5 6 = 0 || decide (32 < fld w 5 6) || fld w 27 14 = 0 || decide (8192 < fld w 27 14)

/-- A write to CAR_CTL: EN going to 1 starts frames with frame number and rotation pointer 0, EN going to 0 ends them; while
EN is 1 no other field may change. -/
def State.writeCarCtl (s : State) (src : Bool) (w : BitVec 64) : State :=
  let old := s.reg 0x4000
  let w := BitVec.ofNat 64 (w.toNat % 2 ^ 41)
  if carCtlBad w || (old.getLsbD 0 && decide (w.toNat / 2 ≠ old.toNat / 2)) then s.writeError src 0x4000
  else
    let s := s.setReg 0x4000 w
    let c := s.carillon
    if w.getLsbD 0 && !old.getLsbD 0 then
      { s with carillon := { c with
          running := true, frame := 0, rp := 0, inFrame := false, frameEnded := false, grid := none, prefill := []
          trigger := true, again := false, faultStep := 0 } }
    else if old.getLsbD 0 && !w.getLsbD 0 then { s with carillon := { c with running := false, trigger := false } }
    else s

/-- CARILLON_ENABLE (R216): a write to CAR_CTL. -/
def execCarillonEnable (src : Bool) (w : BitVec 64) (s : State) : Host.Outcome State Fault Refusal := .next (s.writeCarCtl src w)

/-- RQTAIL_WRITE (R216, R217): a request arrives, which is a trigger (R218). -/
def execRqtailWrite (_src : Bool) (tail : BitVec 16) (s : State) : Host.Outcome State Fault Refusal :=
  let s := s.setReg 0x4038 (setFld (s.reg 0x4038) 5 16 tail.toNat)
  .next (if s.carillon.running then s.triggerFrame else s)

/-- CQHEAD_WRITE (R216, R218): the host has read completion records. -/
def execCqheadWrite (_src : Bool) (head : BitVec 16) (s : State) : Host.Outcome State Fault Refusal :=
  .next (s.setReg 0x4048 (setFld (s.reg 0x4048) 5 16 head.toNat))

/-- The state of a slot, when its entry can be read, with the marks of that read (R26). -/
def State.slotStateNow (s : State) (slot : Nat) : State × Option Nat :=
  match s.slotDw slot 0 with
  | .ok (t, d) => (t, some (fld d 0 4))
  | .error f => (s.adoptMarks f.seen, none)

/-- A command written to CAR_SCMD (R216): refused while EN is 0, while GO reads 1, for a slot not in use, and where it does
not match the slot's state; else it waits for the boundary, and a wake acts as R221 says. -/
def State.slotCommand (s : State) (src : Bool) (slot : BitVec 13) (op : Nat) (reason : BitVec 16) : State :=
  let k := slot.toNat
  let (s, st) := s.slotStateNow k
  let fits := match st, op with
    | some t, 0 => t = slotInError
    | some t, 1 => slotParked t || s.parkPending k
    | some t, _ => t != slotFree
    | none, _ => false
  if !s.carOn || (s.reg 0x4050).getLsbD 63 || decide (s.nslot ≤ k) || !fits then s.writeError src 0x4050
  else
    let s := s.setReg 0x4050 (BitVec.ofNat 64 (k + op * 2 ^ 13 + reason.toNat * 2 ^ 15 + 2 ^ 63))
    let s := if op = 1 then s.requestWake k else s
    (s.setReqs (s.carillon.reqs ++ [(3, k)])).triggerFrame

/-- SCMD_FREE (R216, R218). -/
def execScmdFree (slot : BitVec 13) (src : Bool) (s : State) : Host.Outcome State Fault Refusal := .next (s.slotCommand src slot 0 0)

/-- SCMD_WAKE (R216, R221). -/
def execScmdWake (slot : BitVec 13) (src : Bool) (s : State) : Host.Outcome State Fault Refusal := .next (s.slotCommand src slot 1 0)

/-- SCMD_MARK_ERROR (R216, R416). -/
def execScmdMarkError (slot : BitVec 13) (reason : BitVec 16) (src : Bool) (s : State) : Host.Outcome State Fault Refusal :=
  .next (s.slotCommand src slot 2 reason)

/-! ### Parts of the boundary -/

/-- A part of a boundary over a list, up to the first that stops it: what is done stays done. -/
def State.sweep {α : Type} (f : State → α → Unit_ State) : State → List α → State × Option UnitFate
  | s, [] => (s, none)
  | s, x :: xs =>
    match f s x with
    | .ok t => State.sweep f t xs
    | .error e => (s, some e)

/-- The slots in use, in order. -/
def State.slots (s : State) : List Nat := List.range s.nslot

/-- Truncate a slot's block table to 0 tokens (R110, R218), in its turn at the page-store unit (R105): its length before. -/
def State.emptyTable (s : State) (bt : BitVec 64) : Unit_ (State × Nat) := do
  let (s, b) ← s.readTable s.carAsid bt
  let named (q : PsOp) : Bool := !q.done && q.asid = s.carAsid && q.tables.contains bt
  if !(s.reg 0x5000).getLsbD 0 ∨ (s.psq.any fun e => named e.2) ∨
      (s.copies.any fun e => e.2.form = 2 && e.2.phase = 1 && e.2.asid = s.carAsid && e.2.r 0 = bt) then s.unitWait
  let (s, _) ← s.kvTruncate b 0
  return (s, b.length)

/-- Free a slot with its completion record (R218). -/
def State.completeSlot (s : State) (slot final length : Nat) : Unit_ State := do
  let (s, d0) ← s.slotDw slot 0
  let (s, d13) ← s.slotDw slot 13
  let q := s.cqRing
  let va := s.reg 0x4040 + BitVec.ofNat 64 (32 * q.2.1)
  let s ← s.vwrite s.carAsid va 32 (dwords4 d13 (BitVec.ofNat 64 (slot + final * 2 ^ 13 + fld d0 16 16 * 2 ^ 32))
    (BitVec.ofNat 64 (length % 2 ^ 32)) (BitVec.ofNat 64 s.carillon.frame)).toNat
  let s ← s.setSlotState slot slotFree
  return (s.setReg 0x4048 (setFld (s.reg 0x4048) 21 16 ((q.2.1 + 1) % q.1))).leaveOrder slot

/-- Step 1 of R218 for a slot: retire one that is done. -/
def State.retireSlot (s : State) (slot : Nat) : Unit_ State := do
  let (s, d0) ← s.slotDw slot 0
  if fld d0 0 4 ≠ slotDone ∨ s.cqFull then return s
  else
    let (s, bt) ← s.slotDw slot 1
    match s.emptyTable bt with
    | .ok (t, n) => t.completeSlot slot slotDone n
    | .error f => if f.isWait then .error f else (s.adoptMarks f.seen).slotError slot 0x000B

/-- A park of a slot that runs (R397, R416). -/
def State.parkSlot (s : State) (slot kind : Nat) : Unit_ State := do
  let (s, d0) ← s.slotDw slot 0
  let st := fld d0 0 4
  if slotRuns st then s.setSlotDw slot 0 (setFld (setFld d0 0 4 (5 + kind)) 4 4 st) else return s

/-- A wake of a slot (R416, R428): one that is parked resumes; NPEND is cleared. -/
def State.wakeSlot (s : State) (slot : Nat) : Unit_ State := do
  let (s, d0) ← s.slotDw slot 0
  let s ← if slotParked (fld d0 0 4) then s.setSlotDw slot 0 (setFld d0 0 4 (fld d0 4 4)) else .ok s
  s.clearNpend slot

/-- The command of CAR_SCMD at the boundary (R216, R218): whether it is done, not pending for want of a completion
record. -/
def State.doCommand (s : State) (slot : Nat) : Unit_ (State × Bool) := do
  let r := s.reg 0x4050
  let (s, d0) ← s.slotDw slot 0
  let st := fld d0 0 4
  match fld r 13 2 with
  | 0 =>
    if st ≠ slotInError then return (s, true)
    else if s.cqFull then return (s, false)
    else
      let (s, bt) ← s.slotDw slot 1
      match s.emptyTable bt with
      | .ok (t, n) => do let t ← t.completeSlot slot slotInError n; return (t, true)
      | .error f =>
        if f.isWait then .error f
        else do let t ← (s.adoptMarks f.seen).completeSlot slot slotInError (fld d0 32 32); return (t, true)
  | 2 => do
    let s ← if st = slotFree then .ok s else s.slotError slot (fld r 15 16)
    return (s, true)
  | _ => return (s, true)

/-- Step 2 of R218: the requests since the last boundary, in order. -/
def State.applyReqs (kept : List (Nat × Nat)) : List (Nat × Nat) → State → State × Option UnitFate
  | [], s => (s.setReqs kept, none)
  | (kind, slot) :: rest, s =>
    let r : Unit_ (State × Bool) := match kind with
      | 0 | 1 => do let t ← s.parkSlot slot kind; return (t, true)
      | 2 => do let t ← s.wakeSlot slot; return (t, true)
      | _ => do
        let (t, done) ← s.doCommand slot
        return (if done then t.setReg 0x4050 (t.reg 0x4050 &&& ~~~(1#64 <<< 63)) else t, done)
    match r with
    | .ok (t, true) => State.applyReqs kept rest t
    | .ok (t, false) => State.applyReqs (kept ++ [(kind, slot)]) rest t
    | .error f => (s.setReqs (kept ++ (kind, slot) :: rest), some f)

/-- The wakes of a list that have come since step 2 (R221): each is applied before the frame is formed. -/
def State.takeWakes : State → List (Nat × Nat) → State × Option UnitFate
  | s, [] => (s, none)
  | s, r :: rs =>
    match s.wakeSlot r.2 with
    | .ok t => State.takeWakes (t.setReqs (t.carillon.reqs.filter (· ≠ r))) rs
    | .error f => (s, some f)

/-- Wake the slots parked for memory once HBM4 has HLOW frames (R221). -/
def State.wakeMem (s : State) : State × Option UnitFate :=
  if s.stackCount 0 < fld (s.reg 0x5040) 0 27 then (s, none)
  else State.sweep (fun s k => do
    let (s, d) ← s.slotDw k 0
    if fld d 0 4 = 6 then s.wakeSlot k else return s) s s.slots

/-- The checks of R415 that every boundary makes over the dwords of an entry: the first code that fails. -/
def entryCode (e : Nat → BitVec 64) : Nat :=
  if tempBad (fld (e 5) 0 32) then 4
  else if topPBad (fld (e 5) 32 32) then 5
  else if fld (e 6) 32 32 = 0 ∨ 2 ^ 24 < fld (e 6) 32 32 ∨ 1024 < fld (e 8) 0 11 ∨ 64 < fld (e 8) 16 7 ∨ fld (e 3) 32 32 = 0 ∨
      (e 1).toNat % 64 ≠ 0 ∨ (e 7).toNat % 4 ≠ 0 ∨ (e 9).toNat % 64 ≠ 0 ∨ (e 10).toNat % 64 ≠ 0 ∨ (e 11).toNat % 4 ≠ 0 ∨ fld (e 0) 8 8 ≠ 0 ∨
      fld (e 6) 28 4 ≠ 0 ∨ fld (e 8) 11 5 ≠ 0 ∨ fld (e 8) 23 41 ≠ 0 ∨ fld (e 12) 33 31 ≠ 0 then 6
  else 0

/-- The dwords of a slot's entry that a boundary needs, 0 to 13 (R411, R471). -/
def State.entryOf (s : State) (slot : Nat) : Unit_ (State × (Nat → BitVec 64)) := do
  let (s, v) ← s.vread s.carAsid (s.slotVa slot 0) 112
  return (s, fun k => BitVec.ofNat 64 (v / 2 ^ (64 * k)))

/-- Whether n nodes of a draft tree from node i are well formed (R419, R421). -/
def State.treeOk (s : State) (va : BitVec 64) (vocab i : Nat) : Nat → Unit_ (State × Bool)
  | 0 => .ok (s, true)
  | n + 1 => do
    let (s, w) ← s.vread s.carAsid (va + BitVec.ofNat 64 (4 * i)) 4
    let parent := w / 2 ^ 24 % 128
    let (s, ok) ← State.treeOk s va vocab (i + 1) n
    return (s, ok && w < 2 ^ 31 && (parent = 127 || decide (parent < i)) && decide (w % 2 ^ 24 < vocab))

/-- The transitions of step 3 (R416): prefill to decode, decode to draft or error, draft to decode; a slot in another state
keeps it. -/
def State.advanceSlot (s : State) (slot st : Nat) (e : Nat → BitVec 64) : Unit_ State :=
  let st1 := if st = slotPrefill ∧ fld (e 2) 32 32 = fld (e 2) 0 32 then slotDecode else st
  let nodes := fld (e 8) 16 7
  if st1 = slotDecode ∧ nodes ≠ 0 then
    match s.treeOk (e 10) (fld (e 6) 32 32) 0 nodes with
    | .ok (t, true) => t.setSlotState slot slotDraft
    | .ok (t, false) => t.slotError slot 9
    | .error f => if f.isWait then .error f else (s.adoptMarks f.seen).slotError slot 9
  else
    let st2 := if st1 = slotDraft ∧ nodes = 0 then slotDecode else st1
    if st2 = st then .ok s else s.setSlotState slot st2

/-- Step 3 of R218 for a slot in use: the length copy (R103), the checks of R415 in code order, the transitions; of a slot
in error only the length copy, where it can be had (log 39). BT is judged zero at admission alone (R415): here a zero is
an address as any other. -/
def State.refreshSlot (s : State) (slot : Nat) : Unit_ State := do
  let (s, e) ← s.entryOf slot
  let st := fld (e 0) 0 4
  if st = slotFree then return s
  else
    let (s, n) ← if (e 1).toNat % 64 ≠ 0 then Except.ok (s, none)
      else match s.vread s.carAsid (e 1) 4 with
        | .ok (t, n) => Except.ok (t, some n)
        | .error f => if f.isWait then .error f else Except.ok (s.adoptMarks f.seen, none)
    let s ← match n with
      | some n => s.setSlotDw slot 0 (setFld (e 0) 32 32 n)
      | none => Except.ok s
    let c := entryCode e
    if st = slotInError then return s
    else if c ≠ 0 then s.slotError slot c
    else if n.isNone then s.slotError slot 0x000B
    else s.advanceSlot slot st e

/-! ### Admission (R217, R414) -/

/-- The lowest free slot of a list. -/
def State.freeSlotIn (s : State) : List Nat → Unit_ (State × Option Nat)
  | [] => .ok (s, none)
  | k :: ks => do
    let (s, d) ← s.slotDw k 0
    if fld d 0 4 = slotFree then return (s, some k) else State.freeSlotIn s ks

/-- The dwords of a request's image from dword k, n of them, each with its poison: poison in what Carillon needs is a fate
(R471), while poison in USER moves with it (R411). -/
def State.readImage (s : State) (va : BitVec 64) (k : Nat) : Nat → Unit_ (State × List (BitVec 64 × Bool))
  | 0 => .ok (s, [])
  | n + 1 => do
    s.aligned va 8 0
    let (s, p) ← s.unitPlace s.carAsid va 0
    let pz := s.isPoisoned p 8
    if pz && decide (k < 20) then s.unitPoison va
    let (s, vs) ← State.readImage s (va + 8) (k + 1) n
    return (s, (s.read64 p, pz) :: vs)

/-- The block table's LENGTH at an admission, with OWNER written into its header (R414). -/
def State.ownTable (s : State) (bt : BitVec 64) (slot : Nat) : Unit_ (State × Nat) := do
  let (s, n) ← s.vread s.carAsid bt 4
  let (s, d) ← s.vread s.carAsid (bt + 8) 8
  let s ← s.vwrite s.carAsid (bt + 8) 8 (setFld (BitVec.ofNat 64 d) 32 13 slot).toNat
  return (s, n)

/-- The first check of R415 that an image fails at admission, `table` telling whether its block table could be used. -/
def admissionCode (e : Nat → BitVec 64) (length : Nat) (table : Bool) : Nat :=
  let plen := fld (e 2) 0 32
  if e 1 = 0 ∨ (e 1).toNat % 64 ≠ 0 then 1
  else if plen = 0 ∨ fld (e 3) 0 32 < plen ∨ plen ≤ length then 2
  else if (e 16).toNat % 2 = 0 then 3
  else if entryCode e ≠ 0 then entryCode e
  else if table then 0 else 0x000A

/-- Admit a request to a slot (R414): the image, with what Carillon sets, then the checks. -/
def State.admitRequest (s : State) (slot : Nat) (va req : BitVec 64) : Unit_ State := do
  let (s, img) ← match s.readImage va 0 32 with
    | .ok (t, vs) => Except.ok (t, some vs)
    | .error f => if f.isWait then .error f else Except.ok (s.adoptMarks f.seen, none)
  let g (k : Nat) : BitVec 64 := ((img.getD []).getD k (0, false)).1
  let bt := g 1
  let (s, len) ← if img.isNone ∨ bt = 0 ∨ bt.toNat % 64 ≠ 0 then Except.ok (s, some 0)
    else match s.ownTable bt slot with
      | .ok (t, n) => Except.ok (t, some n)
      | .error f => if f.isWait then .error f else Except.ok (s.adoptMarks f.seen, none)
  let n := len.getD 0
  let e (k : Nat) : BitVec 64 := match k with
    | 0 => BitVec.ofNat 64 (slotAdmitted + fld (g 0) 8 8 * 2 ^ 8 + n * 2 ^ 32)
    | 2 => setFld (g 2) 32 32 n
    | 4 => 0xFFFFFFFF00000000
    | 12 => BitVec.ofNat 64 (fld (g 12) 33 31 * 2 ^ 33)
    | 13 => req
    | _ => g k
  let s ← s.vwrite s.carAsid (s.slotVa slot 0) 256 (((List.range 32).map fun k => (e k).toNat * 2 ^ (64 * k)).sum)
  let (s, place) ← s.slotPlace slot 1
  let s := (img.getD []).zipIdx.foldl (fun s x => if x.1.2 then s.poison (place + 8 * x.2) 8 else s) s
  let s := s.leaveOrder slot
  let s := { s with carillon := { s.carillon with admitted := s.carillon.admitted ++ [slot] } }
  let code := if img.isNone then 0x000C else admissionCode e n len.isSome
  if code = 0 then return s else s.slotError slot code

/-- Step 5 of R218: admit requests in ring order while a slot is free, at most `fuel`. -/
def State.admitAll : Nat → State → State × Option UnitFate
  | 0, s => (s, none)
  | fuel + 1, s =>
    let r := s.reg 0x4038
    let n := 2 ^ fld r 0 5
    let head := fld r 21 16 % n
    if head = fld r 5 16 % n then (s, none)
    else
      let one : Unit_ (State × Bool) := do
        let (s, k) ← s.freeSlotIn s.slots
        match k with
        | none => return (s, false)
        | some k =>
          let (s, q) ← s.vread s.carAsid (s.reg 0x4030 + BitVec.ofNat 64 (16 * head)) 16
          let s ← s.admitRequest k (BitVec.ofNat 64 q) (BitVec.ofNat 64 (q / 2 ^ 64))
          return (s.setReg 0x4038 (setFld (s.reg 0x4038) 21 16 ((head + 1) % n)), true)
      match one with
      | .ok (t, true) => State.admitAll fuel t
      | .ok (t, false) => (t, none)
      | .error f => (s, some f)

/-! ### Frames (R219, R220) -/

/-- An entry of a frame: slot, kind, whether the chunk ends the prompt, position, tokens. -/
structure FrameEntry where
  slot : Nat
  kind : Nat
  last : Bool
  pos : Nat
  ntok : Nat
  deriving DecidableEq, Repr

/-- The decode and draft part of a frame over the slots from rp: the entries, the budgets left, and the slot at which it
stopped. -/
def decodePart (live : List (Nat × (Nat → BitVec 64))) : List Nat → Nat → Nat → List FrameEntry × Nat × Option Nat
  | [], _, budget => ([], budget, none)
  | k :: ks, cap, budget =>
    match live.find? fun x => x.1 = k with
    | none => decodePart live ks cap budget
    | some (_, e) =>
      let st := fld (e 0) 0 4
      if st ≠ slotDecode ∧ st ≠ slotDraft then decodePart live ks cap budget
      else
        let n := if st = slotDecode then 1 else fld (e 8) 16 7 + 1
        if cap < n then ([], budget, some k)
        else
          let r := decodePart live ks (cap - n) (budget - n)
          (⟨k, if st = slotDecode then 1 else 2, false, fld (e 0) 32 32, n⟩ :: r.1, r.2)

/-- The prefill part of a frame over the slots in admission order. -/
def prefillPart (live : List (Nat × (Nat → BitVec 64))) (chunk : Nat) : List Nat → Nat → List FrameEntry
  | [], _ => []
  | k :: ks, budget =>
    match live.find? fun x => x.1 = k with
    | none => prefillPart live chunk ks budget
    | some (_, e) =>
      let (plen, done) := (fld (e 2) 0 32, fld (e 2) 32 32)
      let n := min chunk (min (plen - done) budget)
      if n = 0 then [] else ⟨k, 0, done + n = plen, done, n⟩ :: prefillPart live chunk ks (budget - n)

/-- The entries of the running slots of a list, those just admitted moved to prefill (R416). -/
def State.liveSlots (s : State) : List Nat → Unit_ (State × List (Nat × (Nat → BitVec 64)))
  | [] => .ok (s, [])
  | k :: ks => do
    let (s, e) ← s.entryOf k
    let st := fld (e 0) 0 4
    let s ← if st = slotAdmitted then s.setSlotState k slotPrefill else .ok s
    let (s, e) ← if st = slotAdmitted then s.entryOf k else .ok (s, e)
    let (s, l) ← State.liveSlots s ks
    return (s, if slotRuns (fld (e 0) 0 4) then (k, e) :: l else l)

/-- Form a frame (R219): its entries and the rotation pointer after. -/
def State.formFrame (s : State) (live : List (Nat × (Nat → BitVec 64))) : List FrameEntry × Nat :=
  let r := s.reg 0x4020
  let (budget, chunk, pfres) := (fld r 0 16, fld r 16 16, fld r 32 16)
  let inPrefill := (live.filter fun x => fld (x.2 0) 0 4 = slotPrefill).map (·.1)
  let order := (s.carillon.admitted.filter inPrefill.contains) ++ inPrefill.filter fun k => !s.carillon.admitted.contains k
  let rp := s.carillon.rp
  let d := decodePart live ((List.range s.nslot).map fun k => (rp + k) % s.nslot) (if inPrefill.isEmpty then budget else budget - pfres)
    budget
  (d.1 ++ prefillPart live chunk order d.2.1, d.2.2.getD rp)

/-- Write the entries of a frame from an address, the token offset rising (R220). -/
def State.writeEntries (s : State) (va : BitVec 64) (ofs : Nat) : List FrameEntry → Unit_ State
  | [] => .ok s
  | e :: es => do
    let s ← s.vwrite s.carAsid va 16 (e.slot + e.kind * 2 ^ 13 + (if e.last then 2 ^ 15 else 0) + e.pos % 2 ^ 32 * 2 ^ 16 +
      e.ntok % 2 ^ 16 * 2 ^ 48 + ofs % 2 ^ 16 * 2 ^ 64)
    State.writeEntries s (va + 16) (ofs + e.ntok) es

/-- The descriptor that Carillon launches for a frame of n entries (R220). -/
def frameDesc (desc : List (BitVec 64)) (n gsz prio : Nat) : List (BitVec 64) :=
  (desc.set 3 (BitVec.ofNat 64 ((n + gsz - 1) / gsz + 2 ^ 32 + 2 ^ 48))).set 4
    (setFld (setFld (desc.getD 4 0) 22 3 prio) 25 1 0)

/-- Hand a published frame over (R220): SEV is signalled, or the descriptor at CAR_LD launched; one with the
launch-descriptor fault starts no team, and its frame does not end. -/
def State.handFrame (s : State) (n : Nat) : State :=
  let ctl := s.reg 0x4000
  if ctl.getLsbD 1 then s.signal s.carAsid (fld (s.reg 0x4028) 0 16)
  else
    let va := s.reg 0x4018
    let q := s.readDesc s.carAsid va
    let i := q.1.takeGridId s.carAsid
    let g := newGrid (frameDesc (q.2.getD []) n (fld ctl 5 6) (fld ctl 2 3)) va s.carAsid 2 0 i.2 0
    if q.2.isNone || s.descBad g then i.1.launchRecord g 0x50 643
    else
      let s := i.1
      { s with carillon := { s.carillon with grid := some s.nextId } }.submit { g with frame := some s.carillon.frame }

/-- Step 6 of R218: form and publish the next frame; an empty one is not published (log 18). -/
def State.publish (s : State) : Unit_ State := do
  let (s, live) ← s.liveSlots s.slots
  let q := s.formFrame live
  let es := q.1
  if es.isEmpty then return { s with carillon := { s.carillon with trigger := s.carillon.again, again := false, rp := q.2 } }
  else
    match (if (s.reg 0x4000).getLsbD 1 then none else s.descHeld s.carAsid (s.reg 0x4018)) with
    | some k => .error ⟨0, 2, BitVec.ofNat 64 k, 0, s⟩
    | none => .ok ()
    let f := s.carillon.frame
    let va := s.reg 0x4010 + BitVec.ofNat 64 (2 ^ 18 * (f % 2))
    let tokens := (es.map FrameEntry.ntok).sum
    let s ← s.vwrite s.carAsid va 64 (f % 2 ^ 64 + (es.length + tokens % 2 ^ 16 * 2 ^ 16) * 2 ^ 64 + s.now.toNat * 2 ^ 128)
    let s ← s.writeEntries (va + 64) 0 es
    let s := { s with carillon := { s.carillon with
      inFrame := true, frameEnded := false, trigger := false, again := false, rp := q.2
      prefill := (es.filter fun (e : FrameEntry) => e.kind = 0).map fun (e : FrameEntry) => (e.slot, e.ntok) } }
    return s.handFrame es.length

/-! ### The boundary (R218, R471) -/

/-- Step k of R218. -/
def State.boundaryStep (s : State) (k : Nat) : State × Option UnitFate :=
  match k with
  | 1 => State.sweep State.retireSlot s s.slots
  | 2 =>
    match State.applyReqs [] s.carillon.reqs s with
    | (t, none) => t.wakeMem
    | r => r
  | 3 => State.sweep State.refreshSlot s s.slots
  | 4 =>
    if (s.reg 0x5000).getLsbD 0 && decide (s.stackCount 0 < fld (s.reg 0x5040) 0 27) then
      (s.evictRounds (fld (s.reg 0x5040) 27 27) 64 0 (s.pdN / 4096 + 1), none)
    else (s, none)
  | 5 => State.admitAll (2 ^ 16) s
  | _ =>
    match s.takeWakes (s.carillon.reqs.filter fun r => r.1 = 2) with
    | (t, some f) => (t, some f)
    | (t, none) =>
      match t.publish with
      | .ok u => (u, none)
      | .error f => (t, some f)

/-- A boundary that a step could not finish (R471): it stands at that step.  A fate is recorded where its address is not
the last recorded, and waits for a trigger; a wait goes on by itself (log 39). -/
def State.boundaryStuck (s : State) (k : Nat) (f : UnitFate) : State :=
  if f.isWait then { s.unitHold f with carillon := { s.carillon with faultStep := k, trigger := true } }
  else
    let s := s.adoptMarks f.seen
    let s := if s.carillon.fault = some f.va then s
      else s.emit 0 (record2 f.va 0 0 2 0 s.now 0x63 0 s.carAsid 643)
    { s with carillon := { s.carillon with faultStep := k, trigger := false, fault := some f.va } }

/-- The steps of a boundary from step k, `fuel` of them. -/
def State.boundaryFrom (s : State) (k : Nat) : Nat → State
  | 0 => { s with carillon := { s.carillon with faultStep := 0 } }
  | fuel + 1 =>
    match s.boundaryStep k with
    | (t, none) => State.boundaryFrom t (k + 1) fuel
    | (t, some f) => t.boundaryStuck k f

/-- Run the boundary from where it stands. -/
def State.boundary (s : State) : State :=
  let s : State := { s with carillon := { s.carillon with trigger := false } }
  let k := if s.carillon.faultStep = 0 then 1 else s.carillon.faultStep
  s.boundaryFrom k (7 - k)

/-- Whether Carillon may run a boundary: enabled, alive, with no frame under way and not told to stop (R239). -/
def State.atBoundary (s : State) : Bool :=
  let c := s.carillon
  c.running && s.carOn && !c.inFrame && !c.failed && !c.stopReq && !s.frozen

/-- The end of a frame (R416): what it prefilled counts for each slot still in prefill. -/
def State.countPrefill (s : State) (e : Nat × Nat) : Unit_ State := do
  let (s, d0) ← s.slotDw e.1 0
  let (s, d2) ← s.slotDw e.1 2
  if fld d0 0 4 = slotPrefill then s.setSlotDw e.1 2 (setFld d2 32 32 (fld d2 32 32 + e.2)) else return s

/-- Count the prefilled tokens of a list of slots: what is left of it when one meets a fate. -/
def State.countAll : State → List (Nat × Nat) → State × List (Nat × Nat) × Option UnitFate
  | s, [] => (s, [], none)
  | s, e :: es =>
    match s.countPrefill e with
    | .ok t => State.countAll t es
    | .error f => (s, e :: es, some f)

/-- FRAME_END (R220): the frame has ended: the next boundary is due. -/
def execFrameEnd (s : State) : Host.Outcome State Fault Refusal :=
  let c := s.carillon
  if !c.inFrame || !c.frameEnded then .next s
  else
    match s.countAll c.prefill with
    | (t, _, none) =>
      let c := t.carillon
      .next { t with carillon := { c with
        inFrame := false, frameEnded := false, grid := none, frame := c.frame + 1, prefill := [], trigger := c.running } }
    | (t, left, some f) =>
      let t := t.boundaryStuck 0 f
      .next { t with carillon := { t.carillon with prefill := left } }

/-! ### Tool returns (R426 to R428) -/

/-- A slot with NOTIFY index n takes a tool return (R428). -/
def State.notifySlot (v : BitVec 32) (n : Nat) (s : State) (slot : Nat) : Unit_ State := do
  let (s, d0) ← s.slotDw slot 0
  let (s, d6) ← s.slotDw slot 6
  if fld d6 16 12 ≠ n then return s
  else
    let (s, d12) ← s.slotDw slot 12
    let s ← s.setSlotDw slot 12 (BitVec.ofNat 64 (v.toNat + 2 ^ 32 + fld d12 33 31 * 2 ^ 33))
    return if fld d0 0 4 = 5 ∨ s.carillon.reqs.contains (0, slot) then s.requestWake slot else s

/-- Give a tool return to the slots from slot k, `fuel` of them: the slot at which it stands, when one's entry meets a
fate. -/
def State.notifyFrom (s : State) (n : Nat) (v : BitVec 32) (k : Nat) : Nat → State × Option (Nat × UnitFate)
  | 0 => (s, none)
  | fuel + 1 =>
    match State.notifySlot v n s k with
    | .ok t => State.notifyFrom t n v (k + 1) fuel
    | .error f => (s, some (k, f))

/-- Give the tool returns of a list to their slots, in order (R428); a fate of the batch table is recorded, and what is
left waits for the next try (R471; log 39). -/
def State.giveReturns : State → List (Nat × BitVec 32 × Nat) → State
  | s, [] => { s with carillon := { s.carillon with returns := [] } }
  | s, (n, v, k) :: rest =>
    match s.notifyFrom n v k (s.nslot - k) with
    | (t, none) => State.giveReturns t rest
    | (t, some (j, f)) =>
      let c := t.carillon
      let t := t.boundaryStuck c.faultStep f
      { t with carillon := { t.carillon with trigger := c.trigger, returns := (n, v, j) :: rest } }

/-- TOOL_RETURN (R428): a guest's store to a register of its own notify page; nonzero high bits are ignored, and so is a
store to a part of the page that holds no register (log 47). -/
def execToolReturn (sandbox off : Nat) (w : BitVec 64) (s : State) : Host.Outcome State Fault Refusal :=
  if 64 ≤ sandbox ∨ 512 ≤ off ∨ off % 8 ≠ 0 ∨ 2 ^ 32 ≤ w.toNat then .next s
  else
    let n := 64 * sandbox + off / 8
    let s := { s with notify := Tab.set 0 s.notify n w }
    .next (if s.carOn then s.giveReturns (s.carillon.returns ++ [(n, w.extractLsb' 0 32, 0)]) else s)

/-- FRAME_BOUNDARY (R218): once a trigger has come; tool returns that wait go first. -/
def execFrameBoundary (s : State) : Host.Outcome State Fault Refusal :=
  if s.atBoundary && s.carillon.trigger then .next (s.giveReturns s.carillon.returns).boundary else .next s

/-- CARILLON_STRUCTURE_RETRY (R471): a boundary that stands at a step is tried again, and so are tool returns that wait. -/
def execCarillonStructureRetry (s : State) : Host.Outcome State Fault Refusal :=
  let t := if s.carOn && !s.carillon.returns.isEmpty then s.giveReturns s.carillon.returns else s
  if t.atBoundary && t.carillon.faultStep != 0 then .next t.boundary else .next t

/-! ### Takeover (R252) -/

/-- CARILLON_TAKEOVER (R252): after the die-0 unit's failure the standby goes on at the next boundary, and
records it. -/
def execCarillonTakeover (s : State) : Host.Outcome State Fault Refusal :=
  let c := s.carillon
  if c.failed && !c.failedStandby && !c.standby && !c.inFrame then
    .next ({ s with carillon := { c with failed := false, standby := true, trigger := c.running } }.emit 1
      (record3 0 643 4 false s.now 0x09 0 643))
  else .next s

end Sys2Proof.Machine
end

