-- ==== Sys2Proof/Machine/Convert.lean ====
section
/-!
DEFINITION. Conversions, packing and scale, major 0x1F (R268, R269, R271, R328 to R331).
-/
namespace Sys2Proof.Machine

/-- The value of an integer as an MXINT8 element: times 64, clamped to -127..127, IOV when it clamps (R328). -/
def intToMxi8 (v : Int) : Nat × Exc :=
  let t := v * 64
  if t < -127 then (encodeInt 8 (-127), Exc.iov) else if 127 < t then (127, Exc.iov) else (encodeInt 8 t, 0)

/-- An MXINT8 element as an integer (R328): i × 2^−6 rounded in the mode, NX when that is inexact, and an integer result out
of range as R255 has it, with IOV (R266; log 27). -/
def mxi8ToInt (rd : Rnd) (bits : Nat) (signed : Bool) (w : Nat) : Nat × Exc :=
  match Ty.mxi8.value w with
  | .fin n m e =>
    let v := roundWhole rd n m e
    let y := clampInt bits signed rd.sat (if n then -(v.1 : Int) else v.1)
    (y.1, y.2 ||| if v.2 then Exc.nx else 0)
  | _ => (0, 0)

/-- A source whose type is the destination's: the value, NaNs made canonical (R328), an MXINT8 element clamped as every
result is (R259; log 27). -/
def sameType (t : Ty) (ftz : Bool) (w : Nat) : Nat × Exc :=
  match t with
  | .flt f =>
    match f.decode w with
    | .nan sig => (f.qnan, if sig then Exc.nv else 0)
    | _ => (f.flushIn ftz w, 0)
  | .mxi8 => (if w % 256 = 128 then 129 else w, 0)
  | _ => (w, 0)

/-- The conversion of VCVT between type codes (R328). -/
def vcvtElem (rd : Rnd) (src dst : Nat) (w : Nat) : Nat × Exc :=
  match Ty.ofCode src, Ty.ofCode dst with
  | some a, some b =>
    if src = dst then sameType a rd.ftz (w % 2 ^ a.bits)
    else
      match a, b with
      | .int n sg, .mxi8 => intToMxi8 (decodeInt n sg w)
      | .mxi8, .int n sg => mxi8ToInt rd n sg w
      | _, _ => convert rd a b (w % 2 ^ a.bits)
  | _, _ => (0, 0)

/-- The element of a lane as a type code reads it (R303). -/
def Group.codeElem (g : Group) (k l code : Nat) : Nat :=
  if is64 code then (g.v64 k l).toNat else (g.vel k l).val.toNat

/-- VCVT (R328): b names the source type code. -/
def execVcvt (x : Pfx) (r : RRR) (s : State) : Host.Outcome State Fault Refusal :=
  issueG (.vcvt x r) (fun g => do
    let q := rrrAt r x g.repIdx
    let a := q.a.toNat
    let d := q.d.toNat
    let dst := typeOr x 11
    let src := r.b.toNat
    let act := g.active x
    gate g x true [(.v a (laneRegs src) act, q.wa)] [.v d (laneRegs dst) act]
    return g.writeRounded x act d dst fun rd l =>
      let y := vcvtElem rd src dst (g.codeElem a l src)
      (y.1, y.2, g.vpois a (laneRegs src) l)) s

/-- The 32-bit type that a packed type is made from and unpacked to (R329, R330): F32 for floats and MXINT8, S32 for
integers. -/
def wideOf (t : Nat) : Nat := if t ≤ 4 then 5 else 11

/-- Pack the converted elements of a lane, element k from (register, k-th), in element order with one draw each (R262,
R329). -/
def packLane (g h : Group) (x : Pfx) (t bits l : Nat) : List Nat → Nat → Nat → Exc → Nat × Exc × Group
  | [], _, acc, e => (acc, e, h)
  | k :: ks, i, acc, e =>
    let dr := h.takeDraw x
    let y := vcvtElem (g.rnd x dr.1) (wideOf t) t (g.vel k l).val.toNat
    packLane g dr.2 x t bits l ks (i + 1) (acc + y.1 % 2 ^ bits * 2 ^ (bits * i)) (e ||| y.2)

/-- A packing instruction (R329): n registers from a, then n from b, as elements of `bits` bits. -/
def packIssue (i : Instr) (x : Pfx) (r : RRR) (dflt n bits : Nat) : State → Host.Outcome State Fault Refusal :=
  issueG i fun g => do
    let q := rrrAt r x g.repIdx
    let a := q.a.toNat
    let b := q.b.toNat
    let d := q.d.toNat
    let t := typeOr x dflt
    let act := g.active x
    gate g x true [(.v a n act, q.wa), (.v b n act, q.wb)] [.v d 1 act]
    let regs := (List.range n).map (a + ·) ++ (List.range n).map (b + ·)
    return g.eachLane act fun h l =>
      let y := packLane g h x t bits l regs 0 0 0
      let pz := g.vpois a n l || g.vpois b n l || (g.trapen.getLsbD 0 && y.2.1.getLsbD 0)
      (y.2.2.writeV d l (BitVec.ofNat 32 y.1) pz).raise y.2.1

/-- VPACK2 (R329). -/
def execVpack2 (x : Pfx) (r : RRR) (s : State) : Host.Outcome State Fault Refusal :=
  packIssue (.vpack2 x r) x r 10 1 16 s

/-- VPACK4 (R329). -/
def execVpack4 (x : Pfx) (r : RRR) (s : State) : Host.Outcome State Fault Refusal :=
  packIssue (.vpack4 x r) x r 12 2 8 s

/-- An unpacked element (R330): exact; a signalling NaN becomes canonical and sets NV. -/
def unpackElem (g : Group) (t w : Nat) : Nat × Exc := vcvtElem ⟨0, 0, false, g.ftz⟩ t (wideOf t) w

/-- An unpacking instruction (R330): element k of n, from bit `lo + bits * k` of a, to register d + k. -/
def unpackIssue (i : Instr) (x : Pfx) (r : RRR) (dflt n bits lo : Nat) : State → Host.Outcome State Fault Refusal :=
  issueG i fun g => do
    let q := rrrAt r x g.repIdx
    let a := q.a.toNat
    let d := q.d.toNat
    let t := typeOr x dflt
    let act := g.active x
    gate g x true [(.v a 1 act, q.wa)] [.v d n act]
    return g.eachLane act fun h l =>
      (List.range n).foldl (fun h k =>
        let y := unpackElem g t ((g.vel a l).val.toNat / 2 ^ (lo + bits * k) % 2 ^ bits)
        let pz := g.vpois a 1 l || (g.trapen.getLsbD 0 && y.2.getLsbD 0)
        (h.writeV (d + k) l (BitVec.ofNat 32 y.1) pz).raise y.2) h

/-- VUNPK2LO (R330). -/
def execVunpk2lo (x : Pfx) (r : RRR) (s : State) : Host.Outcome State Fault Refusal :=
  unpackIssue (.vunpk2lo x r) x r 10 1 16 0 s

/-- VUNPK2HI (R330). -/
def execVunpk2hi (x : Pfx) (r : RRR) (s : State) : Host.Outcome State Fault Refusal :=
  unpackIssue (.vunpk2hi x r) x r 10 1 16 16 s

/-- VUNPK4 (R330). -/
def execVunpk4 (x : Pfx) (r : RRR) (s : State) : Host.Outcome State Fault Refusal :=
  unpackIssue (.vunpk4 x r) x r 12 4 8 0 s

/-- emax of an MX element format (R271). -/
def mxEmax (t : Nat) : Int :=
  match t with
  | 12 => 8
  | 13 => 15
  | 14 => 4
  | 15 => 2
  | 16 => 2
  | _ => 0

/-- The exponent e of a block of F32 values (R271), and whether the block holds a NaN or an infinity. -/
def mxScale (t : Nat) (xs : List Fl) : Int × Bool :=
  let bad := xs.any fun v => match v with
    | .fin .. => false
    | _ => true
  let tops := xs.filterMap fun v => match v with
    | .fin _ m e => if m = 0 then none else some (e + (bitLen m : Int) - 1)
    | _ => none
  match tops with
  | [] => (-127, bad)
  | y :: ys => (max (-127) (min 127 (ys.foldl max y - mxEmax t)), bad)

/-- A value divided by 2^e, exactly. -/
def Fl.scale (v : Fl) (e : Int) : Fl :=
  match v with
  | .fin n m k => .fin n m (k - e)
  | v => v

/-- One element of a drained block (R271): the value over 2^e converted with saturate 1. -/
def mxElem (t : Nat) (mode draw : Nat) (e : Int) (v : Fl) : Nat × Exc :=
  let rd : Rnd := ⟨mode, draw, true, false⟩
  match t with
  | 18 => let y := flToBounded rd (-127) 127 6 (v.scale e); (encodeInt 8 y.1, y.2)
  | _ => (fmtOf t).ofFl rd (v.scale e)

/-- VQSCL (R331): the MX drain over blocks of 32 lanes, the elements decoded as F32 and the scale byte. -/
def execVqscl (x : Pfx) (r : RRR) (s : State) : Host.Outcome State Fault Refusal :=
  issueG (.vqscl x r) (fun g => do
    let q := rrrAt r x g.repIdx
    let a := q.a.toNat
    let d := q.d.toNat
    let t := typeOr x 12
    let act := g.active x
    gate g x true [(.v a 1 act, q.wa)] [.v d 2 act]
    let blk (l : Nat) : List Nat := (lanesOf g.width act).filter fun j => j / 32 = l / 32
    return g.eachLane act fun h l =>
      let dr := h.takeDraw x
      let sc := mxScale t ((blk l).map fun j => g.flval .f32 a j)
      let pz := (blk l).any fun j => g.vpois a 1 j
      if sc.2 then
        let pn := pz || g.trapen.getLsbD 0
        ((dr.2.writeV d l 0 pn).writeV (d + 1) l 0xFF pn).raise Exc.nv
      else
        let y := mxElem t x.m.round.toNat dr.1 sc.1 (g.flval .f32 a l)
        let w := (convert ⟨0, 0, false, false⟩ ((Ty.ofCode t).getD .mxi8) (.flt .f32) y.1).1
        let pn := pz || (g.trapen.getLsbD 0 && y.2.getLsbD 0)
        ((dr.2.writeV d l (BitVec.ofNat 32 w) pn).writeV (d + 1) l (BitVec.ofInt 32 (sc.1 + 127)) pn).raise y.2) s

end Sys2Proof.Machine
end

