-- ==== Sys2Proof/Machine/Cross.lean ====
section
/-!
DEFINITION. Cross-lane and predicate instructions, majors 0x20 to 0x22 (R273, R274, R332 to R337).
-/
namespace Sys2Proof.Machine

/-- A shuffle (R332): each active lane takes the element of lane j of its tile when j is in range and active, its own
otherwise; `pz l` is the poison of the lane's index. -/
def shuffle (g : Group) (x : Pfx) (d a : Nat) (idx : Nat → Option Nat) (pz : Nat → Bool) : Group :=
  let t := typeOr x 5
  let act := g.active x
  g.writeLanes act d t fun l =>
    let base := l - l % g.tileSize
    let k := match idx l with
      | some j => if act.getLsbD (base + j) then base + j else l
      | none => l
    (g.velem a k t (laneBits t), 0, g.vpois a (laneRegs t) k || pz l)

/-- VSHFL (R332): the index is a lane word of vb (log 27). -/
def execVshfl (x : Pfx) (r : RRR) (s : State) : Host.Outcome State Fault Refusal :=
  issueG (.vshfl x r) (fun g => do
    let q := rrrAt r x g.repIdx
    let a := q.a.toNat
    let b := q.b.toNat
    let n := laneRegs (typeOr x 5)
    let act := g.active x
    gate g x true [(.v a n act, q.wa), (.v b 1 act, q.wb)] [.v q.d.toNat n act]
    return shuffle g x q.d.toNat a (fun l => some ((g.vel b l).val.toNat % g.tileSize)) (fun l => (g.vel b l).pois)) s

/-- A shuffle by a scalar count (R332). -/
def shuffleBy (i : Instr) (x : Pfx) (r : RRR) (idx : Nat → Nat → Nat → Option Nat) :
    State → Host.Outcome State Fault Refusal :=
  issueG i fun g => do
    let q := rrrAt r x g.repIdx
    let a := q.a.toNat
    let b := q.b.toNat
    let n := laneRegs (typeOr x 5)
    let act := g.active x
    gate g x true [(.v a n act, q.wa), (.s b 1, q.wb)] [.v q.d.toNat n act]
    return shuffle g x q.d.toNat a (fun l => idx g.tileSize (l % g.tileSize) (g.sv b).toNat) (fun _ => g.spois b 1)

/-- VSHFLUP (R332): lane i - S(b), out of range when negative. -/
def execVshflup (x : Pfx) (r : RRR) (s : State) : Host.Outcome State Fault Refusal :=
  shuffleBy (.vshflup x r) x r (fun _ i n => if n ≤ i then some (i - n) else none) s

/-- VSHFLDN (R332): lane i + S(b), out of range when the tile size or more. -/
def execVshfldn (x : Pfx) (r : RRR) (s : State) : Host.Outcome State Fault Refusal :=
  shuffleBy (.vshfldn x r) x r (fun ts i n => if i + n < ts then some (i + n) else none) s

/-- VSHFLX (R332): lane (i xor S(b)) mod the tile size. -/
def execVshflx (x : Pfx) (r : RRR) (s : State) : Host.Outcome State Fault Refusal :=
  shuffleBy (.vshflx x r) x r (fun ts i n => some ((i ^^^ n) % ts)) s

/-- The active lanes of the tile of the lowest active lane, with the tile's base (R181, R333). -/
def Group.voteTile (g : Group) (act : BitVec 64) : Nat × List Nat :=
  match lanesOf g.width act with
  | [] => (0, [])
  | l :: ls =>
    let base := l - l % g.tileSize
    (base, (l :: ls).filter fun j => decide (j < base + g.tileSize))

/-- A vote (R333): a scalar from the predicate bits of the voting tile.  DEDUCED (log 66): with no lane active, as under
?!p0, it writes what R333 says then. -/
def vote (i : Instr) (x : Pfx) (r : RRR) (f : Nat → List Nat → (Nat → Bool) → Nat) :
    State → Host.Outcome State Fault Refusal :=
  issueG i fun g => do
    let q := rrrAt r x g.repIdx
    let a := q.a.toNat
    gate g x true [(.p a, q.wa)] [.s q.d.toNat 1]
    let t := g.voteTile (g.active x)
    return g.writeS q.d.toNat (BitVec.ofNat 64 (f t.1 t.2 fun j => (g.pel a).bits.getLsbD j)) false

/-- VBALLOT (R333). -/
def execVballot (x : Pfx) (r : RRR) (s : State) : Host.Outcome State Fault Refusal :=
  vote (.vballot x r) x r (fun base ls p => ((ls.filter p).map fun j => 2 ^ (j - base)).sum) s

/-- VANY (R333). -/
def execVany (x : Pfx) (r : RRR) (s : State) : Host.Outcome State Fault Refusal :=
  vote (.vany x r) x r (fun _ ls p => if ls.any p then 1 else 0) s

/-- VALL (R333). -/
def execVall (x : Pfx) (r : RRR) (s : State) : Host.Outcome State Fault Refusal :=
  vote (.vall x r) x r (fun _ ls p => if ls.all p then 1 else 0) s

/-- VMATCH (R334): 1 in the first active holder of each distinct value of the tile; poison is a use, DETAIL 4. -/
def execVmatch (x : Pfx) (r : RRR) (s : State) : Host.Outcome State Fault Refusal :=
  issueG (.vmatch x r) (fun g => do
    let q := rrrAt r x g.repIdx
    let a := q.a.toNat
    let t := typeOr x 5
    let n := laneRegs t
    let act := g.active x
    gate g x true [(.v a n act, q.wa)] [.p q.d.toNat]
    let bad := g.vpoisLanes a n act
    need (bad = 0) (poisonUse 4 bad)
    let v (l : Nat) : Nat := g.velem a l t (laneBits t)
    return g.writeP q.d.toNat act (g.lanesWith act fun l =>
      !((lanesOf g.width act).any fun j => decide (j < l) && decide (j / g.tileSize = l / g.tileSize) && decide (v j = v l)))) s

/-- A partial result of a tree: absent, or an element with its poison. -/
abbrev Part : Type := Option (Nat × Bool)

/-- One node of a tree (R273, R335): combine two present parts, adding the exceptions. -/
def combine (op : Nat → Nat → LRes) (a b : Part) : Part × Exc :=
  match a, b with
  | some x, some y => let v := op x.1 y.1; (some (v.1, x.2 || y.2 || v.2.2), v.2.1)
  | some x, none => (some x, 0)
  | none, y => (y, 0)

/-- One level of the reduction tree of R273 at distance d: lanes L with L mod 2d = 0 take in L + d. -/
def reduceStep (op : Nat → Nat → LRes) (d : Nat) (xs : List Part) : List Part × Exc :=
  let ys := (List.range xs.length).map fun l =>
    if l % (2 * d) = 0 then combine op (xs[l]?.getD none) (xs[l + d]?.getD none) else (xs[l]?.getD none, 0)
  (ys.map (·.1), ys.foldl (fun e y => e ||| y.2) 0)

/-- One level of the inclusive scan of R274 at distance d. -/
def scanStep (op : Nat → Nat → LRes) (d : Nat) (xs : List Part) : List Part × Exc :=
  let ys := (List.range xs.length).map fun l =>
    if d ≤ l then
      match xs[l - d]?.getD none with
      | some y => combine op (some y) (xs[l]?.getD none)
      | none => (xs[l]?.getD none, 0)
    else (xs[l]?.getD none, 0)
  (ys.map (·.1), ys.foldl (fun e y => e ||| y.2) 0)

/-- The levels of a tree at distances 1, 2, 4, ... below n, `fuel` of them. -/
def treeLevels (step : Nat → List Part → List Part × Exc) (n : Nat) : Nat → Nat → List Part → Exc → List Part × Exc
  | 0, _, xs, e => (xs, e)
  | fuel + 1, d, xs, e =>
    if d < n then
      let y := step d xs
      treeLevels step n fuel (2 * d) y.1 (e ||| y.2)
    else (xs, e)

/-- The operation of a tree node: kinds 0 sum, 1 minimum, 2 maximum, 3 and, 4 or; a type code 9 to 11 is a float
(R335). -/
def treeNode (x : Pfx) (t kind a b : Nat) : Nat × Exc :=
  if 9 ≤ t then
    let f := fmtOf t
    let u := f.decode a
    let v := f.decode b
    let rd : Rnd := ⟨x.m.round.toNat, 0, false, false⟩
    match kind with
    | 0 => f.add rd u v
    | 1 => f.minMax false rd u v
    | _ => f.minMax true rd u v
  else
    match kind with
    | 0 => laneClamp x t (laneInt t a + laneInt t b)
    | 1 => lanePlain (if laneInt t a ≤ laneInt t b then a else b)
    | 2 => lanePlain (if laneInt t b ≤ laneInt t a then a else b)
    | 3 => lanePlain (a &&& b)
    | _ => lanePlain (a ||| b)

/-- A tree node in its group: an invalid operation poisons its result where TRAPEN.NV is set (R234). -/
def treeOp (g : Group) (x : Pfx) (t kind a b : Nat) : LRes :=
  let y := treeNode x t kind a b
  (y.1, y.2, g.trapen.getLsbD 0 && y.2.getLsbD 0)

/-- A result of a tree as it is written: a NaN is the canonical one (R257), also where a lone element met no operation, which
raises no exception then (DESIGN CHOICE, log 66). -/
def treeResult (t v : Nat) : Nat := if 9 ≤ t ∧ ((fmtOf t).decode v).isNan = true then (fmtOf t).qnan else v

/-- A reduction or scan (R335): each tile's tree over its active lanes. -/
def treeIssue (i : Instr) (x : Pfx) (r : RRR) (kind : Nat) (scan : Bool) : State → Host.Outcome State Fault Refusal :=
  issueG i fun g => do
    let q := rrrAt r x g.repIdx
    let a := q.a.toNat
    let t := typeOr x 5
    let n := laneRegs t
    let act := g.active x
    gate g x true [(.v a n act, q.wa)] [.v q.d.toNat n act]
    let ts := g.tileSize
    let elem (l : Nat) : Nat :=
      if 9 ≤ t then (g.vel a l).val.toNat % 2 ^ (fmtOf t).bits else g.velem a l t (laneBits t)
    let tile (b : Nat) : List Part := (List.range ts).map fun j =>
      if act.getLsbD (b + j) then some (elem (b + j), g.vpois a n (b + j)) else none
    let step := if scan then scanStep (treeOp g x t kind) else reduceStep (treeOp g x t kind)
    let bases := (List.range (g.width / ts)).map (· * ts)
    let res := bases.map fun b => (b, treeLevels step ts 7 1 (tile b) 0)
    return res.foldl (fun h e =>
      (lanesOf g.width act).foldl (fun h l =>
        if e.1 ≤ l ∧ l < e.1 + ts then
          match e.2.1[if scan then l - e.1 else 0]?.getD none with
          | some y => h.writeElem q.d.toNat l t (treeResult t y.1) y.2
          | none => h
        else h) (h.raise e.2.2)) g

/-- VREDADD (R335). -/
def execVredadd (x : Pfx) (r : RRR) (s : State) : Host.Outcome State Fault Refusal :=
  treeIssue (.vredadd x r) x r 0 false s

/-- VREDMIN (R335). -/
def execVredmin (x : Pfx) (r : RRR) (s : State) : Host.Outcome State Fault Refusal :=
  treeIssue (.vredmin x r) x r 1 false s

/-- VREDMAX (R335). -/
def execVredmax (x : Pfx) (r : RRR) (s : State) : Host.Outcome State Fault Refusal :=
  treeIssue (.vredmax x r) x r 2 false s

/-- VREDAND (R335). -/
def execVredand (x : Pfx) (r : RRR) (s : State) : Host.Outcome State Fault Refusal :=
  treeIssue (.vredand x r) x r 3 false s

/-- VREDOR (R335). -/
def execVredor (x : Pfx) (r : RRR) (s : State) : Host.Outcome State Fault Refusal :=
  treeIssue (.vredor x r) x r 4 false s

/-- VSCANADD (R274, R335). -/
def execVscanadd (x : Pfx) (r : RRR) (s : State) : Host.Outcome State Fault Refusal :=
  treeIssue (.vscanadd x r) x r 0 true s

/-- VSCANMAX (R274, R335). -/
def execVscanmax (x : Pfx) (r : RRR) (s : State) : Host.Outcome State Fault Refusal :=
  treeIssue (.vscanmax x r) x r 2 true s

/-- PART (R181, R336). -/
def execPart (x : Pfx) (r : RRR) (s : State) : Host.Outcome State Fault Refusal :=
  issueG (.part x r) (fun g => .ok { g with part := BitVec.ofNat 64 r.b.toNat }) s

/-- A predicate instruction of two sources (R337). -/
def predTwo (i : Instr) (x : Pfx) (r : RRR) (f : BitVec 64 → BitVec 64 → BitVec 64) :
    State → Host.Outcome State Fault Refusal :=
  issueG i fun g => do
    let q := rrrAt r x g.repIdx
    gate g x true [(.p q.a.toNat, q.wa), (.p q.b.toNat, q.wb)] [.p q.d.toNat]
    return g.writeP q.d.toNat (g.active x) (f (g.pel q.a.toNat).bits (g.pel q.b.toNat).bits)

/-- A predicate instruction of one source; `f` gets the source bits and the active mask (R337). -/
def predOne (i : Instr) (x : Pfx) (r : RRR) (f : Group → BitVec 64 → BitVec 64 → BitVec 64) :
    State → Host.Outcome State Fault Refusal :=
  issueG i fun g => do
    let q := rrrAt r x g.repIdx
    gate g x true [(.p q.a.toNat, q.wa)] [.p q.d.toNat]
    return g.writeP q.d.toNat (g.active x) (f g (g.pel q.a.toNat).bits (g.active x))

/-- PAND (R337). -/
def execPand (x : Pfx) (r : RRR) (s : State) : Host.Outcome State Fault Refusal :=
  predTwo (.pand x r) x r (fun a b => a &&& b) s

/-- POR (R337). -/
def execPor (x : Pfx) (r : RRR) (s : State) : Host.Outcome State Fault Refusal :=
  predTwo (.por x r) x r (fun a b => a ||| b) s

/-- PXOR (R337). -/
def execPxor (x : Pfx) (r : RRR) (s : State) : Host.Outcome State Fault Refusal :=
  predTwo (.pxor x r) x r (fun a b => a ^^^ b) s

/-- PANDN (R337). -/
def execPandn (x : Pfx) (r : RRR) (s : State) : Host.Outcome State Fault Refusal :=
  predTwo (.pandn x r) x r (fun a b => a &&& ~~~b) s

/-- PNOT (R337). -/
def execPnot (x : Pfx) (r : RRR) (s : State) : Host.Outcome State Fault Refusal :=
  predOne (.pnot x r) x r (fun _ a _ => ~~~a) s

/-- PMOV (R337). -/
def execPmov (x : Pfx) (r : RRR) (s : State) : Host.Outcome State Fault Refusal :=
  predOne (.pmov x r) x r (fun _ a _ => a) s

/-- PCNT (R337): the number of active lanes of the group with the bit set.  DEDUCED (log 66): 0 with no lane active, as
under ?!p0. -/
def execPcnt (x : Pfx) (r : RRR) (s : State) : Host.Outcome State Fault Refusal :=
  issueG (.pcnt x r) (fun g => do
    let q := rrrAt r x g.repIdx
    gate g x true [(.p q.a.toNat, q.wa)] [.s q.d.toNat 1]
    return g.writeS q.d.toNat
      (BitVec.ofNat 64 (lanesOf g.width (g.active x &&& (g.pel q.a.toNat).bits)).length) false) s

/-- PFIRST (R337): 1 in the lowest active lane of the group whose bit is set. -/
def execPfirst (x : Pfx) (r : RRR) (s : State) : Host.Outcome State Fault Refusal :=
  predOne (.pfirst x r) x r (fun g a act =>
    match lanesOf g.width (act &&& a) with
    | [] => 0
    | l :: _ => oneLane l) s

end Sys2Proof.Machine
end

