-- ==== Sys2Proof/Machine/Matrix.lean ====
section
/-!
DEFINITION. The matrix unit: accumulators and their ownership (R187, R375 to R379), speculative regions (R184, R185,
R388), and the status instructions of majors 0x2B and 0x2C.
-/
namespace Sys2Proof.Machine

/-! ### Accumulators -/

/-- The key of accumulator i of a group's core in its team's table (R375). -/
def Team.accKey (t : Team) (g : Group) (i : Nat) : Nat := (g.core - t.core) * 16 + i

/-- An accumulator of a team. -/
def Team.acc (t : Team) (k : Nat) : Acc := Tab.get Acc.zero t.accs k

/-- Set an accumulator of a team. -/
def Team.setAcc (t : Team) (k : Nat) (a : Acc) : Team := { t with accs := Tab.put t.accs k a }

/-- An element of an accumulator. -/
def Acc.el (a : Acc) (i j : Nat) : AEl := Tab.get AEl.zero a.els (128 * i + j)

/-- The accumulator that a group's name reaches. -/
def State.accOf (s : State) (g : Group) (i : Nat) : Acc :=
  match s.team g.team with
  | some t => t.acc (t.accKey g i)
  | none => Acc.zero

/-- Change the accumulator that a group's name reaches. -/
def State.modAcc (s : State) (g : Group) (i : Nat) (f : Acc → Acc) : State :=
  s.modTeam g.team fun t => t.setAcc (t.accKey g i) (f (t.acc (t.accKey g i)))

/-- An accumulator whose contents are undefined after a commit (R185): every element and its poison are free values
(log 4), from a draw's number on. -/
def Acc.undefined (a : Acc) (n : Nat) : Acc :=
  { a with els := (List.range 8192).map fun k =>
      (k, ⟨(Config.freeValue (n + k)).extractLsb' 0 32, (Config.freeValue (n + k)).getLsbD 32⟩) }

/-- The register-window fate of a name (R199). -/
def windowFate : Halt := .fate 0x42 0 0

/-- The speculation-misuse fate (R184). -/
def specFate : Halt := .fate 0x44 0 0

/-- Which accumulator a matrix instruction that names a(i) acts on (R184, R388): a shadow inside an open region; a direct
name of a8 to a15 there is misuse; once the region is decided, a shadowed name waits. -/
def Group.accName (g : Group) (i : Nat) : Run Nat := do
  need (g.accOwned.getLsbD i) windowFate
  match g.spec with
  | none => return i
  | some p =>
    need (decide (i < 8)) specFate
    if !p.shadowed.getLsbD i then return i
    else
      need p.decided.isNone .wait
      return i + 8

/-- The name of an accumulator that MDRAIN or ACCSAVE reads: a shadowed one waits until the region closes (R184). -/
def Group.accRead (g : Group) (i : Nat) : Run Nat := do
  need (g.accOwned.getLsbD i) windowFate
  match g.spec with
  | none => return i
  | some p =>
    need (decide (i < 8)) specFate
    need (!p.shadowed.getLsbD i) .wait
    return i

/-- Whether an operation pending in the matrix unit still reads accumulator k of a team (R376): those with a number below
`before`. -/
def State.accBusy (s : State) (team k before : Nat) : Bool :=
  s.matops.any fun e => decide (e.1 < before) && e.2.team = team && (e.2.op = 7 || e.2.op = 8) &&
    match s.team team with
    | some t => (e.2.core - t.core) * 16 + e.2.acc = k
    | none => false

/-- Whether an accumulator may be written at issue: it is full and no pending operation still reads it (R194, R376). -/
def State.accFree (s : State) (g : Group) (i : Nat) : Run Unit := do
  need (s.accOf g i).full .waitEmpty
  match s.team g.team with
  | some t => need (!s.accBusy g.team (t.accKey g i) s.nextId) .wait
  | none => return ()

/-- The names below 16 that a mask holds. -/
def accsIn (m : BitVec 16) : List Nat := (List.range 16).filter fun i => m.getLsbD i

/-! ### Ownership: MTILE (R378) -/

/-- Release the accumulators of a mask that a group owns. -/
def State.releaseAccs (s : State) (g : Group) (m : BitVec 16) : State × Group :=
  ((accsIn m).foldl (fun s i => s.modAcc g i fun a => { a with owner := none }) s, { g with accOwned := g.accOwned &&& ~~~m })

/-- Take the accumulators of a mask. -/
def State.takeAccs (s : State) (g : Group) (m : BitVec 16) : State × Group :=
  ((accsIn m).foldl (fun s i => s.modAcc g i fun a => { a with owner := some (gkey g.core g.slot) }) s,
    { g with accOwned := m })

/-- Whether every accumulator of a mask is free or the group's own. -/
def State.accsFree (s : State) (g : Group) (m : BitVec 16) : Bool :=
  (accsIn m).all fun i => (s.accOf g i).owner.all fun o => o = gkey g.core g.slot

/-- Whether an older group of the core waits in MTILE (R214, R378). -/
def State.olderTile (s : State) (g : Group) : Bool :=
  s.groups.any fun e => e.2.core = g.core && e.2.tileOld.isSome && e.2.team = g.team &&
    (decide (e.2.startedAt < g.startedAt) || (e.2.startedAt = g.startedAt && decide (e.2.slot < g.slot)))

/-- The part of MTILE that a group's own issue completes (R378): its mask when it can be taken now (log 40). -/
def tileBody (r : RRR) (s : State) (g : Group) : Run (State × Group) := do
  let a := r.a.toNat
  let m := (g.sv a).extractLsb' 0 16
  let aregs := ((s.team g.team).map Team.aregs).getD 0
  let known := (g.sel a).full && !(g.sel a).pois
  need (!known || decide (m.toNat < 2 ^ aregs)) windowFate
  need g.spec.isNone specFate
  gate g Pfx.none false [(.s a 1, r.wa)] [.s r.d.toNat 1]
  need (!g.spois a 1) (poisonUse 3 0)
  let old := g.tileOld.getD g.accOwned
  need ((accsIn (g.accOwned &&& ~~~m)).all fun i => (s.accOf g i).full) .wait
  need (s.accsFree g m && (g.tileOld.isNone || !s.olderTile g)) .wait
  let q := s.releaseAccs g (g.accOwned &&& ~~~m)
  let q := q.1.takeAccs q.2 m
  return (q.1, { q.2 with tileOld := none }.writeS r.d.toNat (old.zeroExtend 64) false)

/-- What a group that goes on to wait in MTILE does (R378): once what it gives up is full and some accumulator it wants
is another's, it releases all it owns. -/
def State.tileWait (s : State) (core slot : Nat) (r : RRR) : State :=
  match s.group core slot with
  | some g =>
    let m := (g.sv r.a.toNat).extractLsb' 0 16
    if g.waiting && !g.onEmpty && g.canIssue && g.tileOld.isNone &&
        ((accsIn (g.accOwned &&& ~~~m)).all fun i => (s.accOf g i).full) && !s.accsFree g m then
      let q := s.releaseAccs g g.accOwned
      q.1.setGroup { q.2 with tileOld := some g.accOwned }
    else s
  | none => s

/-- MTILE (R378). -/
def execMtile (x : Pfx) (r : RRR) (s : State) : Host.Outcome State Fault Refusal :=
  match issueS (.mtile x r) (fun _ g => let e := g.sel r.a.toNat; e.full && !e.pois && decide (2 ^ 16 ≤ e.val.toNat))
      (tileBody r) s, s.cur with
  | .next t, some (c, k) => .next (t.tileWait c k r)
  | o, _ => o

/-- MZERO (R379). -/
def execMzero (x : Pfx) (r : RRR) (s : State) : Host.Outcome State Fault Refusal :=
  issueS (.mzero x r) noLimit (fun s g => do
    let i ← g.accName r.d.toNat
    s.accFree g i
    return (s.modAcc g i fun a => { a with els := [] }, g)) s

/-! ### Speculative regions (R184, R185, R388) -/

/-- Finish a loop that ran into a shadow when its region closes (R388): its status fills, with bit 33 and no flags on a
discard. -/
def State.closeLoop (s : State) (id : Nat) (m : MatOp) (commit : Bool) : State :=
  let s := { s with matops := Tab.drop s.matops id }
  let s := if commit then s.modGroup m.core m.slot fun g => g.raise m.exc else s
  if m.op = 9 then s
  else s.fillToken m.core m.slot m.dst m.pc m.seq (if commit then m.status else m.status ||| (1#64 <<< 33)) false

/-- Whether a decided region can take effect: every shadow is full (R388), and on a commit no operation issued earlier
still reads an accumulator that takes its shadow (R376). -/
def State.specReady (s : State) (g : Group) (p : Spec) (commit : Bool) : Bool :=
  (List.range 8).all fun i => !p.shadowed.getLsbD i || ((s.accOf g (i + 8)).full &&
    !(commit && (s.team g.team).any fun t => s.accBusy g.team (t.accKey g i) s.nextId))

/-- Resolve a region (R185): on commit each accumulator takes its shadow, whose contents are then undefined; statuses
fill; a poisoned condition is a poison use of the MSPEC under the boundary rule. -/
def State.resolveSpec (s : State) (g : Group) (p : Spec) (commit : Bool) : State :=
  let is := (List.range 8).filter fun i => p.shadowed.getLsbD i
  let s := is.foldl (fun (s : State) i =>
    if commit then
      let sh := s.accOf g (i + 8)
      let n := s.freeCount
      ({ s with freeCount := n + 8192 }.modAcc g i fun a => { a with els := sh.els }).modAcc g (i + 8) fun a => a.undefined n
    else s) s
  let s := s.modGroup g.core g.slot fun g => { g with
    spec := none
    late := if p.poisoned then g.late ++ [⟨0x05, .boundary, 0, []⟩] else g.late }
  let s := if p.poisoned then
      s.emit (dieOf g.core) (record0 (0#32 ++ p.word) 0 p.pc 0 0x05 p.seq g.asid g.core g.slot)
    else s
  (s.matops.filter fun e => e.2.core = g.core && e.2.slot = g.slot && e.2.shadow && e.2.finished).foldl
    (fun s e => s.closeLoop e.1 e.2 commit) s

/-- SPEC_RESOLUTION (R388): a decided region whose shadows are full takes effect. -/
def execSpecResolution (core slot : Nat) (s : State) : Host.Outcome State Fault Refusal :=
  match s.group core slot with
  | some g =>
    match g.spec with
    | some p =>
      match p.decided with
      | some commit => .next (if s.specReady g p commit then s.resolveSpec g p commit else s)
      | none => .next s
    | none => .next s
  | none => .next s

/-- MSPEC (R184, R388): the checks, the wait, the copies into the shadows; a condition already full resolves at once. -/
def execMspec (x : Pfx) (r : RRR) (s : State) : Host.Outcome State Fault Refusal :=
  issueS (.mspec x r) noLimit (fun s g => do
    let (a, b) := (r.a.toNat, r.b.toNat)
    need g.spec.isNone specFate
    let is := (List.range 8).filter fun i => g.accOwned.getLsbD i
    need (is.all fun i => g.accOwned.getLsbD (i + 8)) specFate
    gate g x false [(.s b 1, r.wb)] []
    need (!g.spois b 1) (poisonUse 3 0)
    need (is.all fun i => (s.accOf g i).full && (s.accOf g (i + 8)).full) .wait
    for i in is do s.accFree g (i + 8)
    let s := is.foldl (fun s i => s.modAcc g (i + 8) fun q => { q with els := (s.accOf g i).els }) s
    let c := g.sel a
    let p : Spec := {
      cond := r.a, pred := g.sv b, shadowed := BitVec.ofNat 8 (is.map (2 ^ ·)).sum, decided := none
      poisoned := c.full && c.pois, pc := g.pc, seq := g.seqNo, word := ((Instr.mspec x r).code.map Code.word).getD 0 }
    if c.full then
      let s := (s.setGroup g).resolveSpec g p (c.val = p.pred && !c.pois)
      return (s, (s.group g.core g.slot).getD g)
    else return (s, { g with spec := some p })) s

/-- The body of MCOMMIT and MDISCARD (R185, R388): they decide an open region that is not decided. -/
def forceBody (commit : Bool) (s : State) (g : Group) : Run (State × Group) :=
  match g.spec with
  | none => .error specFate
  | some p =>
    if p.decided.isSome then .ok (s, g)
    else
      let p := { p with decided := some commit }
      let g := { g with spec := some p }
      if s.specReady g p commit then
        let s := (s.setGroup g).resolveSpec g p commit
        .ok (s, (s.group g.core g.slot).getD g)
      else .ok (s, g)

/-- MCOMMIT (R185, R388). -/
def execMcommit (x : Pfx) (s : State) : Host.Outcome State Fault Refusal :=
  issueS (.mcommit x) noLimit (forceBody true) s

/-- MDISCARD (R185, R388). -/
def execMdiscard (x : Pfx) (s : State) : Host.Outcome State Fault Refusal :=
  issueS (.mdiscard x) noLimit (forceBody false) s

/-- The operations of a group pending in the matrix unit (R376). -/
def State.matOf (s : State) (core slot : Nat) : Nat := s.matops.count fun m => m.core = core && m.slot = slot

/-- MWAIT (R384). -/
def execMwait (x : Pfx) (s : State) : Host.Outcome State Fault Refusal :=
  issueS (.mwait x) noLimit (fun s g => do
    need (s.matOf g.core g.slot = 0) .wait
    return (s, g)) s

/-- MSTAT (R384). -/
def execMstat (x : Pfx) (r : RRR) (s : State) : Host.Outcome State Fault Refusal :=
  issueS (.mstat x r) noLimit (fun s g => do
    gate g x false [] [.s r.d.toNat 1]
    let sh : BitVec 8 := (g.spec.map Spec.shadowed).getD 0
    let v := g.accOwned.toNat + sh.toNat * 2 ^ 16 + (if g.spec.isSome then 2 ^ 24 else 0) + s.matOf g.core g.slot * 2 ^ 25
    return (s, g.writeS r.d.toNat (BitVec.ofNat 64 v) false)) s

end Sys2Proof.Machine
end

