-- ==== Sys2Proof/Machine/Loops.lean ====
section
/-!
DEFINITION. The matrix unit's pending operations (R376): matrix loops with the sums of R272 (R380 to R383), drains (R271,
R385, R386), and accumulator images (R198, R387).
-/
namespace Sys2Proof.Machine

/-! ### Operands of a loop (R380) -/

/-- An operand register captured at issue. -/
def MatOp.r (m : MatOp) (k : Nat) : BitVec 64 := m.regs.getD k 0
/-- The rows of A. -/
def MatOp.mm (m : MatOp) : Nat := fld m.ctl 4 7 + 1
/-- The rows of B: the output columns. -/
def MatOp.nn (m : MatOp) : Nat := fld m.ctl 11 7 + 1
/-- The type code of an operand: A, else B. -/
def MatOp.ty (m : MatOp) (isA : Bool) : Nat := if isA then fld m.ctl 18 5 else fld m.ctl 23 5
/-- The space of an operand and its scales. -/
def MatOp.sp (m : MatOp) (isA : Bool) : Nat := if isA then fld m.ctl 28 3 else fld m.ctl 31 3
/-- K. -/
def MatOp.kk (m : MatOp) : Nat := fld (m.r 3) 0 32

/-- Whether a type code is an MX element type. -/
def isMx (t : Nat) : Bool := (12 ≤ t && t ≤ 16) || t = 18

/-- The terms of a K-block (R272, R381). -/
def kBlock (t : Nat) : Nat := if isMx t then 32 else if t = 11 then 4 else 16

/-- The number of K-blocks. -/
def MatOp.nb (m : MatOp) : Nat := (m.kk + kBlock (m.ty true) - 1) / kBlock (m.ty true)

/-- The width of an element in bits. -/
def elemBits (t : Nat) : Nat := match Ty.ofCode t with | some y => y.bits | none => 32

/-- The terms of block `blk` that lie below K. -/
def MatOp.terms (m : MatOp) (blk : Nat) : Nat := min (kBlock (m.ty true)) (m.kk - blk * kBlock (m.ty true))

/-- The address of a row's block of an operand. -/
def MatOp.rowAddr (m : MatOp) (isA : Bool) (i blk : Nat) : BitVec 64 :=
  (if isA then m.r 0 else m.r 1) +
    BitVec.ofNat 64 (i * (if isA then fld (m.r 2) 0 32 else fld (m.r 2) 32 32) + blk * kBlock (m.ty true) * elemBits (m.ty isA) / 8)

/-- The number of 4-byte words of a row's block. -/
def MatOp.rowWords (m : MatOp) (isA : Bool) (blk : Nat) : Nat := (m.terms blk * elemBits (m.ty isA) + 31) / 32

/-- The address of a row's scale of a block. -/
def MatOp.scaleAddr (m : MatOp) (isA : Bool) (i blk : Nat) : BitVec 64 :=
  (if isA then m.r 4 else m.r 5) + BitVec.ofNat 64 (i * (m.kk / 32) + blk)

/-- The words that a K-step fetches, with their spaces: A's rows, B's rows, and for MX types the words that hold the
scales of A's and B's rows. -/
def MatOp.words (m : MatOp) (blk : Nat) : List (Nat × BitVec 64) :=
  let rows (isA : Bool) (n : Nat) : List (Nat × BitVec 64) := (List.range n).flatMap fun i =>
    (List.range (m.rowWords isA blk)).map fun w => (m.sp isA, m.rowAddr isA i blk + BitVec.ofNat 64 (4 * w))
  let scales (isA : Bool) (n : Nat) : List (Nat × BitVec 64) := (List.range n).map fun i =>
    (m.sp isA, m.scaleAddr isA i blk &&& ~~~3#64)
  rows true m.mm ++ rows false m.nn ++
    if isMx (m.ty true) then scales true m.mm ++ scales false m.nn else []

/-! ### Fetching -/

/-- Whether a word lies in fabric space. -/
def isFabricWord (w : Nat × BitVec 64) : Bool := w.1 = 0 && isFabric w.2

/-- The memory operation of a matrix operation in fabric space (R382): units of n bytes. -/
def MatOp.memOp (m : MatOp) (id n : Nat) (kind : MemKind) (lanes : List LaneAcc) : MemOp :=
  { kind := kind, core := m.core, slot := m.slot, gid := m.gid, team := m.team, asid := m.asid, pc := m.pc, repIdx := 0,
    word := m.word, seq := m.seq, space := 0, order := 0, scope := 1, hint := 0, type := 6, bytes := n, aop := 0,
    dstKind := .none, dst := 0, nreg := 1, lanes := lanes, lines := [], per := 1024, mask := 0, writesP := none,
    engine := some (1, id) }

/-- Start the fabric accesses of a matrix operation, and wait for them. -/
def State.matFabric (s : State) (id : Nat) (m : MatOp) (n : Nat) (kind : MemKind) (lanes : List LaneAcc) : State :=
  let o := m.memOp id n kind lanes
  let q := s.newId
  { q.1 with
    memops := Tab.put q.1.memops q.2 { o with lines := q.1.fabLines o }
    matops := Tab.put q.1.matops id { m with wait := some q.2 } }.pump

/-- Start the fabric reads among a list of words. -/
def State.matRead (s : State) (id : Nat) (m : MatOp) (ws : List (Nat × BitVec 64)) : State :=
  s.matFabric id m 4 .engine (((List.range ws.length).zip ws).filterMap fun w =>
    if isFabricWord w.2 then some { laneReq w.1 w.2.2 0 0 with at_ := .fabric } else none)

/-- The words of a list, from word i on, with their poison: those in fabric space as the operation's answers hold them. -/
def State.matWords (s : State) (m : MatOp) (got : Option MemOp) : Nat → List (Nat × BitVec 64) → Unit_ (State × List (Nat × Bool))
  | _, [] => .ok (s, [])
  | i, w :: ws => do
    if isFabricWord w then
      let l := (got.bind fun o => o.lanes.find? fun l => l.lane = i).getD (laneReq i 0 0 0)
      let (s, rest) ← State.matWords s m got (i + 1) ws
      return (s, (l.data.toNat % 2 ^ 32, l.pois) :: rest)
    else
      let (s, k) ← s.enginePlace m.core m.asid m.team none w.1 w.2 0
      let v := (s.readLE k 4, s.isPoisoned k 4)
      let (s, rest) ← State.matWords s m got (i + 1) ws
      return (s, v :: rest)

/-- Whether an operation's region is decided to be discarded, so that it stops (R388). -/
def State.matDiscarded (s : State) (m : MatOp) : Bool :=
  m.shadow && ((s.group m.core m.slot).bind Group.spec).any fun p => p.decided = some false

/-- A fate of an operation's own access: a wait; a hold of a loop inside a region (R185); or a stop at its K-step with a
late fault (R382, R387); what it read before keeps its marks (R26), and a loop that faults resumes alone, with reads of its own (R383). -/
def State.matFate (s : State) (id : Nat) (m : MatOp) (f : UnitFate) : State :=
  if f.isWait then s.unitHold f
  else
    let s := s.adoptMarks f.seen
    if s.engineHeld id then s
    else { s with matops := Tab.put s.matops id { m with stopped := true, wait := none, mates := [], fetched := [] } }.engineFate m.core
      m.slot m.asid m.pc m.seq m.word f id

/-! ### K-steps (R272, R381) -/

/-- The exact sum of the products of two blocks (R272): NaN, infinities, and the finite part. -/
structure Dot where
  nan : Bool
  pinf : Bool
  ninf : Bool
  v : Int
  e : Int
  exc : Exc
  deriving DecidableEq, Repr

/-- Add a product to a sum. -/
def Dot.add (d : Dot) (p : Fl × Exc) : Dot :=
  let d := { d with exc := d.exc ||| p.2 }
  match p.1 with
  | .nan _ => { d with nan := true }
  | .inf true => { d with ninf := true }
  | .inf false => { d with pinf := true }
  | .fin n m k =>
    let e := min d.e k
    let x : Int := Int.ofNat (m <<< (k - e).toNat)
    { d with v := d.v * (2 : Int) ^ (d.e - e).toNat + (if n then -x else x), e := e }

/-- The block sum rounded once to F32 (R272). -/
def blockSum (xs ys : List Fl) : Nat × Exc :=
  let d := (xs.zip ys).foldl (fun d p => d.add (Fl.mul p.1 p.2)) (⟨false, false, false, 0, 0, 0⟩ : Dot)
  if d.nan then (Fmt.f32.qnan, d.exc)
  else if d.pinf && d.ninf then (Fmt.f32.qnan, d.exc ||| Exc.nv)
  else if d.pinf || d.ninf then (Fmt.f32.infinity d.ninf, d.exc)
  else
    let r := Fmt.f32.roundInt Rnd.rne false d.v d.e
    (r.1, r.2 ||| d.exc)

/-- The elements of a block from its words (R260), under a scale byte for MX types (R270); a NaN scale sets NV
(R266). -/
def blockElems (t n : Nat) (scale : Option Nat) (ws : List (Nat × Bool)) : List Fl :=
  let raw := (ws.foldr (fun w acc => w.1 + 2 ^ 32 * acc) 0)
  let b := elemBits t
  (List.range n).map fun q =>
    let x := ((Ty.ofCode t).getD .mxi8).value (raw / 2 ^ (b * q) % 2 ^ b)
    match scale with
    | none => x
    | some 255 => .nan true
    | some sc => x.scale (127 - Int.ofNat sc)

/-- The rows of an operand of a K-step: each row's elements and whether any word of it is poisoned. -/
def MatOp.rowsOf (m : MatOp) (isA : Bool) (blk : Nat) (ws scales : List (Nat × Bool)) : List (List Fl × Bool) :=
  let nw := m.rowWords isA blk
  (List.range (if isA then m.mm else m.nn)).map fun i =>
    let row := (ws.drop (i * nw)).take nw
    let sc := scales.getD i (0, false)
    let byte := sc.1 / 2 ^ (8 * ((m.scaleAddr isA i blk).toNat % 4)) % 256
    let mx := isMx (m.ty true)
    (blockElems (m.ty isA) (m.terms blk) (if mx then some byte else none) row, row.any (·.2) || (mx && sc.2))

/-- One K-step on an accumulator: the new elements and the exceptions (R272, R381). -/
def MatOp.kStep (m : MatOp) (a : Acc) (ra rb : List (List Fl × Bool)) : Acc × Exc :=
  let cells := (List.range ra.length).flatMap fun i => (List.range rb.length).map fun j => (i, j)
  cells.foldl (fun (q : Acc × Exc) ij =>
    let x := ra.getD ij.1 ([], false)
    let y := rb.getD ij.2 ([], false)
    let old := q.1.el ij.1 ij.2
    let b := blockSum x.1 y.1
    let r := Fmt.f32.add Rnd.rne (Fmt.f32.decode old.val.toNat) (Fmt.f32.decode b.1)
    let exc := b.2 ||| r.2
    let el : AEl := ⟨BitVec.ofNat 32 r.1, old.pois || x.2 || y.2 || (m.trapNv && exc.getLsbD 0)⟩
    ({ q.1 with els := Tab.set AEl.zero q.1.els (128 * ij.1 + ij.2) el }, q.2 ||| exc)) (a, 0)

/-- The actual accumulator number of an operation. -/
def MatOp.accNo (m : MatOp) : Nat := if m.shadow then m.acc + 8 else m.acc

/-- The key of an operation's accumulator in its team's table. -/
def Team.opKey (t : Team) (m : MatOp) : Nat := (m.core - t.core) * 16 + m.accNo

/-- Change an operation's accumulator. -/
def State.modOpAcc (s : State) (m : MatOp) (f : Acc → Acc) : State :=
  s.modTeam m.team fun t => t.setAcc (t.opKey m) (f (t.acc (t.opKey m)))

/-- An operation's accumulator. -/
def State.opAcc (s : State) (m : MatOp) : Acc :=
  match s.team m.team with
  | some t => t.acc (t.opKey m)
  | none => Acc.zero

/-- The M × N region of an operation's accumulator at +0 before the first K-block of a loop with ZERO (R381). -/
def State.zeroAcc (s : State) (m : MatOp) : State :=
  if (m.op = 5 || m.op = 6) && m.ctl.getLsbD 34 && m.kdone = 0 then
    s.modOpAcc m fun a => { a with els := (List.range m.mm).foldl (fun t i => (List.range m.nn).foldl (fun t j =>
      Tab.set AEl.zero t (128 * i + j) AEl.zero) t) a.els }
  else s

/-- The status of a loop (R381). -/
def State.loopStatus (s : State) (m : MatOp) : BitVec 64 :=
  let a := s.opAcc m
  let pz := (List.range m.mm).any fun i => (List.range m.nn).any fun j => (a.el i j).pois
  BitVec.ofNat 64 (m.kdone + if pz then 2 ^ 32 else 0)

/-- The end of a loop or load (R376, R381, R388): its accumulator and, outside a region, its status fill. -/
def State.matEnd (s : State) (id : Nat) (m : MatOp) : State :=
  let s := (s.unlock m.core id).modOpAcc m fun a => { a with full := true }
  if m.op = 9 then
    let s := { s with matops := Tab.drop s.matops id }
    match s.group m.core m.slot with
    | some g => s.trace g 1 3 m.pc m.seq (Tab.get AEl.zero (s.opAcc m).els 0).val.toNat
    | none => s
  else
    let m := { m with status := s.loopStatus m, finished := true, wait := none }
    if m.shadow then { s with matops := Tab.put s.matops id m } else s.closeLoop id m true

/-- Whether an operation may go on: no earlier operation still reads its accumulator (R376), and no earlier access of its
group touches its ranges (R143). -/
def State.matReady (s : State) (id : Nat) (m : MatOp) : Bool :=
  !(s.follows m.core m.slot id (s.spansOf m.core id)) &&
    match s.team m.team with
    | some t => m.op = 7 || m.op = 8 || !s.accBusy m.team (t.opKey m) id
    | none => false

/-- Give the words of A that a member of a share group has read for a K-block to the members that have none yet (R383). -/
def State.shareA (s : State) (id : Nat) (m : MatOp) (ws : List (Nat × Bool)) : State :=
  { s with matops := s.matops.map fun e =>
      if m.mates.contains e.1 && e.2.mates.contains id && !(e.2.fetched.any fun f => f.1 = m.kdone) then
        (e.1, { e.2 with fetched := (m.kdone, ws) :: e.2.fetched })
      else e }

/-- A K-step on fetched words (R381); those of A are the share group's one read where a member has made it (R383). -/
def State.loopStep (s : State) (id : Nat) (m : MatOp) (got : Option MemOp) : State :=
  match s.matWords m got 0 (m.words m.kdone) with
  | .error f => s.matFate id m f
  | .ok (s, ws) =>
    let na := m.mm * m.rowWords true m.kdone
    let nb := m.nn * m.rowWords false m.kdone
    let own := ws.take na ++ (ws.drop (na + nb)).take m.mm
    let as_ := ((m.fetched.find? fun f => f.1 = m.kdone).map (·.2)).getD own
    let ra := m.rowsOf true m.kdone as_ (as_.drop na)
    let rb := m.rowsOf false m.kdone (ws.drop na) ((ws.drop (na + nb)).drop m.mm)
    let r := m.kStep (s.opAcc m) ra rb
    let s := if m.op = 6 then s.shareA id m as_ else s
    let m := { m with
      fetched := if m.op = 6 && !(m.fetched.any fun f => f.1 = m.kdone) then (m.kdone, as_) :: m.fetched else m.fetched
      kdone := m.kdone + 1, exc := m.exc ||| r.2, wait := none }
    let s := { s.modOpAcc m fun _ => r.1 with matops := Tab.put s.matops id m }
    if m.kdone = m.nb then s.matEnd id m else s

/-- MATRIX_K_STEP (R381, R382, R388): a loop fetches and adds its next K-block; the last one ends it, and a discarded
region stops it. -/
def execMatrixKStep (id : Nat) (s : State) : Host.Outcome State Fault Refusal :=
  match Tab.find s.matops id with
  | none => .next s
  | some m =>
    if (m.op != 5 && m.op != 6) || m.stopped || m.finished then .next s
    else if s.matDiscarded m || m.kdone = m.nb then
      .next ((s.engineDrop 1 id).matEnd id { m with wait := none })
    else
      match m.wait with
      | some k =>
        match Tab.find s.memops k with
        | some o =>
          if o.isDone then .next ({ s with memops := Tab.drop s.memops k }.loopStep id { m with wait := none } (some o))
          else .next s
        | none => .next s
      | none =>
        if !s.matReady id m then .next s
        else
          let s := s.zeroAcc m
          if (m.words m.kdone).any isFabricWord then .next (s.matRead id m (m.words m.kdone))
          else .next (s.loopStep id m none)

/-! ### Issue -/

/-- An operation of the matrix unit as an instruction issues it. -/
def newMat (g : Group) (i : Instr) (x : Pfx) (op dst acc named : Nat) (regs : List (BitVec 64)) (ctl : BitVec 64) : MatOp :=
  { op := op, core := g.core, slot := g.slot, gid := g.gid, team := g.team, asid := g.asid, dst := dst, acc := named,
    shadow := acc != named, pc := g.pc, seq := g.seqNo, word := (i.code.map Code.word).getD 0, modw := modPayload x,
    regs := regs, ctl := ctl, trapNv := g.trapen.getLsbD 0, issuedAt := none, mates := [], fetched := [], kdone := 0, exc := 0, stream := g.rstream, status := 0, stopped := false,
    finished := false, wait := none }

/-- The end of issue of a matrix operation: room in the unit, free ranges (R142, R376), and its registration. -/
def State.launchMat (s : State) (g : Group) (m : MatOp) (rs : List Span) : Run State := do
  s.checkSpans g rs
  need (decide ((s.matops.filter fun e => e.2.core = g.core).length < 16)) .wait
  need (s.locksFree g.core rs.length && !s.lockedOut g.core g.asid rs) .wait
  let n := s.newId
  return { n.1 with matops := Tab.put n.1.matops n.2 m }.lockAll g.core n.2 g.asid rs

/-- The ranges of a loop (R376). -/
def MatOp.loopSpans (m : MatOp) : List Span :=
  let rows (isA : Bool) (n : Nat) : Span :=
    let a := (m.rowAddr isA 0 0).toNat
    ⟨m.sp isA, a, a + (n - 1) * (if isA then fld (m.r 2) 0 32 else fld (m.r 2) 32 32) + (m.kk * elemBits (m.ty isA) + 7) / 8, false⟩
  let scales (isA : Bool) (n : Nat) : Span :=
    let a := (m.scaleAddr isA 0 0).toNat
    ⟨m.sp isA, a, a + n * (m.kk / 32), false⟩
  [rows true m.mm, rows false m.nn] ++ if isMx (m.ty true) then [scales true m.mm, scales false m.nn] else []

/-- The limits of a loop's control word and operands (R380), each judged only when it is not poisoned. -/
def loopBad (q : Bool) (v : Nat → Option (BitVec 64)) (ctl : Option (BitVec 64)) : Bool :=
  let spaces := [0, 2, 3, 4]
  let word4 (w : Option (BitVec 64)) : Bool := w.any fun a => a.toNat % 4 != 0
  (ctl.any fun c =>
    let (ta, tb) := (fld c 18 5, fld c 23 5)
    fld c 43 21 != 0 || (!q && fld c 35 8 != 0) || decide (63 < fld c 4 7) || !spaces.contains (fld c 28 3) ||
      !spaces.contains (fld c 31 3) ||
      !((isMx ta && isMx tb) || (ta = tb && (ta = 9 || ta = 10 || ta = 11)))) ||
  word4 (v 0) || word4 (v 1) || (v 2).any (fun a => fld a 0 2 != 0 || fld a 32 2 != 0) ||
  (v 3).any fun a => fld a 32 32 != 0 || fld a 0 32 = 0 || decide (2 ^ 31 < fld a 0 32) ||
    ctl.any fun c => isMx (fld c 18 5) && fld a 0 5 != 0

/-- Whether a control word, when it is readable, names MX types. -/
def Group.loopMx (g : Group) (b : Nat) : Bool := (g.sel b).full && !(g.sel b).pois && isMx (fld (g.sv b) 18 5)

/-- The number of operand registers of a loop. -/
def Group.loopRegs (g : Group) (b : Nat) : Nat := if g.loopMx b then 6 else 4

/-- The limits of a loop, judged once its operands are full (R339, R373). -/
def loopLimit (q : Bool) (r : RRR) (_ : State) (g : Group) : Bool :=
  let (a, b) := (r.a.toNat, r.b.toNat)
  (Opd.s a (g.loopRegs b)).isFull g && (g.sel b).full && loopBad q (fun k => g.judged (a + k)) (g.judged b)

/-- Form the share group of an MLOOPQ that has just issued, when the other three cores of its quad each have one pending
that issued within 4,096 clk, is in no group yet, and names the same fetch of A (R383): what each has read of A is then
every member's (log 59). Operands in each core's own scratchpad are four fetches, so they form none: the effect is that
of MLOOP. -/
def State.joinShare (s : State) (id : Nat) : State :=
  match Tab.find s.matops id with
  | none => s
  | some m =>
    let fits (c : Nat) (e : Nat × MatOp) : Bool :=
      let n := e.2
      n.op = 6 && n.core = c && n.asid = m.asid && !n.stopped && n.mates.isEmpty &&
        (n.issuedAt.any fun t => decide (s.clk ≤ t + 40960)) && n.r 0 = m.r 0 && n.kk = m.kk &&
        fld (n.r 2) 0 32 = fld (m.r 2) 0 32 && fld n.ctl 4 7 = fld m.ctl 4 7 && fld n.ctl 18 5 = fld m.ctl 18 5 &&
        fld n.ctl 28 3 = fld m.ctl 28 3 && fld n.ctl 35 8 = fld m.ctl 35 8 && (!isMx (m.ty true) || n.r 4 = m.r 4)
    let quad := (List.range 4).map (m.core / 4 * 4 + ·)
    let found := (quad.filter (· ≠ m.core)).filterMap fun c => (s.matops.find? (fits c)).map (·.1)
    if found.length ≠ 3 || fld m.ctl 28 3 = 2 then s
    else
      let all := id :: found
      let read := all.flatMap fun k => ((Tab.find s.matops k).map MatOp.fetched).getD []
      { s with matops := s.matops.map fun e =>
          if all.contains e.1 then
            (e.1, { e.2 with mates := all.filter (· ≠ e.1), fetched := e.2.fetched ++ read.filter fun f => e.2.kdone ≤ f.1 })
          else e }

/-- The body of MLOOP and MLOOPQ (R376, R380, R381, R383): ZERO takes effect at once where no earlier operation still
reads the accumulator. -/
def loopBody (i : Instr) (x : Pfx) (op : Nat) (r : RRR) (s : State) (g : Group) : Run (State × Group) := do
  let (a, b, d) := (r.a.toNat, r.b.toNat, r.d.toNat)
  let known := (g.sel b).full && !(g.sel b).pois
  let named := fld (g.sv b) 0 4
  let n := g.loopRegs b
  let acc ← (if known then g.accName named else .ok 0 : Run Nat)
  gate g x false [(.s a n, r.wa), (.s b 1, r.wb)] [.s d 1]
  need (!(g.spois a 2 || (n = 6 && g.spois (a + 4) 2))) (poisonUse 1 0)
  need (!(g.spois (a + 2) 2 || g.spois b 1)) (poisonUse 3 0)
  let m := { newMat g i x op d acc named (g.block a n) (g.sv b) with issuedAt := some s.clk }
  need (s.accOf g acc).full .waitEmpty
  let id := s.nextId
  let s ← s.launchMat g m m.loopSpans
  let s := if op = 6 then s.joinShare id else s
  let s := if (s.team g.team).any fun t => s.accBusy g.team (t.accKey g acc) id then s else s.zeroAcc m
  return (s.modAcc g acc fun q => { q with full := false }, g.emptyS d)

/-- MLOOP (R380, R381). -/
def execMloop (x : Pfx) (r : RRR) (s : State) : Host.Outcome State Fault Refusal :=
  issueS (.mloop x r) (loopLimit false r) (loopBody (.mloop x r) x 5 r) s

/-- MLOOPQ (R383): the effect of MLOOP. -/
def execMloopq (x : Pfx) (r : RRR) (s : State) : Host.Outcome State Fault Refusal :=
  issueS (.mloopq x r) (loopLimit true r) (loopBody (.mloopq x r) x 6 r) s

/-! ### Drains (R385, R386) -/

/-- The MOD fields an operation was issued under. -/
def MatOp.mod (m : MatOp) : Mod := Mod.ofPayload (m.modw.zeroExtend 32)

/-- The element type of a drain; F32 by default. -/
def MatOp.drainTy (m : MatOp) : Nat := if m.mod.type = 0 then 11 else m.mod.type.toNat

/-- The rows, first row, columns and first column of a drain's rectangle. -/
def MatOp.rect (m : MatOp) : Nat × Nat × Nat × Nat := (fld (m.r 3) 0 7, fld (m.r 3) 8 6, fld (m.r 3) 16 8, fld (m.r 3) 24 7)

/-- The n draws from a rounding-stream state (R263). -/
def drawsFrom : Nat → BitVec 128 → List Nat
  | 0, _ => []
  | n + 1, st => let d := roundDraw st; d.1 :: drawsFrom n d.2

/-- A unit that an engine writes: address, value and poison. -/
abbrev OutUnit : Type := BitVec 64 × Nat × Bool

/-- The bytes of a number as units from an address. -/
def outBytes (a : BitVec 64) (n v : Nat) (pz : Bool) : List OutUnit :=
  (List.range n).map fun j => (a + BitVec.ofNat 64 j, v / 256 ^ j % 256, pz)

/-- What a drain writes for one element of a type without blocks (R268, R269). -/
def MatOp.drainElem (m : MatOp) (e : AEl) (draw : Nat) (a : BitVec 64) : List OutUnit × Exc :=
  let t := m.drainTy
  let y := convert ⟨m.mod.round.toNat, draw, m.mod.sat, false⟩ (.flt .f32) ((Ty.ofCode t).getD .mxi8) e.val.toNat
  (outBytes a (elemBits t / 8) y.1 (e.pois || (m.trapNv && y.2.getLsbD 0)), y.2)

/-- What a drain writes for one block of 32 elements of an MX type: its elements and its scale (R271). -/
def MatOp.drainBlock (m : MatOp) (es : List AEl) (draws : List Nat) (a sa : BitVec 64) : List OutUnit × Exc :=
  let t := m.drainTy
  let vs := es.map fun e => Fmt.f32.decode e.val.toNat
  let sc := mxScale t vs
  let ys : List (Nat × Exc) := if sc.2 then vs.map fun _ => (0, 0)
    else (List.range vs.length).map fun k => mxElem t m.mod.round.toNat (draws.getD k 0) sc.1 (vs.getD k (.nan false))
  let exc := ys.foldl (fun e y => e ||| y.2) (if sc.2 then Exc.nv else 0)
  let pz := es.any AEl.pois || (m.trapNv && exc.getLsbD 0)
  let raw := ((List.range ys.length).map fun k => (ys.getD k (0, 0)).1 % 2 ^ elemBits t * 2 ^ (elemBits t * k)).sum
  (outBytes a (4 * elemBits t) raw pz ++ outBytes sa 1 (if sc.2 then 255 else (sc.1 + 127).toNat) pz, exc)

/-- All that a drain writes (R386), with its flags. -/
def MatOp.drainUnits (m : MatOp) (acc : Acc) : List OutUnit × Exc :=
  let (rows, row0, cols, col0) := m.rect
  let t := m.drainTy
  let draws := if m.mod.round = 5 then drawsFrom (rows * cols) m.stream else []
  let rowAt (r : Nat) : BitVec 64 := m.r 0 + BitVec.ofNat 64 (r * fld (m.r 1) 0 32)
  let parts : List (List OutUnit × Exc) := (List.range rows).flatMap fun r =>
    if isMx t then (List.range (cols / 32)).map fun b =>
      m.drainBlock ((List.range 32).map fun k => acc.el (row0 + r) (col0 + 32 * b + k)) (draws.drop (r * cols + 32 * b))
        (rowAt r + BitVec.ofNat 64 (4 * elemBits t * b)) (m.r 2 + BitVec.ofNat 64 (r * fld (m.r 1) 32 16 + b))
    else (List.range cols).map fun c =>
      m.drainElem (acc.el (row0 + r) (col0 + c)) (draws.getD (r * cols + c) 0) (rowAt r + BitVec.ofNat 64 (c * elemBits t / 8))
  (parts.flatMap (·.1), parts.foldl (fun e p => e ||| p.2) 0)

/-- The bytes that a drain's token reports (R386). -/
def MatOp.drainBytes (m : MatOp) : Nat :=
  let (rows, _, cols, _) := m.rect
  rows * cols * elemBits m.drainTy / 8 + if isMx m.drainTy then rows * cols / 32 else 0

/-- The ranges of a drain (R376). -/
def MatOp.drainSpans (m : MatOp) : List Span :=
  let (rows, _, cols, _) := m.rect
  let sp := m.mod.space.toNat
  let a := (m.r 0).toNat
  let sa := (m.r 2).toNat
  ⟨sp, a, a + (rows - 1) * fld (m.r 1) 0 32 + cols * elemBits m.drainTy / 8, true⟩ ::
    if isMx m.drainTy then [⟨sp, sa, sa + (rows - 1) * fld (m.r 1) 32 16 + cols / 32, true⟩] else []

/-- The limits of a drain's operands (R385). -/
def drainBad (t : Nat) (v : Nat → Option (BitVec 64)) : Bool :=
  let al := if is64 t then 8 else 4
  (v 0).any (fun a => a.toNat % al != 0) || (v 1).any (fun a => fld a 0 32 % al != 0 || fld a 48 16 != 0) ||
  (v 3).any fun a =>
    let (rows, row0, cols, col0) := (fld a 0 7, fld a 8 7, fld a 16 8, fld a 24 7)
    rows = 0 || decide (64 < rows) || fld a 7 1 != 0 || fld a 15 1 != 0 || fld a 31 33 != 0 || cols = 0 ||
      decide (128 < cols) || decide (64 < row0 + rows) || decide (128 < col0 + cols) ||
      (isMx t && (cols % 32 != 0 || col0 % 32 != 0))

/-- The full operand registers of a drain: s(b+2) is read for MX types only. -/
def drainOpds (t b : Nat) (wb : Bool) : List (Opd × Bool) :=
  [(.s b 2, wb)] ++ (if isMx t then [(.s (b + 2) 1, wb)] else []) ++ [(.s (b + 3) 1, wb)]

/-- The wait or trap of an accumulator source (R193, R377). -/
def State.accSource (s : State) (g : Group) (i named : Nat) (wa : Bool) : Run Unit :=
  if (s.accOf g i).full then .ok ()
  else if wa then .error (.fate 0x41 (4 + named * 8) 0) else .error .waitEmpty

/-- MDRAIN (R385, R386): the draws of ROUND 5 are taken at issue. -/
def execMdrain (x : Pfx) (r : RRR) (s : State) : Host.Outcome State Fault Refusal :=
  let t := if x.m.type = 0 then 11 else x.m.type.toNat
  let b := r.b.toNat
  let opds := drainOpds t b r.wb
  issueS (.mdrain x r) (fun _ g => (opds.all fun o => o.1.isFull g) && drainBad t fun k => g.judged (b + k)) (fun s g => do
    let i ← g.accRead r.a.toNat
    s.accSource g i r.a.toNat r.wa
    gate g x false opds [.s r.d.toNat 1]
    need (!(g.spois b 1 || (isMx t && g.spois (b + 2) 1))) (poisonUse 1 0)
    need (!(g.spois (b + 1) 1 || g.spois (b + 3) 1)) (poisonUse 3 0)
    let m := newMat g (.mdrain x r) x 7 r.d.toNat i r.a.toNat (g.block b 4) 0
    let s ← s.launchMat g m m.drainSpans
    let n := m.rect.1 * m.rect.2.2.1
    let s := if x.m.space = 2 then s else s.modTeam g.team fun t => { t with repl := false }
    let g := if x.m.round = 5 then { g with rstream := lcgJump roundInc (BitVec.ofNat 128 n) g.rstream } else g
    return (s, g.emptyS r.d.toNat)) s

/-! ### Accumulator images (R198, R387) -/

/-- The 4-byte words of an accumulator's image. -/
def accImage (a : Acc) (name slot : Nat) : List Nat :=
  let els := (List.range 8192).map fun k => (a.el (k / 128) (k % 128)).val.toNat
  let pois := (List.range 256).map fun w =>
    ((List.range 32).map fun b => if (a.el ((32 * w + b) / 128) ((32 * w + b) % 128)).pois then 2 ^ b else 0).sum
  els ++ pois ++ (1 + name * 2 + slot * 2 ^ 5) :: List.replicate 15 0

/-- An accumulator's elements from the words of an image, with the poison of the words. -/
def accOfImage (ws : List (Nat × Bool)) : Tab AEl :=
  (List.range 8192).filterMap fun k =>
    let w := ws.getD k (0, false)
    let p := ws.getD (8192 + k / 32) (0, false)
    let e : AEl := ⟨BitVec.ofNat 32 w.1, w.2 || p.2 || p.1.testBit (k % 32)⟩
    if e = AEl.zero then none else some (k, e)

/-- The limit of an image address: a multiple of 64 (R387). -/
def imageLimit (k : Nat) (_ : State) (g : Group) : Bool := (g.sel k).full && (g.judged k).any fun a => a.toNat % 64 != 0

/-- ACCSAVE (R387). -/
def execAccsave (x : Pfx) (r : RRR) (s : State) : Host.Outcome State Fault Refusal :=
  let b := r.b.toNat
  issueS (.accsave x r) (imageLimit b) (fun s g => do
    let i ← g.accRead r.a.toNat
    s.accSource g i r.a.toNat r.wa
    gate g x false [(.s b 1, r.wb)] [.s r.d.toNat 1]
    need (!g.spois b 1) (poisonUse 1 0)
    let m := newMat g (.accsave x r) x 8 r.d.toNat i r.a.toNat [g.sv b] 0
    let a := (g.sv b).toNat
    let s ← s.launchMat g m [⟨x.m.space.toNat, a, a + 33856, true⟩]
    let s := if x.m.space = 2 then s else s.modTeam g.team fun t => { t with repl := false }
    return (s, g.emptyS r.d.toNat)) s

/-- ACCLOAD (R387). -/
def execAccload (x : Pfx) (r : RRR) (s : State) : Host.Outcome State Fault Refusal :=
  let a := r.a.toNat
  issueS (.accload x r) (imageLimit a) (fun s g => do
    let i ← g.accName r.d.toNat
    gate g x false [(.s a 1, r.wa)] []
    need (!g.spois a 1) (poisonUse 1 0)
    need (s.accOf g i).full .waitEmpty
    let m := newMat g (.accload x r) x 9 0 i r.d.toNat [g.sv a] 0
    let k := (g.sv a).toNat
    let s ← s.launchMat g m [⟨x.m.space.toNat, k, k + 0x8400, false⟩]
    return (s.modAcc g i fun q => { q with full := false }, g)) s

/-! ### Completion -/

/-- The places of the units that an operation writes. -/
def State.unitPlaces (s : State) (m : MatOp) (sp : Nat) : List OutUnit → Unit_ (State × List (Nat × Nat × Bool))
  | [] => .ok (s, [])
  | u :: us => do
    let (s, k) ← s.enginePlace m.core m.asid m.team none sp u.1 1
    let (s, ks) ← State.unitPlaces s m sp us
    return (s, (k, u.2) :: ks)

/-- The end of a drain or save: its ranges are released, its flags set and its token filled (R376, R386). -/
def State.outEnd (s : State) (id : Nat) (m : MatOp) (exc : Exc) (n : Nat) : State :=
  let s := { s.unlock m.core id with matops := Tab.drop s.matops id }
  (s.modGroup m.core m.slot fun g => g.raise exc).fillToken m.core m.slot m.dst m.pc m.seq (BitVec.ofNat 64 n) false

/-- What a drain or save writes: the bytes of a unit, the units, the flags, and the count its token receives. -/
def State.matUnits (s : State) (m : MatOp) : Nat × List OutUnit × Exc × Nat :=
  let a := s.opAcc m
  if m.op = 7 then
    let u := m.drainUnits a
    (1, u.1, u.2, m.drainBytes)
  else
    let ws := accImage a m.acc m.slot
    (4, (List.range ws.length).map fun j => (m.r 0 + BitVec.ofNat 64 (4 * j), ws.getD j 0, false), 0, 33856)

/-- Write what a drain or save writes: its units in fabric space by requests, the others at once. -/
def State.matWrite (s : State) (id : Nat) (m : MatOp) : State :=
  let sp := m.mod.space.toNat
  let (n, us, exc, total) := s.matUnits m
  let away (u : OutUnit) : Bool := isFabricWord (sp, u.1)
  match s.unitPlaces m sp (us.filter fun u => !away u) with
  | .error f => s.matFate id m f
  | .ok (s, ks) =>
    let s := s.putUnits n ks
    let s := if sp = 0 ∨ sp = 4 then ks.foldl (fun s k => s.l1DropRange m.core k.1 n) s else s
    if us.any away then
      s.matFabric id m n .store (((List.range us.length).zip us).filterMap fun u =>
        if away u.2 then some { laneReq u.1 u.2.1 u.2.2.1 0 with at_ := .fabric, pois := u.2.2.2 } else none)
    else s.outEnd id m exc total

/-- The words of the part of an image that a load reads. -/
def MatOp.imageWords (m : MatOp) : List (Nat × BitVec 64) :=
  (List.range 0x2100).map fun j => (m.mod.space.toNat, m.r 0 + BitVec.ofNat 64 (4 * j))

/-- A load on the words of its image (R387). -/
def State.matLoad (s : State) (id : Nat) (m : MatOp) (got : Option MemOp) : State :=
  match s.matWords m got 0 m.imageWords with
  | .error f => s.matFate id m f
  | .ok (s, ws) => (s.modOpAcc m fun a => { a with els := accOfImage ws }).matEnd id m

/-- MATRIX_OP_COMPLETE (R376, R386, R387): a drain, save or load of the matrix unit goes as far as it can. -/
def execMatrixOpComplete (id : Nat) (s : State) : Host.Outcome State Fault Refusal :=
  match Tab.find s.matops id with
  | none => .next s
  | some m =>
    if m.op < 7 || m.stopped || m.finished then .next s
    else
      match m.wait with
      | some k =>
        match Tab.find s.memops k with
        | some o =>
          if !o.isDone then .next s
          else
            let s := { s with memops := Tab.drop s.memops k }
            if m.op = 9 then .next (s.matLoad id { m with wait := none } (some o))
            else
              let u := s.matUnits m
              .next (s.outEnd id m u.2.2.1 u.2.2.2)
        | none => .next s
      | none =>
        if !s.matReady id m then .next s
        else if m.op = 9 then
          if isFabricWord (m.mod.space.toNat, m.r 0) then .next (s.matRead id m m.imageWords) else .next (s.matLoad id m none)
        else .next (s.matWrite id m)

end Sys2Proof.Machine
end

