-- ==== Sys2Proof/Machine/Save.lean ====
section
/-!
DEFINITION. Saving (R196 to R198, R237 to R242, R245, R249): the stop of a context's groups, the condition under which
every engine acknowledges, the save area, and the leaving of the cores.
-/
namespace Sys2Proof.Machine

/-! ### Images (R196 to R198) -/

/-- A dword whose bit i, below n, holds a test of i. -/
def bitsD (n : Nat) (p : Nat → Bool) : BitVec 64 :=
  BitVec.ofNat 64 ((List.range n).map fun i => if p i then 2 ^ i else 0).sum

/-- A group image (R196) as dwords. -/
def groupImage (g : Group) : List (BitVec 64) :=
  let w := g.width
  let word (j l : Nat) : Nat := let e := g.vblk j l; if e.zf then 0 else e.val.toNat
  let d0 := BitVec.ofNat 64 (g.pc.toNat % 2 ^ 56 + g.repIdx % 64 * 2 ^ 56 + (if g.repIdx = 0 then 0 else 2 ^ 62) +
    if g.stop.isSome then 2 ^ 63 else 0)
  let shape := BitVec.ofNat 64 (g.blockN % 8 + (if w = 16 then 0 else if w = 32 then 1 else 2) * 8)
  let spec : BitVec 64 × BitVec 64 := match g.spec with
    | some p => (BitVec.ofNat 64 (1 + p.cond.toNat * 2 + p.shadowed.toNat * 2 ^ 8), p.pred)
    | none => (0, 0)
  [d0, g.flags, g.trapen, g.part, g.wbase, shape, g.rstream.extractLsb' 0 64, g.rstream.extractLsb' 64 64,
    g.seqNo.zeroExtend 64, g.seqSlot, spec.1, spec.2, 0, 0, 0, 0] ++
  (List.range 128).map (fun k => g.sv k) ++
  [bitsD 64 fun k => (g.sel k).full, bitsD 64 fun k => (g.sel (64 + k)).full,
    bitsD 64 fun k => (g.sel k).pois, bitsD 64 fun k => (g.sel (64 + k)).pois] ++
  (List.range 16).map (fun k => (g.pel k).bits) ++ [bitsD 16 fun k => (g.pel k).full] ++ List.replicate 27 0 ++
  (List.range g.blockSize).flatMap (fun j => (List.range (w / 2)).map fun l =>
    BitVec.ofNat 64 (word j (2 * l) + word j (2 * l + 1) * 2 ^ 32)) ++
  (List.range g.blockSize).flatMap fun j =>
    [bitsD w fun l => (g.vblk j l).full, bitsD w fun l => (g.vblk j l).zf, bitsD w fun l => (g.vblk j l).pois]

/-- The length of a group image. -/
def imageBytes (blockN width : Nat) : Nat := 0x600 + 32 * 2 ^ blockN * (4 * width + 24)

/-- A team image (R197) and the barrier records that follow it (R241). -/
def teamImage (t : Team) : List (BitVec 64) :=
  let el (k q : Nat) : AEl := Tab.get AEl.zero t.tiles (k * 1024 + q)
  let bar (n : Nat) : BitVec 64 := match Tab.find t.bars n with
    | some b => BitVec.ofNat 64 (b.arrived.length % 64 + b.expected % 64 * 2 ^ 6 + if b.phase then 2 ^ 12 else 0)
    | none => BitVec.ofNat 64 (t.nGroups % 64 * 2 ^ 6)
  [t.phases.zeroExtend 64, BitVec.ofNat 64 (t.tregs % 16), 0, 0, 0, 0, 0, 0] ++
  (List.range t.tregs).flatMap (fun k =>
    (List.range 512).map (fun q => BitVec.ofNat 64 ((el k (2 * q)).val.toNat + (el k (2 * q + 1)).val.toNat * 2 ^ 32)) ++
    (List.range 16).map (fun q => bitsD 64 fun b => (el k (64 * q + b)).pois) ++
    [bitsD 32 fun r => !(Tab.get false t.rowEmpty (k * 32 + r))] ++ List.replicate 15 0) ++
  (List.range 16).map bar

/-- The length of a team image with its barrier records. -/
def teamBytes (tregs : Nat) : Nat := 0x40 + 4352 * tregs + 128

/-- Pairs of words as dwords. -/
def pairUp : List Nat → List (BitVec 64)
  | a :: b :: l => BitVec.ofNat 64 (a % 2 ^ 32 + b % 2 ^ 32 * 2 ^ 32) :: pairUp l
  | [a] => [BitVec.ofNat 64 (a % 2 ^ 32)]
  | [] => []

/-- An accumulator's image in a save area (R198): full or not, under the number it has and its owner's slot. -/
def savedAccImage (a : Acc) (name slot : Nat) : List (BitVec 64) :=
  pairUp ((accImage a name slot).set 0x2100 ((if a.full then 1 else 0) + name * 2 + slot * 2 ^ 5))

/-- A ticket entry (R242) of a line of an operation, with the tk since its first ticket: one entry for every lane of the
line (R46), with the operands of the packet under way (log 63). -/
def State.ticketEntry (s : State) (o : MemOp) (f : FabLine) : List (BitVec 64) :=
  let ls := o.lineLanes f
  let all := o.entryLanes f
  let (ticket, held, logged) := match f.at_ with
    | .ticketed t => (t.toNat, 1, 0)
    | .noticed t => (t.toNat, 1, 1)
    | _ => (0, 0, 0)
  let kind := match o.kind with | .store => 1 | .atomic => 2 | _ => 0
  let left := match f.firstTicket with | some n => f.tmo - s.since n | none => f.tmo
  let bmask := ls.foldl (fun m l => m ||| (BitVec.ofNat 64 (2 ^ o.bytes - 1) <<< (l.addr.toNat % 64))) (0 : BitVec 64)
  let offs := (all.map fun l => l.addr.toNat % 64 * 2 ^ (8 * (l.lane % 64))).sum
  let data : BitVec 512 := if kind = 0 then 0 else ls.foldl (fun d l => linePut d (l.addr.toNat % 64) o.bytes l.data.toNat) 0
  let cmp : BitVec 512 := if kind = 2 ∧ o.aop = 7 then
      ls.foldl (fun d l => linePut d (l.addr.toNat % 64) o.bytes l.cmp.toNat) 0 else 0
  let split (v : BitVec 512) : List (BitVec 64) := (List.range 8).map fun i => v.extractLsb' (64 * i) 64
  [f.line, BitVec.ofNat 64 (ticket + f.node % 1024 * 2 ^ 16 + held * 2 ^ 26 + logged * 2 ^ 27 + kind * 2 ^ 29),
    BitVec.ofNat 64 left, maskOf (all.map fun l => l.lane % 64),
    BitVec.ofNat 64 (o.dst % 128 + (if o.dstKind = .s then 128 else 0) + o.type % 32 * 2 ^ 8 + o.aop % 8 * 2 ^ 13 +
      o.order % 4 * 2 ^ 16 + o.scope % 8 * 2 ^ 18 + o.gid % 32 * 2 ^ 21 + o.seq.toNat * 2 ^ 32),
    bmask, o.pc, 0] ++ split (BitVec.ofNat 512 offs) ++ split data ++ split cmp

/-- The engine-record code of a copy's form (R242). -/
def copyCode (form : Nat) : Nat := if form = 5 then 4 else form

/-- An engine record (R242). -/
def engineRecord (code gid dst acc : Nat) (pc : BitVec 64) (seq : BitVec 32) (done : Nat) (regs : List (BitVec 64))
    (ctl : BitVec 64) (modw : BitVec 24) (stream : BitVec 128) : List (BitVec 64) :=
  [BitVec.ofNat 64 (code + gid % 32 * 2 ^ 4 + dst % 128 * 2 ^ 9 + acc % 16 * 2 ^ 16), pc,
    BitVec.ofNat 64 (seq.toNat + done % 2 ^ 32 * 2 ^ 32)] ++ (List.range 7).map (fun k => regs.getD k 0) ++
  [ctl, modw.zeroExtend 64, stream.extractLsb' 0 64, stream.extractLsb' 64 64, 0, 0]

/-- The engine record of a copy. -/
def CopyOp.record (c : CopyOp) : List (BitVec 64) :=
  engineRecord (copyCode c.form) c.gid c.token 0 c.pc c.seq c.chunk c.regs (if c.form = 2 ∨ c.form = 3 then 0 else c.ctl)
    c.modw 0

/-- The operand registers of a matrix operation as its record holds them: those its form reads. -/
def MatOp.recordRegs (m : MatOp) : List (BitVec 64) :=
  if m.op = 7 then (if isMx m.drainTy then m.regs else m.regs.set 2 0) else m.regs

/-- The engine record of a matrix operation. -/
def MatOp.record (m : MatOp) : List (BitVec 64) :=
  engineRecord m.op m.gid m.dst m.acc m.pc m.seq (if m.op < 7 then m.kdone else 0) m.recordRegs m.ctl m.modw
    (if m.op = 7 ∧ m.mod.round = 5 then m.stream else 0)

/-! ### What a save takes -/

/-- Whether a save takes a team (R239, R249): one of its context, for a fence only those with a part on the core. -/
def Save.takes (v : Save) (t : Team) : Bool :=
  t.asid = v.asid && match v.error with
    | none => true
    | some c => t.cores.contains c

/-- The teams that a save takes, under their keys. -/
def State.savedTeams (s : State) (v : Save) : List (Nat × Team) := s.teams.filter fun e => v.takes e.2

/-- The groups of a team in GROUPID order. -/
def State.groupsOfTeam (s : State) (t : Team) : List Group := t.slots.filterMap fun x => s.group x.2.1 x.2.2

/-- Whether an instruction of a group is under way that completes before the group stops: its operation is at the
page-store unit (R149), or the phase it waits for in BAR has changed (R365). -/
def State.midway (s : State) (g : Group) : Bool :=
  (s.psq.any fun e => e.2.copy.isNone && e.2.core = g.core && e.2.slot = g.slot) ||
    match s.team g.team with
    | some t => g.barSeen.any fun e => (t.bar e.1).phase != e.2
    | none => false

/-- Stop a group for a save at its boundary (R239): it abandons what it waits for, and its arrival in a BAR is withdrawn
(R365; log 44). -/
def State.saveStop (s : State) (g : Group) : State :=
  if g.saved || s.midway g then s
  else
    let s := s.waitEnd g
    let s := s.modTeam g.team fun t => { t with bars := t.bars.map fun (e : Nat × Bar) =>
      if (Tab.find g.barSeen e.1).isSome then (e.1, { e.2 with arrived := e.2.arrived.filter (· ≠ g.gid) }) else e }
    { s with memops := s.memops.filter fun e => e.2.engine != some (2, gkey g.core g.slot) }.setGroup ({ g with
      saved := true, waiting := false, onEmpty := false, waitsIn := none, rampWait := none, growSince := none
      barSeen := [] }.recount g s.clk)

/-- Whether a save of Carillon's context still waits for the end of its current frame (R239 step 1). -/
def State.inLastFrame (s : State) (v : Save) : Bool := v.error.isNone && v.asid = s.carAsid && s.carillon.inFrame

/-- Stop every group of the teams that a save takes, and drop the residency filters of their cores (R239); the groups of
Carillon's context go on to the end of the frame. -/
def State.saveStopAll (s : State) (v : Save) : State :=
  if s.inLastFrame v then s
  else
  let s := ((s.savedTeams v).flatMap fun e => s.groupsOfTeam e.2).foldl (fun s g =>
    match s.group g.core g.slot with
    | some g => s.saveStop g
    | none => s) s
  ((s.savedTeams v).flatMap fun e => e.2.cores).foldl (fun s c => s.clearFilter c) s

/-! ### Acknowledgements (R238) -/

/-- Whether a line of an operation no longer moves: settled, ticketed, or, of an access, kept behind a ticket. -/
def FabLine.idle (f : FabLine) (engine : Bool) : Bool :=
  match f.at_ with
  | .done | .ticketed _ | .noticed _ => true
  | .queued => engine || f.kept
  | .sent _ => false

/-- Whether an access stands as a save can take it: every lane done or on a kept line. -/
def MemOp.idle (o : MemOp) : Bool :=
  (o.lanes.all fun l => l.at_ = .done || l.at_ = .fabric) && o.lines.all fun f => f.idle (o.engine.isSome || o.kind = .fetch)

/-- Whether an engine's operation that waits for a memory operation stands at its chunk or K-step boundary: its request
is held on a ticket. -/
def State.heldChunk (s : State) (wait : Option Nat) : Bool :=
  match wait.bind (Tab.find s.memops) with
  | some o => o.idle && !o.isDone
  | none => true

/-- Whether a copy's destination is its team's scratchpad, so that a save completes it into the image (R240). -/
def CopyOp.toImage (c : CopyOp) : Bool := c.form != 4 && c.dsp = 2 && !c.stopped

/-- Whether a matrix operation has acknowledged (R238): a loop at a K-step; another one only when a fault has stopped it,
or when it waits behind one that is stopped. -/
def State.matStands (s : State) (id : Nat) (m : MatOp) : Bool :=
  if m.op < 7 then s.heldChunk m.wait
  else m.stopped || (m.wait.isNone && !s.matReady id m)

/-- Whether a group's engines, units and accesses have all acknowledged. -/
def State.groupStands (s : State) (g : Group) : Bool :=
  let mine (c k : Nat) : Bool := c = g.core && k = g.slot
  g.saved && g.holds.isEmpty && (g.stop.isSome || g.late.isEmpty) &&
    (s.memops.all fun e => !(mine e.2.core e.2.slot) || e.2.idle) &&
    !(s.sfuops.any fun e => mine e.2.core e.2.slot) && !(s.winWaits.any fun q => mine q.core q.slot) &&
    (s.copies.all fun e => !(mine e.2.core e.2.slot) || e.2.stopped ||
      (s.heldChunk e.2.wait && !(e.2.toImage && e.2.ssp = 3))) &&
    (s.matops.all fun e => !(mine e.2.core e.2.slot) || s.matStands e.1 e.2)

/-- Whether a save has every acknowledgement (R239 step 4). -/
def State.quiesced (s : State) (v : Save) : Bool :=
  ((s.savedTeams v).all fun e => (s.groupsOfTeam e.2).all fun g => s.groupStands g) &&
    !s.inLastFrame v

/-! ### The area (R241, R242) -/

/-- The kept ticket-table entries of a group (R57), in program order, one for each line (R46), whatever packets it still has
to send (log 63). -/
def State.ticketsOf (s : State) (g : Group) : List (MemOp × FabLine) :=
  (s.accessesOf g.core g.slot).flatMap fun e => (e.2.lines.filter fun f => f.at_ != .done).map fun f => (e.2, f)

/-- Whether a save flushes a team (R245, R58). -/
def State.flushes (s : State) (v : Save) (t : Team) : Bool :=
  v.op = 2 && t.repl && (s.groupsOfTeam t).all fun g => (s.ticketsOf g).isEmpty

/-- The owned accumulators of a team: the group that owns it, its number and the accumulator. -/
def State.ownedAccs (s : State) (t : Team) : List (Group × Nat × Acc) :=
  (List.range 32).filterMap fun k =>
    ((s.groupsOfTeam t).find? fun g => g.core = t.core + k / 16 && g.accOwned.getLsbD (k % 16)).map fun g => (g, k % 16, t.acc k)

/-- The engine operations of a team that a save records (R240, R238), in order. -/
def State.recordedOps (s : State) (k : Nat) : List (List (BitVec 64)) :=
  (s.copies.filter fun e => e.2.team = k && e.2.detached.isNone && e.2.slot != noSlot && e.2.form != 4 && !e.2.toImage).map
      (fun e => e.2.record) ++
    (s.matops.filter fun e => e.2.team = k).map fun e => e.2.record

/-- The length of a team's record (R241). -/
def State.recordBytes (s : State) (v : Save) (e : Nat × Team) : Nat :=
  let t := e.2
  if s.flushes v t then 0xC0
  else
    let gs := s.groupsOfTeam t
    0xC0 + teamBytes t.tregs + fld t.sram 24 12 * 512 * t.cores.length + (gs.map fun g => imageBytes g.blockN g.width).sum +
      33856 * (s.ownedAccs t).length + 256 * (gs.flatMap fun g => s.ticketsOf g).length + 128 * (s.recordedOps e.1).length

/-- The clusters whose cluster-shared region a save writes, with the grid that holds it: those of a context with a team
there that is not flushed. -/
def State.savedClusters (s : State) (v : Save) : List (Nat × Nat) :=
  s.csHold.filter fun h => (s.savedTeams v).any fun e => e.2.grid = h.2 && e.2.core / 8 = h.1 && !s.flushes v e.2

/-- The bytes of a cluster-shared image. -/
def State.clusterBytes (s : State) (grid : Nat) : Nat := 64 + 8 * ((Tab.find s.grids grid).map Grid.cssz).getD 0 * 2 ^ 14

/-- Whether a save writes Carillon's record. -/
def State.savesCarillon (s : State) (v : Save) : Bool := v.error.isNone && s.carOn && v.asid = s.carAsid

/-- The length of a save area (R241). -/
def State.areaBytes (s : State) (v : Save) (es : List (Nat × Team)) : Nat :=
  256 + (es.map fun e => s.recordBytes v e).sum + ((s.savedClusters v).map fun h => s.clusterBytes h.2).sum +
    if s.savesCarillon v then 64 + 2048 else 0

/-- Write parts one after another from a place. -/
def State.putParts (s : State) (k : Nat) : List (List (BitVec 64)) → State
  | [] => s
  | p :: ps => State.putParts (s.putDwords k p) (k + 8 * p.length) ps

/-- Write a team's record at a place (R241): its parts, with the place of each group's image. -/
def State.writeRecord (s : State) (v : Save) (k : Nat) (e : Nat × Team) : State × List (Nat × Nat) :=
  let t := e.2
  let g := (Tab.find s.grids t.grid).getD (newGrid [] 0 t.asid 0 0 0 0)
  let gs := s.groupsOfTeam t
  let flushed := s.flushes v t
  let accs := s.ownedAccs t
  let tickets := gs.flatMap fun h => s.ticketsOf h
  let ops := s.recordedOps e.1
  let lin := newGroup g 0 t.lin 0 0 0 0 0
  let counts := if flushed then 3 else (if t.repl then 1 else 0) + accs.length * 2 ^ 2 + tickets.length * 2 ^ 10 + ops.length * 2 ^ 20
  let head := [g.gridId, lin.teamId, BitVec.ofNat 64 counts, BitVec.ofNat 64 (s.recordBytes v e), 0, 0, 0, 0] ++
    (List.range 16).map fun i => g.desc.getD i 0
  let s := s.putDwords k head
  if flushed then (s, [])
  else
    let k := k + 0xC0
    let s := s.putDwords k (teamImage t)
    let k := k + teamBytes t.tregs
    let sp := fld t.sram 24 12 * 512
    let s := s.copyBlock k (region (16 + t.core) + t.spBase) sp
    let s := if t.paired then s.copyBlock (k + sp) (region (17 + t.core) + t.spBase1) sp else s
    let k := k + sp * t.cores.length
    let r := gs.foldl (fun (r : State × Nat × List (Nat × Nat)) h =>
      (r.1.putDwords r.2.1 (groupImage h), r.2.1 + imageBytes h.blockN h.width, r.2.2 ++ [(h.gid, r.2.1)])) (s, k, [])
    (r.1.putParts r.2.1 ((accs.map fun a => savedAccImage a.2.2 a.2.1 a.1.slot) ++
      (tickets.map fun x => s.ticketEntry x.1 x.2) ++ ops), r.2.2)

/-- The key by which a token of a saved group is known. -/
def tokenKey (team gid token : Nat) : Nat := (team * 32 + gid) * 128 + token

/-- Copies of a saved team go on outside it (R240): those into its scratchpad against the images, handoffs against the
log; the ranges they lock are free. -/
def State.detachCopies (s : State) (k sp : Nat) (images : List (Nat × Nat)) : State :=
  { s with copies := s.copies.map fun (e : Nat × CopyOp) =>
      let c := e.2
      if c.team = k && c.detached.isNone && c.slot != noSlot && (c.form = 4 || c.toImage) then
        let image := ((images.find? fun x => x.1 = c.gid).map (·.2)).getD 0
        (e.1, { c with slot := noSlot, wait := none, buf := [], detached := some (if c.form = 4 then (tokenKey k c.gid c.token, 0) else (sp, image)) })
      else e }

/-- The trace records of a flushed team (R245, R446): its engine commands end without a fill, and its groups end. -/
def State.traceFlush (s : State) (k : Nat) (gs : List Group) : State :=
  let sites := ((s.copies.filter fun x => x.2.team = k && x.2.detached.isNone).map fun x => (x.2.core, x.2.slot, x.2.pc, x.2.seq)) ++
    (s.matops.filter fun x => x.2.team = k).map fun x => (x.2.core, x.2.slot, x.2.pc, x.2.seq)
  gs.foldl (fun s g =>
    let s := (sites.filter fun e => e.1 = g.core && e.2.1 = g.slot).foldl (fun s e => s.trace g 1 3 e.2.2.1 e.2.2.2 (2 ^ 32)) s
    s.trace g 6 8 g.pc g.seqNo 1) s

/-- A saved team leaves the device: what is kept of it, then its groups and operations go and its cores are free. -/
def State.releaseTeam (s : State) (v : Save) (e : Nat × Team) : State :=
  let (k, t) := e
  let gs := s.groupsOfTeam t
  let mine (c : Nat) (slot : Nat) : Bool := gs.any fun g => g.core = c && g.slot = slot
  let flushed := s.flushes v t
  let gone := s.copies.filter fun x => x.2.team = k && x.2.detached.isNone
  let kept : Kept := {
    key := k, team := t, groups := gs, copies := gone, mats := s.matops.filter fun x => x.2.team = k
    memops := (gs.flatMap fun g => s.accessesOf g.core g.slot).map (·.2) }
  let tickets := (gs.flatMap fun g => s.ticketsOf g).filterMap fun x => match x.2.at_ with
    | .ticketed t => some (x.2.node * 2 ^ 16 + t.toNat)
    | _ => none
  let c := s.ctx t.asid
  let s := s.setCtx t.asid { c with
    kept := if flushed then c.kept else c.kept ++ [kept], savedTickets := c.savedTickets ++ tickets }
  let ops := Tab.keys (s.copies.filter fun x => x.2.team = k) ++ Tab.keys (s.matops.filter fun x => x.2.team = k)
  let s := t.cores.foldl (fun s core => ops.foldl (fun s id => s.unlock core id) s) s
  let s := if flushed then s.traceFlush k gs else s
  let s := { gs.foldl State.countWrites s with
    copies := s.copies.filter fun x => !(x.2.team = k && x.2.detached.isNone)
    matops := s.matops.filter fun x => x.2.team ≠ k
    psq := s.psq.filter fun x => !(mine x.2.core x.2.slot && (x.2.copy.any fun id => (Tab.find gone id).isSome))
    memops := s.memops.filter fun x => !mine x.2.core x.2.slot
    groups := s.groups.filter fun x => x.2.team ≠ k }
  s.leaveCores k t

/-- Carillon's record (R241): the next frame, the rotation pointer, MODE, and the parks and wakes requested. -/
def State.carillonRecord (s : State) : List (BitVec 64) :=
  let c := s.carillon
  let asked (p : Nat → Bool) (q : Nat) : BitVec 64 := bitsD 64 fun b => c.reqs.any fun r => p r.1 && r.2 = 64 * q + b
  [BitVec.ofNat 64 c.frame, BitVec.ofNat 64 c.rp, BitVec.ofNat 64 (fld (s.reg 0x4000) 1 1), 0, 0, 0, 0, 0] ++
    (List.range 128).map (asked fun k => decide (k ≤ 1)) ++ (List.range 128).map (asked fun k => k = 2)

/-- Write a save area over the teams of a list (R239 step 6, R241), then let them leave; for a confidential context the
lines are encrypted (R464). -/
def State.writeArea (s : State) (v : Save) (es : List (Nat × Team)) : State :=
  let total := s.areaBytes v es
  let cls := s.savedClusters v
  let s := s.zeroRange v.area total
  let s := { s with
    crypt := s.crypt.map fun (e : Nat × CryptLine) =>
      if v.area ≤ 64 * e.1 ∧ 64 * e.1 < v.area + total then (e.1, { e.2 with form := Seal.opened }) else e }
  let drop (cls id : Nat) (wait : Option Nat) (s : State) : State := if wait.isSome then s.engineDrop cls id else s
  let s := (s.copies.filter fun e => es.any fun x => x.1 = e.2.team).foldl (fun s e => drop 0 e.1 e.2.wait s) s
  let s := (s.matops.filter fun e => es.any fun x => x.1 = e.2.team).foldl (fun s e => drop 1 e.1 e.2.wait s) s
  let r := es.foldl (fun (r : State × Nat) e =>
    let k := r.2
    let sp := k + 0xC0 + teamBytes e.2.tregs
    let len := r.1.recordBytes v e
    let w := r.1.writeRecord v k e
    ((if r.1.flushes v e.2 then w.1 else w.1.detachCopies e.1 sp w.2), k + len)) (s, v.area + 256)
  let r := cls.foldl (fun (r : State × Nat) h =>
    let n := r.1.clusterBytes h.2
    let id := ((Tab.find r.1.grids h.2).map Grid.gridId).getD 0
    ((r.1.putDwords r.2 [id, BitVec.ofNat 64 h.1]).copyBlock (r.2 + 64) (region (2048 + h.1)) (n - 64), r.2 + n)) r
  let car := s.savesCarillon v
  let s := if car then r.1.putDwords r.2 r.1.carillonRecord else r.1
  let s := s.putDwords v.area [BitVec.ofNat 64 (v.asid.toNat + es.length * 2 ^ 16 + cls.length * 2 ^ 32),
    BitVec.ofNat 64 total, 0, BitVec.ofNat 64 (if car then r.2 - v.area else 0)]
  es.foldl (fun s e => s.releaseTeam v e) s

/-! ### The steps of a save -/

/-- The state that PRE_STAT shows (R237). -/
def State.setPreState (s : State) (st : Nat) : State := s.setReg 0x3050 (setFld (s.reg 0x3050) 0 3 st)

/-- GO of PRE_CMD reads 0 again. -/
def State.clearGo (s : State) : State := s.setReg 0x3040 (s.reg 0x3040 &&& ~~~(1#64 <<< 63))

/-- The place that PRE_AREA names (R237, R470). -/
def State.preArea (s : State) : Nat := s.baseOf 0x3048 12

/-- Change the entry of a save. -/
def State.setSave (s : State) (v w : Save) : State := { s with saves := s.saves.map fun x => if x = v then w else x }

/-- Begin a save of a context (R239 steps 1 to 3), or go on with one whose area was too small. -/
def State.startSave (s : State) (asid : BitVec 16) (op : BitVec 2) : State :=
  let s := s.setPreState 1
  let v : Save := { asid := asid, op := op, stage := 1, need := fld (s.reg 0x3050) 32 32, error := none, area := s.preArea,
                    todo := [], length := 0, lost := false, clusters := [], since := s.now.toNat }
  let s := { s with
    saves := (s.saves.filter fun (x : Save) => !(x.asid = asid && x.error.isNone)) ++ [v]
    carillon := if asid = s.carAsid && s.carOn then { s.carillon with stopReq := true } else s.carillon }
  s.saveStopAll v

/-- The teams of a save that fit in an error save area (R251), with those that do not. -/
def State.fitRecords (s : State) (v : Save) : List (Nat × Team) × List (Nat × Team) :=
  let c := s.ctx v.asid
  let size := 2 ^ (20 + fld c.errpol 3 5) - fld c.errpol 8 16 * 2 ^ 16
  if fld c.errpol 1 1 = 0 ∨ v.lost then ([], s.savedTeams v)
  else
    (s.savedTeams v).foldl (fun (r : List (Nat × Team) × List (Nat × Team)) e =>
      if s.areaBytes v (r.1 ++ [e]) ≤ size then (r.1 ++ [e], r.2) else (r.1, r.2 ++ [e])) ([], [])

/-- Teams that a fence loses (R249): nothing of them is left on the device but their grid, which does not complete. -/
def State.loseTeams (s : State) (asid : BitVec 16) (es : List (Nat × Team)) : State :=
  es.foldl (fun s e =>
    let s := (s.groupsOfTeam e.2).foldl (fun s g => (s.countWrites g).dropOps g.core g.slot) s
    let c := s.ctx asid
    { s.setCtx asid { c with lost := c.lost ++ [e.1] } with groups := s.groups.filter fun x => x.2.team ≠ e.1 }.leaveCores
      e.1 e.2) s

/-- Step 5 and 6 of a save with every acknowledgement (R239): NEED, then the area, or STATE 5; a fence judges its teams one
by one (R251). -/
def State.saveOn (s : State) (v : Save) : State :=
  if v.error.isSome then
    let p := s.fitRecords v
    let used := fld (s.ctx v.asid).errpol 8 16
    let e := (s.ctx v.asid).errpol
    let w := { v with area := physKey 0 (fld e 52 1) (fld e 24 28 * 2 ^ 24 + used * 2 ^ 16), stage := 2 }
    let w := { w with length := if p.1.isEmpty then 0 else s.areaBytes w p.1, lost := !p.2.isEmpty }
    let s := s.setSave v w
    let s := if p.1.isEmpty then s else s.writeArea w p.1
    s.loseTeams v.asid p.2
  else
    let need := (s.areaBytes v (s.savedTeams v) + 4095) / 4096
    let s := s.setReg 0x3050 (setFld (s.reg 0x3050) 32 32 need)
    if v.need < need then ((s.setSave v { v with stage := 5 }).setPreState 5).clearGo
    else
      let w := { v with stage := 2, length := s.areaBytes v (s.savedTeams v), todo := (s.savedTeams v).map (·.1) }
      ((s.setSave v w).setPreState 2).writeArea w (s.savedTeams v)

/-- Whether the error save area of a fence's context is free for it (R251): no other fence writes there. -/
def State.areaFree (s : State) (v : Save) : Bool :=
  v.error.isNone || !(s.saves.any fun x => x.asid = v.asid && x.error.isSome && x.stage = 2)

/-- Whether the end of a context still waits for a copy to stop at its chunk (R247 step 3). -/
def State.ending (s : State) (asid : BitVec 16) : Bool :=
  s.copies.any fun e => e.2.asid = asid && e.2.slot = noSlot && e.2.wait.isSome

/-- SAVE_QUIESCED (R239, R247): groups that were within an instruction stop; a save with every acknowledgement goes on, and
a context whose operations have stopped has ended. -/
def execSaveQuiesced (s : State) : Host.Outcome State Fault Refusal :=
  let s := (s.saves.filter fun v => v.stage = 1).foldl (fun s v => s.saveStopAll v) s
  match s.saves.find? fun v => v.stage = 6 && !s.ending v.asid with
  | some v => .next ({ s with saves := s.saves.filter fun x => x != v }.setPreState 4).clearGo
  | none =>
    match s.saves.find? fun v => v.stage = 1 && s.quiesced v && s.areaFree v with
    | some v => .next (s.saveOn v)
    | none => .next s

/-- Whether a copy still goes into the images of an area (R240). -/
def State.landing (s : State) (v : Save) : Bool :=
  s.copies.any fun e => !e.2.stopped && match e.2.detached with
    | some (k, image) => image != 0 && decide (v.area ≤ k) && decide (k < v.area + v.length)
    | none => false

/-- Encrypt the lines of an area for a confidential context (R464). -/
def State.sealArea (s : State) (v : Save) : State :=
  if (s.ctx v.asid).cfg.getLsbD 1 then
    (List.range ((v.length + 63) / 64)).foldl (fun s i => s.encryptLine v.asid (v.area / 64 + i)) s
  else s

end Sys2Proof.Machine
end

