-- ==== Sys2Proof/Machine/Restore.lean ====
section
/-!
DEFINITION. Restoring a save area (R243), the end of a save (R239, R249 to R251), the placement of teams (R209, R210,
R224), and PRE_CMD (R237, R247).
-/
namespace Sys2Proof.Machine

/-! ### Reading a save area (R196 to R198, R241) -/

/-- The places of n team records from a place. -/
def State.recordsAt (s : State) (k : Nat) : Nat → List Nat
  | 0 => []
  | n + 1 => k :: State.recordsAt s (k + (s.read64 (k + 0x18)).toNat) n

/-- The places of n group images from a place, with the one past them. -/
def State.imagesAt (s : State) (k : Nat) : Nat → List Nat × Nat
  | 0 => ([], k)
  | n + 1 =>
    let d := s.read64 (k + 0x28)
    let r := State.imagesAt s (k + imageBytes (fld d 0 3) (16 * 2 ^ fld d 3 2)) n
    (k :: r.1, r.2)

/-- What the device keeps of a saved team (log 21). -/
def State.keptOf (s : State) (asid : BitVec 16) (gridId teamId : BitVec 64) : Option Kept :=
  (s.ctx asid).kept.find? fun x => (x.groups.any fun (g : Group) => g.gridId = gridId && g.teamId = teamId)

/-- A group with what its image at a place holds (R196): elements that lie in a poisoned sector come back poisoned (R464);
a register that may hold a token which was filled before or meanwhile is taken to hold one (R79, R143). -/
def State.readGroup (s : State) (k : Nat) (h : Group) (kept : Option Group) : Group :=
  let d (i : Nat) : BitVec 64 := s.read64 (k + 8 * i)
  let w := h.width
  let n := fld (d 5) 0 3
  let spec : Option Spec := if !(d 10).getLsbD 0 then none else
    let base : Spec := (kept.bind Group.spec).getD ⟨0, 0, 0, none, false, 0, 0, 0⟩
    some { base with cond := (d 10).extractLsb' 1 7, shadowed := (d 10).extractLsb' 8 8, pred := d 11 }
  let marks : BitVec 128 := match kept with
    | some h => (List.range 128).foldl (fun t j => if (h.sel j).full then t else t ||| (1#128 <<< j)) h.tokens
    | none => BitVec.allOnes 128
  let g : Group := { h with
    pc := d 0 &&& 0x00FFFFFFFFFFFFFC
    repIdx := if (d 0).getLsbD 62 then fld (d 0) 56 6 else 0
    stop := if (d 0).getLsbD 63 then some ((kept.bind Group.stop).getD ⟨0, .boundary, 0, []⟩) else none
    flags := d 1, trapen := d 2, part := d 3, wbase := d 4, blockN := n, rstream := d 7 ++ d 6
    seqNo := (d 8).extractLsb' 0 32, seqSlot := d 9, spec := spec
    late := (kept.map Group.late).getD [], reissue := kept.bind Group.reissue, lastTape := kept.bind Group.lastTape
    lastRetire := (kept.map Group.lastRetire).getD 0
    tileOld := kept.bind Group.tileOld, tokens := marks }
  let g := (List.range 128).foldl (fun g j => g.putS j
    ⟨d (16 + j), (d (144 + j / 64)).getLsbD (j % 64), (d (146 + j / 64)).getLsbD (j % 64) || s.isPoisoned (k + 8 * (16 + j)) 8⟩) g
  let g := (List.range 16).foldl (fun g j => g.putP j ⟨d (148 + j), (d 164).getLsbD j⟩) g
  let m := k + 0x600 + 4 * w * g.blockSize
  (List.range g.blockSize).foldl (fun g j =>
    let full := s.read64 (m + 24 * j)
    let zf := s.read64 (m + 24 * j + 8)
    let pois := s.read64 (m + 24 * j + 16)
    (List.range w).foldl (fun g l =>
      let at_ := k + 0x600 + 4 * (w * j + l)
      g.putV j l ⟨BitVec.ofNat 32 (s.readLE at_ 4), full.getLsbD l, pois.getLsbD l || s.isPoisoned at_ 4, zf.getLsbD l⟩) g) g

/-- A team with what its image and barrier records at a place hold (R197, R241). -/
def State.readTeam (s : State) (k : Nat) (t : Team) (kept : Option Team) : Team :=
  let tile (x : Nat) : Nat := k + 0x40 + 4352 * x
  let els : Tab AEl := (List.range t.tregs).flatMap fun x => (List.range 1024).filterMap fun q =>
    let at_ := tile x + 4 * q
    let e : AEl := ⟨BitVec.ofNat 32 (s.readLE at_ 4), (s.readLE (tile x + 4096 + q / 8) 1).testBit (q % 8) || s.isPoisoned at_ 4⟩
    if e = AEl.zero then none else some (x * 1024 + q, e)
  let rows : Tab Bool := (List.range t.tregs).flatMap fun x => (List.range 32).filterMap fun r =>
    if (s.read64 (tile x + 4224)).getLsbD r then none else some (x * 32 + r, true)
  let bars : Tab Bar := (List.range 16).map fun n =>
    let d := s.read64 (k + 0x40 + 4352 * t.tregs + 8 * n)
    let who := ((kept.bind fun u => Tab.find u.bars n).map Bar.arrived).getD []
    (n, ⟨if who.length = fld d 0 6 then who else List.range (fld d 0 6), fld d 6 6, d.getLsbD 12⟩)
  { t with phases := (s.read64 k).extractLsb' 0 32, tiles := els, rowEmpty := rows, bars := bars }

/-- The words of the part of an accumulator's image that holds elements and poison. -/
def State.accWords (s : State) (k : Nat) : List (Nat × Bool) :=
  (List.range 0x2100).map fun j => (s.readLE (k + 4 * j) 4, s.isPoisoned (k + 4 * j) 4)

/-! ### Putting a team back -/

/-- The owner and key of a saved accumulator, past the last key: as the device kept it, else by its slot. -/
def accOwner (kept : Option Kept) (last : Nat) (name slot : Nat) : Nat × Nat :=
  let cands := match kept with
    | some x => (List.range 2).filterMap fun ci =>
      if last < ci * 16 + name + 1 then
        (x.groups.find? fun (g : Group) => g.core = x.team.core + ci && g.slot = slot && g.accOwned.getLsbD name).map fun (g : Group) => (ci * 16 + name, g.gid)
      else none
    | none => []
  cands.head?.getD (if last < name + 1 then (name, slot) else (16 + name, slot))

/-- Put n accumulators from their images back (R198); `last` is one more than the last key put. -/
def State.putAccs (s : State) (team : Nat) (kept : Option Kept) (k last : Nat) : Nat → State
  | 0 => s
  | n + 1 =>
    let d := s.read64 (k + 0x8400)
    let o := accOwner kept last (fld d 1 4) (fld d 5 4)
    let slot := ((s.team team).bind fun t => t.slots.find? fun x => x.1 = o.2).map (·.2)
    let acc : Acc := ⟨accOfImage (s.accWords k), d.getLsbD 0, slot.map fun x => gkey x.1 x.2⟩
    let s := s.modTeam team fun t => t.setAcc o.1 acc
    let s := match slot with
      | some x => s.modGroup x.1 x.2 fun g => { g with accOwned := g.accOwned ||| (1#16 <<< (o.1 % 16)) }
      | none => s
    State.putAccs s team kept (k + 33856) (o.1 + 1) n

/-- The accumulators that no image holds are free: one that the device knows keeps its contents, or has none yet (R187);
of a team that it does not know, nothing fixes them (log 4). -/
def State.freeAccsAfter (s : State) (team : Nat) (kept : Option Kept) : State :=
  match s.team team, kept with
  | some t, some x =>
    (x.team.accs.filter fun e => (Tab.find t.accs e.1).isNone).foldl
      (fun (s : State) e => s.modTeam team fun t => t.setAcc e.1 { e.2 with owner := none }) s
  | some t, none =>
    ((List.range (if t.paired then 32 else 16)).filter fun k => decide (k % 16 < t.aregs) && (Tab.find t.accs k).isNone).foldl
      (fun (s : State) k => { s with freeCount := s.freeCount + 8192 }.modTeam team fun t => t.setAcc k (Acc.zero.undefined s.freeCount)) s
  | none, _ => s

/-- The line of an operation as a ticket entry at a place restores it (R57, R242): a follower has no ticket; a logged notice
that says serviced lets the line replay, and one that says refused is left to the context's log; the timeout runs on from
what it had left. -/
def State.readLine (s : State) (k : Nat) (f : FabLine) : FabLine :=
  let d := s.read64 (k + 8)
  let left := (s.read64 (k + 0x10)).toNat
  let t : BitVec 16 := d.extractLsb' 0 16
  { f with
    at_ := if !d.getLsbD 26 then .queued else if d.getLsbD 27 && !d.getLsbD 28 then .noticed t else .ticketed t
    replayOf := none, sect := 0, joined := 0, kept := true, joinable := false, node := fld d 16 10, tmo := left
    firstTicket := if d.getLsbD 26 then some s.now.toNat else none }

/-- The lanes of an operation with the data that a ticket entry at a place holds for a line's packet under way. -/
def State.readLanes (s : State) (k : Nat) (o : MemOp) (f : FabLine) : List LaneAcc :=
  o.lanes.map fun l =>
    if f.lanes.contains l.lane && o.kind != .load && o.kind != .nfload then
      let pos := l.addr.toNat % 64
      { l with data := BitVec.ofNat 128 (s.readLE (k + 0x80 + pos) o.bytes), cmp := BitVec.ofNat 64 (s.readLE (k + 0xC0 + pos) (min 8 o.bytes)) }
    else l

/-- Operands of the AT packets to come, which a ticket entry does not hold: free values (R242, R348; log 63). -/
def freeOperands (n : Nat) (later : List Nat) (l : LaneAcc) : LaneAcc :=
  match later.findIdx? (· = l.lane) with
  | some i => { l with data := (Config.freeValue (n + 2 * i)).zeroExtend 128, cmp := Config.freeValue (n + 2 * i + 1) }
  | none => l

/-- An operation as a ticket entry at a place alone gives it, for a group, with the free draw it begins at: an element has as
many bytes as the byte mask gives each of the distinct offsets. -/
def State.entryOp (s : State) (k : Nat) (g : Group) : MemOp :=
  let d (i : Nat) : BitVec 64 := s.read64 (k + 8 * i)
  let type := fld (d 4) 8 5
  let mask := d 3
  let kind : MemKind := match fld (d 1) 29 2 with | 1 => .store | 2 => .atomic | _ => .load
  let lanes := (lanesOf 64 mask).map fun l =>
    { laneReq l (d 0 + BitVec.ofNat 64 (s.readLE (k + 0x40 + l) 1 % 64)) 0 0 with at_ := LaneAt.fabric }
  let written := ((List.range 64).filter fun i => (d 5).getLsbD i).length
  let elems := ((lanes.map (·.addr)).eraseDups).length
  let bytes := if elems = 0 then 4 else max 1 (written / elems)
  let o : MemOp :=
    { kind := kind, core := g.core, slot := g.slot, gid := g.gid, team := g.team, asid := g.asid, pc := d 6, repIdx := 0,
      word := 0, seq := (d 4).extractLsb' 32 32, space := 0, order := fld (d 4) 16 2, scope := fld (d 4) 18 3, hint := 0,
      type := type, bytes := bytes, aop := fld (d 4) 13 3,
      dstKind := if kind = .store then .none else if (d 4).getLsbD 7 then .s else .v, dst := fld (d 4) 0 7,
      nreg := if 4 < bytes && !(d 4).getLsbD 7 then bytes / 4 else 1, lanes := lanes, lines := [], per := 1, mask := mask,
      writesP := if kind = .atomic then some 14 else none, engine := none }
  let o := { o with lines := s.fabLines o }
  match o.lines with
  | f :: _ =>
    let o := { o with lanes := (s.readLanes k o f).map (freeOperands s.freeCount f.later.flatten) }
    { o with lines := [s.readLine k f] }
  | [] => o

/-- Put an operation into a group's accesses. -/
def State.addOp (s : State) (o : MemOp) : State :=
  let n := s.newId
  { n.1 with memops := Tab.put n.1.memops n.2 o }

/-- Whether a ticket entry at a place names a line of an operation. -/
def State.entryIs (s : State) (k : Nat) (o : MemOp) (f : FabLine) : Bool :=
  let d := s.read64 (k + 0x20)
  f.at_ != .done && s.read64 k = f.line && fld d 21 5 = o.gid && fld d 32 32 = o.seq.toNat && s.read64 (k + 0x30) = o.pc &&
    s.read64 (k + 0x18) = maskOf ((o.entryLanes f).map fun l => l.lane % 64)

/-- An operation with the ticket entries at the first places that name its lines, and the places that are left: an entry
restores one line, and two runs of one instruction take their entries in the order in which the image holds them. -/
def State.takeEntries (s : State) (o : MemOp) (ks : List Nat) : MemOp × List Nat :=
  o.lines.zipIdx.foldl (fun (r : MemOp × List Nat) fj =>
    match r.2.find? fun k => s.entryIs k o fj.1 with
    | some k => ({ r.1 with lanes := s.readLanes k r.1 fj.1, lines := r.1.lines.modify fj.2 (s.readLine k) }, r.2.erase k)
    | none => r) (o, ks)

/-- The ticket of the entry at a place whose logged notice says refused (R242). -/
def State.entryRefused (s : State) (k : Nat) : Option Nat :=
  let d := s.read64 (k + 8)
  if d.getLsbD 26 && d.getLsbD 27 && d.getLsbD 28 then some (fld d 16 10 * 2 ^ 16 + fld d 0 16) else none

/-- Reinstall the ticket entries of a team from their places (R57): those of an operation that the device kept become that
operation, any other one of its own; the refusals they hold join the context's log. -/
def State.putTickets (s : State) (t : Team) (kept : Option Kept) (ks : List Nat) : State :=
  let r := ((kept.map Kept.memops).getD []).foldl (fun (r : State × List Nat) o =>
    match t.slots.find? fun x => x.1 = o.gid with
    | some x =>
      let o := { o with core := x.2.1, slot := x.2.2, team := ((s.group x.2.1 x.2.2).map Group.team).getD o.team }
      let e := s.takeEntries o r.2
      (r.1.addOp e.1, e.2)
    | none => r) (s, ks)
  let s := r.2.foldl (fun (s : State) k =>
    match (t.slots.find? fun x => x.1 = fld (s.read64 (k + 0x20)) 21 5).bind fun x => s.group x.2.1 x.2.2 with
    | some g => State.addOp { s with freeCount := s.freeCount + 128 } (s.entryOp k g)
    | none => s) r.1
  let c := s.ctx t.asid
  s.setCtx t.asid { c with noticeLog := (ks.filterMap s.entryRefused).map (fun id => (id, 1)) ++ c.noticeLog }

/-- The ranges that a copy locks (R140, R359). -/
def CopyOp.lockSpans (c : CopyOp) : List Span :=
  let o := (c.r 1).toNat
  match c.form with
  | 2 => [⟨2, o, o + c.bytes, true⟩]
  | 3 => [⟨2, o, o + c.bytes, false⟩]
  | 4 => [⟨6, (c.r 0).toNat, (c.r 0).toNat + 64, false⟩]
  | _ => c.spans

/-- The ranges that a matrix operation locks (R376). -/
def MatOp.lockSpans (m : MatOp) : List Span :=
  let a := (m.r 0).toNat
  if m.finished then []
  else match m.op with
    | 7 => m.drainSpans
    | 8 => [⟨m.mod.space.toNat, a, a + 33856, true⟩]
    | 9 => [⟨m.mod.space.toNat, a, a + 0x8400, false⟩]
    | _ => m.loopSpans

/-- Reinstall an engine record at a place (R242): the operation resumes from the chunk or K-step it holds. -/
def State.putEngine (s : State) (team : Nat) (t : Team) (kept : Option Kept) (k : Nat) : State :=
  let d (i : Nat) : BitVec 64 := s.read64 (k + 8 * i)
  let code := fld (d 0) 0 4
  let gid := fld (d 0) 4 5
  let seq : BitVec 32 := (d 2).extractLsb' 0 32
  let done := fld (d 2) 32 32
  let regs := (List.range 7).map fun i => d (3 + i)
  match (t.slots.find? fun x => x.1 = gid).bind fun x => s.group x.2.1 x.2.2 with
  | none => s
  | some g =>
    if code ≤ 4 then
      let form := if code = 4 then 5 else code
      let old := kept.bind fun x => x.copies.find? fun e => e.2.gid = gid && e.2.seq = seq && e.2.form = form
      let n := s.newId
      let id := (old.map (·.1)).getD n.2
      let c : CopyOp := {
        form := form, core := g.core, slot := g.slot, site := g.slot, gid := gid, team := team, asid := g.asid, token := fld (d 0) 9 7
        pc := d 1, seq := seq, word := (old.map (·.2.word)).getD 0, modw := (d 11).extractLsb' 0 24, regs := regs, ctl := d 10
        chunk := done, bytes := 0, cancel := (old.map (·.2.cancel)).getD false, stopped := (old.map (·.2.stopped)).getD false
        detached := none, wait := none, buf := [], phase := 0, pages := [] }
      let bytes := if code = 2 ∨ code = 3 then
          match s.readTable g.asid (c.r 0) with
          | .ok (_, b) => b.fmt.tile c.n c.m
          | .error _ => 0
        else c.rows * c.len
      let c := { c with bytes := (old.map (·.2.bytes)).getD bytes }
      let s := { n.1 with copies := Tab.put n.1.copies id c }.lockAll g.core id g.asid c.lockSpans
      if (code = 2 ∨ code = 3) ∧ !c.stopped then s.arrive (c.arrival id) else s
    else
      let old := kept.bind fun x => x.mats.find? fun e => e.2.gid = gid && e.2.seq = seq && e.2.op = code && e.2.pc = d 1 &&
        e.2.acc = fld (d 0) 16 4
      let n := s.newId
      let id := (old.map (·.1)).getD n.2
      let named := fld (d 0) 16 4
      let m : MatOp := {
        op := code, core := g.core, slot := g.slot, gid := gid, team := team, asid := g.asid, dst := fld (d 0) 9 7, acc := named
        shadow := code != 7 && code != 8 && (g.spec.any fun p => decide (named < 8) && p.shadowed.getLsbD named)
        pc := d 1, seq := seq, word := (old.map (·.2.word)).getD 0, modw := (d 11).extractLsb' 0 24, regs := regs, ctl := d 10
        trapNv := (old.map (·.2.trapNv)).getD (g.trapen.getLsbD 0), issuedAt := none, mates := [], fetched := []
        kdone := done, exc := (old.map (·.2.exc)).getD 0, stream := d 13 ++ d 12, status := (old.map (·.2.status)).getD 0
        stopped := (old.map (·.2.stopped)).getD false, finished := (old.map (·.2.finished)).getD false, wait := none }
      { n.1 with matops := Tab.put n.1.matops id m }.lockAll g.core id g.asid m.lockSpans

/-- Copies that went on outside a saved team are its own again: handoffs under way, and copies that a fault has stopped, whose
groups are stopped with them (R227). -/
def State.reattach (s : State) (team : Nat) (t : Team) (kept : Option Kept) : State :=
  match kept with
  | none => s
  | some x =>
    (s.copies.filter fun e => e.2.team = x.key && e.2.detached.isSome).foldl (fun (s : State) e =>
      match t.slots.find? fun q => q.1 = e.2.gid with
      | some q =>
        let c := { e.2 with core := q.2.1, slot := q.2.2, site := q.2.2, team := team, detached := none }
        let old := (x.groups.find? fun g => g.gid = e.2.gid).bind Group.stop
        let s := if c.stopped then s.modGroup q.2.1 q.2.2 fun g => { g with stop := g.stop.orElse fun _ => old } else s
        { s with copies := Tab.put s.copies e.1 c }.lockAll q.2.1 e.1 c.asid c.lockSpans
      | none => s) s

/-- Apply the logs of a context to a restored team (R57, R240, R243): its notices and its token fills. -/
def State.applyLogs (s : State) (asid : BitVec 16) (team : Nat) (t : Team) (kept : Option Kept) : State :=
  let c := s.ctx asid
  let mine := s.memops.filter fun e => e.2.team = team
  let nodes := mine.flatMap fun e => e.2.lines.zipIdx.filterMap fun fj => match fj.1.at_ with
    | .ticketed q => some (fj.1.node * 2 ^ 16 + q.toNat, e.1, fj.2, q)
    | _ => none
  let s := nodes.foldl (fun (s : State) x =>
    match c.noticeLog.find? fun (e : Nat × BitVec 2) => e.1 = x.1 with
    | some (_, 0) => s.modLine x.2.1 x.2.2.1 fun l => { l with at_ := .noticed x.2.2.2 }
    | some (_, 1) => s.settleLine x.2.1 x.2.2.1 0x15
    | _ => s) s
  let fills := match kept with
    | some x => c.fillLog.filter fun (e : Nat × BitVec 64) => e.1 / 4096 = x.key
    | none => []
  let s := fills.foldl (fun (s : State) e =>
    match t.slots.find? fun q => q.1 = e.1 / 128 % 32 with
    | some q => s.modGroup q.2.1 q.2.2 fun g => g.fillS (e.1 % 128) e.2 false
    | none => s) s
  let c := s.ctx asid
  (s.setCtx asid { c with
    kept := match kept with | some x => c.kept.filter fun (y : Kept) => y.key ≠ x.key | none => c.kept
    savedTickets := c.savedTickets.filter fun id => !(nodes.any fun x => x.1 = id)
    noticeLog := c.noticeLog.filter fun (e : Nat × BitVec 2) => !(nodes.any fun x => x.1 = e.1)
    fillLog := c.fillLog.filter fun (e : Nat × BitVec 64) => !(fills.contains e) }).pump

/-- Reinstall a placed team from its record at a place (R243): its images, then its engine records, then its ticket
entries, then the logs; its groups wait for the ramp. -/
def State.reinstall (s : State) (k team : Nat) (g : Grid) (kept : Option Kept) (gids : List Nat) : State :=
  match s.team team with
  | none => s
  | some t =>
    let n := s.read64 (k + 0x10)
    let gone := t.slots.filter fun x => !gids.contains x.1
    let t := { s.readTeam (k + 0xC0) t (kept.map Kept.team) with
      slots := t.slots.filter fun x => gids.contains x.1, ended := gone.length, repl := n.getLsbD 0 }
    let s := { s with
      teams := Tab.put s.teams team t
      groups := gone.foldl (fun (m : Tab Group) (x : Nat × Nat × Nat) => Tab.drop m (gkey x.2.1 x.2.2)) s.groups }
    let sp := g.teamSp * 512
    let k1 := k + 0xC0 + teamBytes g.tregs
    let s := s.copyBlock (region (16 + t.core) + t.spBase) k1 sp
    let s := if t.paired then s.copyBlock (region (17 + t.core) + t.spBase1) (k1 + sp) sp else s
    let im := s.imagesAt (k1 + sp * t.cores.length) gids.length
    let s := (t.slots.zip im.1).foldl (fun (s : State) x =>
      match s.group x.1.2.1 x.1.2.2 with
      | some h => s.setGroup (s.readGroup x.2 h (kept.bind fun y => y.groups.find? fun q => q.gid = h.gid))
      | none => s) s
    let s := t.cores.foldl (fun (s : State) c =>
      let r := s.layGroups c (s.groupsOfTeam t)
      r.2.foldl State.setGroup r.1) s
    let (na, nt, ne) := (fld n 2 8, fld n 10 10, fld n 20 8)
    let s := (s.putAccs team kept im.2 0 na).freeAccsAfter team kept
    let k2 := im.2 + 33856 * na
    let s := (List.range ne).foldl (fun s i => s.putEngine team t kept (k2 + 256 * nt + 128 * i)) s
    let s := s.reattach team t kept
    let s := s.putTickets t kept ((List.range nt).map fun i => k2 + 256 * i)
    (t.cores.foldl (fun s c => s.putCmap c) s).applyLogs g.asid team t kept

/-! ### Placing what a save holds -/

/-- The grid of a record at a place, with its key. -/
def State.recordGrid (s : State) (asid : BitVec 16) (k : Nat) : Option (Nat × Grid) :=
  s.grids.find? fun e => e.2.asid = asid && e.2.gridId = s.read64 k && !e.2.discarded

/-- The number of a team within its grid, from its TEAMID. -/
def Grid.linOf (g : Grid) (teamId : BitVec 64) : Nat :=
  Machine.fld teamId 0 32 + g.fld 3 0 32 * (Machine.fld teamId 32 16 + g.fld 3 32 16 * Machine.fld teamId 48 16)

/-- Whether a core, or the pair that begins there, takes the team of a record (R209): as a new team of its grid, with the
register blocks that its groups had grown to.  DESIGN CHOICE (log 63): the ticket entries that the record brings are no
condition, even where the core's table has no room for them. -/
def State.recordFits (s : State) (k : Nat) (g : Grid) (gk : Nat) (gids : List Nat) (flushed : Bool) (c : Nat) : Bool :=
  s.fits gk g c && (flushed ||
    let im := (s.imagesAt (k + 0xC0 + teamBytes g.tregs + g.teamSp * 512 * (if g.paired then 2 else 1)) gids.length).1
    let sizes (second : Bool) : List Nat := (gids.zip im).filterMap fun x =>
      if decide (g.groups0 ≤ x.1) = second then some (32 * 2 ^ fld (s.read64 (x.2 + 0x28)) 0 3 * g.width / 512) else none
    let room (c : Nat) (second : Bool) : Bool := (s.makeRoom c (fun _ => false) [] (sizes second)).isSome
    room c false && (!g.paired || room (c + 1) true))

/-- The image in an area of a cluster's region, as it was for a grid: its place and length. -/
def State.clusterImage (s : State) (v : Save) (g : Grid) (old : Nat) : Option (Nat × Nat) :=
  let h := s.read64 v.area
  let from_ := (s.recordsAt (v.area + 256) (fld h 16 16)).foldl (fun _ k => k + (s.read64 (k + 0x18)).toNat) (v.area + 256)
  find from_ (fld h 32 16)
where
  /-- Look through n images from a place. -/
  find (k : Nat) : Nat → Option (Nat × Nat)
    | 0 => none
    | n + 1 =>
      let cssz := match s.grids.find? fun e => e.2.gridId = s.read64 k && e.2.asid = v.asid with
        | some e => e.2.cssz
        | none => 0
      if s.read64 k = g.gridId ∧ fld (s.read64 (k + 8)) 0 7 = old then some (k + 64, 8 * g.cssz * 2 ^ 14)
      else find (k + 64 + 8 * cssz * 2 ^ 14) n

/-- Restore the team of a record at a place on a core where it fits (R243): placed by R209, then reinstalled, unless it was
flushed, when it starts afresh (R245). -/
def State.restoreAt (s : State) (v : Save) (k core : Nat) : Option State :=
  match s.recordGrid v.asid k with
  | none => none
  | some (gk, g) =>
    let teamId := s.read64 (k + 8)
    let kept := s.keptOf v.asid g.gridId teamId
    let flushed := (s.read64 (k + 0x10)).getLsbD 1
    let gids := match kept with | some x => x.groups.map Group.gid | none => List.range g.nGroups
    let old := (kept.map fun x => x.team.core / 8).getD 0
    let known := v.clusters.find? fun x => x.1 = gk && x.2.1 = old
    let cs := g.cssz ≠ 0 && !flushed
    let clusterOk := !cs || match known with
      | some x => core / 8 = x.2.2
      | none => (Tab.find s.csHold (core / 8)).isNone
    if !s.recordFits k g gk gids flushed core || !clusterOk then none
    else
      let team := s.nextId
      let s := s.placeTeam gk { g with next := g.linOf teamId } core
      let s := { s with grids := Tab.put s.grids gk { g with lastAt := some s.now.toNat } }
      let w : Save := { v with
        todo := v.todo.filter (· ≠ k), clusters := if cs && known.isNone then (gk, old, core / 8) :: v.clusters else v.clusters }
      let s := match cs && known.isNone, s.clusterImage v g old with
        | true, some (p, n) => s.copyBlock (region (2048 + core / 8)) p n
        | _, _ => s
      let s := if flushed then s else s.reinstall k team g kept gids
      some (s.setSave v w)

/-- Restore the team of a record on the first core where it fits. -/
def State.restoreFirst (s : State) (asid : BitVec 16) (area k : Nat) : Option State :=
  match s.saves.find? fun v => v.asid = asid && v.stage = 3 && v.area = area with
  | some v => (List.range 640).findSome? fun c => s.restoreAt v k c
  | none => none

/-- Restore the teams of records all or none. -/
def State.restoreAll (asid : BitVec 16) (area : Nat) : List Nat → State → Option State
  | [], s => some s
  | k :: ks, s => (s.restoreFirst asid area k).bind (State.restoreAll asid area ks)

/-- Restore what fits of a list of records, in order; the teams of a pinned grid only together, as they are granted
(R224; log 43). -/
def State.restoreSome (s : State) (v : Save) (ks : List Nat) : State :=
  ks.foldl (fun (s : State) k =>
    match s.saves.find? fun x => x.asid = v.asid && x.stage = 3 && x.area = v.area, s.recordGrid v.asid k with
    | some w, some (gk, g) =>
      if !w.todo.contains k then s
      else if g.pinned then
        match State.restoreAll v.asid v.area (w.todo.filter fun q => (s.recordGrid v.asid q).map (·.1) = some gk) s with
        | some t => { t with damper := { t.damper with pinned := t.damper.pinned ++ [gk] } }
        | none => s
      else (s.restoreFirst v.asid v.area k).getD s
    | _, _ => s) s

/-- The end of a restore (R237, R251): STATE 4, or the error save's space is free again when nothing was written after
it, nor by a fence that has begun to write. -/
def State.restoreEnd (s : State) : State :=
  match s.saves.find? fun v => v.stage = 3 && v.todo.isEmpty with
  | none => s
  | some v =>
    let s := { s with saves := s.saves.filter fun x => x != v }
    if v.error.isNone then (s.setPreState 4).clearGo
    else
      let c := s.ctx v.asid
      let used := fld c.errpol 8 16
      let n := (v.length + 65535) / 65536
      if (s.saves.all fun x => x.asid != v.asid || x.error.isNone || x.stage != 2) && v.area + n * 2 ^ 16 = physKey 0 (fld c.errpol 52 1) (fld c.errpol 24 28 * 2 ^ 24 + used * 2 ^ 16) then
        s.setCtx v.asid { c with errpol := setFld c.errpol 8 16 (used - n) }
      else s

/-- Carillon takes up its record at a place (R243): frame, rotation pointer, parks and wakes. -/
def State.carillonResume (s : State) (asid : BitVec 16) (k : Option Nat) : State :=
  if asid ≠ s.carAsid then s
  else
    let c := s.carillon
    let c := { c with stopReq := false, trigger := c.running }
    match k with
    | none => { s with carillon := c }
    | some k =>
      let bit (base q : Nat) : Bool := (s.readLE (k + base + q / 8) 1).testBit (q % 8)
      let parks := ((List.range 8192).filter (bit 64)).map fun q => ((if c.reqs.contains (1, q) then 1 else 0), q)
      let wakes := ((List.range 8192).filter (bit 1088)).map fun q => (2, q)
      { s with carillon := { c with
          frame := (s.read64 k).toNat, rp := (s.read64 (k + 8)).toNat, inFrame := false, frameEnded := false, grid := none
          running := s.carOn, trigger := s.carOn, reqs := parks ++ wakes ++ c.reqs.filter fun r => r.1 = 3 } }

/-- The grids that records name and that are not there are made anew from the copied descriptors. -/
def State.makeGrids (s : State) (asid : BitVec 16) (ks : List Nat) : State :=
  ks.foldl (fun (s : State) k =>
    if (s.recordGrid asid k).isSome then s
    else
      let desc := s.readDwords (k + 0x40) 16
      let n := s.newId
      let g := newGrid desc 0 asid 3 0 (s.read64 k) n.2
      { n.1 with grids := Tab.put n.1.grids n.2 { g with
          depMet := 15, readyAt := some s.now.toNat, next := g.teams
          endedTeams := g.teams - (ks.filter fun q => s.read64 q = s.read64 k).length } }) s

/-- A line of the area of a confidential context is read (R464): one that the device did not write under the key does not
decrypt. -/
def State.readSealed (s : State) (asid : BitVec 16) (q : Nat) : State :=
  if s.tagMatches asid q then s else s.tagMismatch asid q

/-- Begin a restore from an area (R243): every record is placed where it fits. -/
def State.startRestore (s : State) (asid : BitVec 16) (area : Nat) (error : Option Nat) : State :=
  let total := (s.read64 (area + 8)).toNat
  let s := if (s.ctx asid).cfg.getLsbD 1 then
      (List.range ((total + 63) / 64)).foldl (fun s i => s.readSealed asid (area / 64 + i)) s
    else s
  let ks := s.recordsAt (area + 256) (fld (s.read64 area) 16 16)
  let s := s.makeGrids asid ks
  let v : Save := { asid := asid, op := 1, stage := 3, need := 0, error := error, area := area, todo := ks, length := total
                    lost := false, clusters := [], since := s.now.toNat }
  let s := { s with saves := (s.saves.filter fun (x : Save) => !(x.asid = asid && x.error = error)) ++ [v] }
  let s := if error.isNone then
      s.carillonResume asid (if s.read64 (area + 0x18) = 0 then none else some (area + (s.read64 (area + 0x18)).toNat))
    else s
  (s.restoreSome v ks).restoreEnd

/-- TEAM_PLACEMENT (R209, R210, R224, R243): a team that a restore still holds goes to the core where it fits; else the
next team of a ready grid is placed on a core where it fits, unless a grid that goes before it has a team that fits; a
pinned grid is placed whole, or rejected by Damper, or reserves the free cores. -/
def execTeamPlacement (grid core : Nat) (s : State) : Host.Outcome State Fault Refusal :=
  match Tab.find s.grids grid with
  | some g =>
    let held := s.saves.findSome? fun v => if v.stage = 3 && v.asid = g.asid then
        (v.todo.find? fun k => (s.recordGrid v.asid k).map (·.1) = some grid).map fun k => (v, k)
      else none
    match held with
    | some (v, k) =>
      if g.pinned then .next (s.restoreSome v [k]).restoreEnd
      else .next (((s.restoreAt v k core).getD s).restoreEnd)
    | none =>
      if !g.wantsCore || (s.grids.any fun e => e.2.wantsCore && !s.gridHeld e.2 && e.2.before g && (s.firstFit e.1 e.2).isSome &&
          (!e.2.pinned || (State.placeWhole e.1 e.2.teams s).isSome)) || s.gridHeld g then .next s
      else if g.pinned then
        if s.rise < g.teams * s.est g ∨ g.fld 4 27 3 ≠ 0 then .next (s.rampViolation grid g)
        else
          match State.placeWhole grid g.teams s with
          | some t => .next { t.unreserve grid with damper := { t.damper with pinned := t.damper.pinned ++ [grid] } }
          | none => .next (s.reserveFree grid)
      else if s.fits grid g core then .next (s.placeTeam grid g core)
      else .next s
  | none => .next s

/-! ### The end of a save -/

/-- The end of a fence (R249, R250, R251): FENCED, the space used or what the driver wrote of it meanwhile, the record, and under REDIST the restore. -/
def State.fenceEnd (s : State) (v : Save) (core : Nat) : State :=
  let s := { s with saves := s.saves.filter fun x => x != v }
  let s := (s.setCore core { s.core core with fenced := true }).putCmap core
  let c := s.ctx v.asid
  let used := fld c.errpol 8 16
  let used := (c.usedWait.map BitVec.toNat).getD (used + (v.length + 65535) / 65536)
  let s := s.setCtx v.asid { c with errpol := setFld c.errpol 8 16 used, usedWait := none }
  let s := s.emitFence (dieOf core) v.since
    (record3 (if v.length = 0 then 0 else BitVec.ofNat 64 v.area) core 2 v.lost (BitVec.ofNat 64 v.since) 0x08 v.asid core)
  if c.errpol.getLsbD 0 && v.length != 0 then s.startRestore v.asid v.area (some core) else s

/-- SAVE_AREA_WRITTEN (R239 step 7, R240): once every copy into its images has landed, a save is complete. -/
def execSaveAreaWritten (s : State) : Host.Outcome State Fault Refusal :=
  match s.saves.find? fun v => v.stage = 2 && !s.landing v with
  | none => .next s
  | some v =>
    let s := if v.length = 0 then s else (s.write64 (v.area + 0x10) s.now).sealArea v
    match v.error with
    | some core => .next (s.fenceEnd v core)
    | none => .next (((s.setSave v { v with stage := 4 }).setPreState 4).clearGo)

/-! ### PRE_CMD (R237, R247) -/

/-- End a context (R247): STATE reads 1 until its operations have stopped. -/
def State.endContext (s : State) (asid : BitVec 16) : State :=
  let car := s.carOn && asid = s.carAsid
  let v : Save := { asid := asid, op := 3, stage := 6, need := 0, error := none, area := 0, todo := [], length := 0
                    lost := false, clusters := [], since := s.now.toNat }
  let s := { s with
    saves := (s.saves.filter fun (x : Save) => !(x.asid = asid && (x.error.isNone || x.stage = 3))) ++ [v]
    grids := s.grids.map fun (e : Nat × Grid) =>
      if e.2.asid = asid && decide (e.2.next < e.2.teams || e.2.readyAt.isNone) then (e.1, { e.2 with discarded := true }) else e }
  let s := (s.groups.filter fun e => e.2.asid = asid).foldl (fun s e =>
    match s.group e.2.core e.2.slot with
    | some g => s.killGroup g
    | none => s) s
  let free (e : Nat × CopyOp) : Nat × CopyOp :=
    if e.2.asid = asid && e.2.detached.isSome then (e.1, { e.2 with detached := none, slot := noSlot, cancel := true }) else e
  let left := s.copies.filter fun e => !(e.2.asid = asid && e.2.detached.isSome && e.2.form != 4)
  let s := { s with copies := left.map free }
  let s := s.dropMemops fun e => e.2.asid = asid && match e.2.engine with
    | some (0, id) => (Tab.find s.copies id).isNone
    | _ => false
  let s := { s with psq := s.psq.filter fun e => e.2.copy.all fun id => (Tab.find s.copies id).isSome }
  let c := s.ctx asid
  let s := s.setCtx asid { c with lost := [], kept := [], savedTickets := [], noticeLog := [], fillLog := [] }
  let mine := s.grids.filter fun e => e.2.asid = asid
  let s := mine.foldl (fun (s : State) e =>
    let s := s.unreserve e.1
    if (Tab.find s.grids e.1).isSome then s.completeGrid e.1 e.2 else s) s
  let s := { s with damper := { s.damper with pinned := s.damper.pinned.filter fun k => (Tab.find s.grids k).isSome } }
  let s := if car then
      { s.setReg 0x4000 (s.reg 0x4000 &&& ~~~1#64) with carillon := { s.carillon with
          running := false, inFrame := false, frameEnded := false, grid := none, trigger := false, prefill := [], reqs := []
          stopReq := false } }
    else s
  s.settleGrids

/-- The start of a command (R237): an accepted GO runs OP. -/
def State.preGo (s : State) (asid : BitVec 16) (op : BitVec 2) : State :=
  let s := s.setReg 0x3040 (BitVec.ofNat 64 (asid.toNat + op.toNat * 2 ^ 16 + 2 ^ 63))
  match op.toNat with
  | 1 => (s.setPreState 3).startRestore asid s.preArea none
  | 3 => (s.setPreState 1).endContext asid
  | _ => s.startSave asid op

/-- A write to PRE_CMD (R237): refused while GO is 1. -/
def State.writePreCmd (s : State) (src : Bool) (w : BitVec 64) : State :=
  if (s.reg 0x3040).getLsbD 63 then s.writeError src 0x3040
  else if w.getLsbD 63 then s.preGo (w.extractLsb' 0 16) (w.extractLsb' 16 2)
  else s.setReg 0x3040 (w &&& 0x3FFFF)

/-- The value of PRE_CMD that starts an operation on a context. -/
def preWord (asid : BitVec 16) (op : Nat) : BitVec 64 := BitVec.ofNat 64 (asid.toNat + op * 2 ^ 16 + 2 ^ 63)

/-- PRE_SAVE (R237, R239). -/
def execPreSave (asid : BitVec 16) (s : State) : Host.Outcome State Fault Refusal := .next (s.writePreCmd false (preWord asid 0))

/-- PRE_RESTORE (R237, R243). -/
def execPreRestore (asid : BitVec 16) (s : State) : Host.Outcome State Fault Refusal := .next (s.writePreCmd false (preWord asid 1))

/-- PRE_SAVE_FLUSH (R237, R245). -/
def execPreSaveFlush (asid : BitVec 16) (s : State) : Host.Outcome State Fault Refusal := .next (s.writePreCmd false (preWord asid 2))

/-- PRE_END_CONTEXT (R237, R247). -/
def execPreEndContext (asid : BitVec 16) (s : State) : Host.Outcome State Fault Refusal := .next (s.writePreCmd false (preWord asid 3))

/-! ### Uncorrectable errors (R248, R249, R252) -/

/-- The die of a place of storage. -/
def placeDie (k : Nat) : Nat :=
  let r := k / 2 ^ 64
  if r < 6 then r % 2
  else if r < 16 then 0
  else if r < 1024 then dieOf (r - 16)
  else if r < 2048 then dieOf (r - 1024)
  else dieOf (8 * (r - 2048))

/-- Poison a register, tile or accumulator element of a group (R248 CLASS 1): class 0 v (a block register and a lane), 1 s,
3 t, 4 a; a predicate has no poison. -/
def State.poisonElem (s : State) (g : Group) (e : HwError) : State :=
  match e.regClass with
  | 0 => s.setGroup (g.putV e.reg e.elem { g.vblk e.reg e.elem with pois := true, zf := false })
  | 1 => s.setGroup (g.putS e.reg { g.sel e.reg with pois := true })
  | 3 =>
    let hit (m : Tab AEl) (k : Nat) : Tab AEl := Tab.set AEl.zero m k ⟨(Tab.get AEl.zero m k).val, true⟩
    s.modTeam g.team fun t => { t with tiles := hit t.tiles (e.reg * 1024 + e.elem) }
  | 4 => s.modAcc g e.reg fun a => { a with els := Tab.set AEl.zero a.els e.elem ⟨(Tab.get AEl.zero a.els e.elem).val, true⟩ }
  | _ => s

/-- A failed L2 slice (R248 CLASS 3): each sector of HBM4 or LPDDR-6 that it holds dirty is poisoned; nothing
fixes which these are: the event names them (log 50).  Of its
copies of fabric-coherent lines the clean ones go and the dirty sectors of the others are poisoned; which it holds nothing
fixes either (log 4). -/
def State.sliceFails (s : State) (die : Nat) (dirty : List Nat) : State :=
  let hit := dirty.filter fun q => decide (q / 2 ^ 60 < 4) && placeDie (16 * q) = die
  let m := s.freeCount
  let dir : Tab SliceLine := s.fabDir.zipIdx.filterMap fun x =>
    if !(Config.freeValue (m + x.2)).getLsbD 0 then some x.1
    else if x.1.2.dirty = 0 then none
    else some (x.1.1, { x.1.2 with pois := x.1.2.pois ||| x.1.2.dirty, valid := x.1.2.dirty })
  hit.foldl (fun s q => s.poison (16 * q) 16) { s with freeCount := m + s.fabDir.length, fabDir := dir }

/-- Whether a core is fenced, or being fenced. -/
def State.isFenced (s : State) (core : Nat) : Bool :=
  (s.core core).fenced || s.saves.any fun v => v.error = some core && v.stage != 3

/-- Begin to fence a core (R249): it stops, and its teams are saved into the error save area (log 50). -/
def State.startFence (s : State) (core : Nat) (lost : Bool) : State :=
  if s.isFenced core then s
  else
    let v : Save := { asid := (s.core core).asid, op := 0, stage := 1, need := 0, error := some core, area := 0, todo := []
                      length := 0, lost := lost, clusters := [], since := s.now.toNat }
    { s with saves := s.saves ++ [v] }.saveStopAll v

/-- UNCORRECTABLE_ERROR (R95, R248, R249, R252): containment by class, and the record: of CLASS 0 `sector` is struck; of 1
an element of the group at `core` and `slot`; 2 fences `core`, unless it is fenced; 3 strikes a slice of the die `core`, which holds the sectors `dirty`; 4 the die-0 unit, or,
with `slot` not 0, the standby; 5 stops issue.  `unit` is the source number of what failed (log 50). -/
def execUncorrectableError (e : HwError) (s : State) : Host.Outcome State Fault Refusal :=
  let rec_ (die : Nat) (d0 : BitVec 64) (asid : BitVec 16) (s : State) : State :=
    s.emit die (record3 d0 e.unit e.cls.toNat false s.now 0x08 asid e.unit)
  match e.cls.toNat with
  | 0 => .next (rec_ (placeDie (16 * e.sector)) (BitVec.ofNat 64 (16 * e.sector)) 0 (s.poison (16 * e.sector) 16))
  | 1 =>
    match s.group e.core e.slot with
    | some g => .next (rec_ (dieOf e.core) 0 g.asid (s.poisonElem g e))
    | none => .next (rec_ (dieOf e.core) 0 0 s)
  | 2 =>
    if 640 ≤ e.core then .next s
    else if s.isFenced e.core then
      .next (s.emit (dieOf e.core) (record3 0 e.core 2 false s.now 0x08 (s.core e.core).asid e.core))
    else .next (s.startFence e.core e.lost)
  | 3 => .next (rec_ (e.core % 2) 0 0 (s.sliceFails (e.core % 2) e.dirty))
  | 4 =>
    let die := if e.slot = 0 then 0 else 1
    let car := s.carillon
    let dmp := s.damper
    let s := if e.unit = 643 then
        { s with carillon := if e.slot = 0 then { car with failed := car.failed || !car.standby }
                   else { car with failedStandby := true, failed := car.failed || car.standby } }
      else { s with damper := if e.slot = 0 then { dmp with failed := dmp.failed || !dmp.standby }
                   else { dmp with failed := dmp.failed || dmp.standby } }
    .next (rec_ die 0 0 s)
  | 5 =>
    let die := if e.unit = 640 then 1 else 0
    .next (rec_ die 0 0 { s.setReg 8 (s.reg 8 ||| 8) with frozen := true })
  | _ => .next s

end Sys2Proof.Machine
end

