-- ==== Sys2Proof/Machine/Platform.lean ====
section
/-!
DEFINITION. The platform (R454 to R470): writes to the registers of BAR0 (R9, R10), the mailbox, encrypted lines, the host
aperture, the partition checker (R426, R427), and reset with boot.
-/
namespace Sys2Proof.Machine

/-! ### Register writes (R9, R10, R454, R455) -/

/-- The bits of a field: n from bit lo. -/
def bitsAt (lo n : Nat) : BitVec 64 := BitVec.ofNat 64 ((2 ^ n - 1) * 2 ^ lo)

/-- The fields of a register that are written as they stand (RW) and those cleared by ones (WC), for the registers of BAR0
outside the context window; none where no register lies. -/
def regMasks (off : Nat) : Option (BitVec 64 × BitVec 64) :=
  let rw (m : BitVec 64) : Option (BitVec 64 × BitVec 64) := some (m, 0)
  let area (lo : Nat) : BitVec 64 := bitsAt lo (53 - lo)
  let stack : BitVec 64 := bitsAt 0 54
  if off % 8 ≠ 0 then none
  else match off with
    | 0x000 => some (0, 1)
    | 0x008 | 0x010 | 0x018 | 0x038 => rw 0
    | 0x020 => rw (bitsAt 36 19)
    | 0x028 => rw (bitsAt 0 20)
    | 0x030 => rw (bitsAt 6 46)
    | 0x1000 | 0x2000 => rw (1 ||| bitsAt 19 33)
    | 0x1008 | 0x2008 => rw (bitsAt 0 21)
    | 0x1010 | 0x2010 => rw (bitsAt 16 39)
    | 0x1018 | 0x2018 => rw (bitsAt 12 40)
    | 0x1020 | 0x2020 => rw (bitsAt 0 5)
    | 0x1028 | 0x2028 => rw (bitsAt 0 20)
    | 0x1030 | 0x2030 => rw 0
    | 0x1038 | 0x2038 => some (0, 1)
    | 0x1040 | 0x2040 => rw (bitsAt 0 33)
    | 0x3000 => rw (bitsAt 0 7)
    | 0x3040 => rw (bitsAt 0 18)
    | 0x3048 => rw (area 12)
    | 0x3050 => rw (bitsAt 32 32)
    | 0x4000 => rw (bitsAt 0 41)
    | 0x4008 | 0x4010 | 0x4018 | 0x4030 | 0x4040 => rw (bitsAt 0 64)
    | 0x4020 => rw (bitsAt 0 48)
    | 0x4028 => rw (bitsAt 0 32)
    | 0x4038 | 0x4048 => rw (bitsAt 0 21)
    | 0x4050 => rw (bitsAt 0 31)
    | 0x5000 => some (1, 2)
    | 0x5008 | 0x5020 | 0x5030 => rw (area 12)
    | 0x5010 => rw (bitsAt 0 27)
    | 0x5018 | 0x5028 | 0x5038 => rw stack
    | 0x5040 => rw (bitsAt 0 64)
    | 0x5048 => rw (area 6)
    | 0x5050 => rw (bitsAt 0 12)
    | 0x5058 => rw (area 5)
    | 0x5060 => rw (bitsAt 0 40)
    | 0x6000 => rw (bitsAt 0 11)
    | 0x6008 => rw (area 12)
    | 0x6010 => rw (area 21)
    | 0x6018 => rw (area 11)
    | 0x6020 => rw (bitsAt 0 8)
    | 0x6080 => rw 1
    | 0x6088 => rw 0
    | 0x7000 => rw (bitsAt 0 10 ||| bitsAt 16 10)
    | 0x7008 => rw (bitsAt 0 32)
    | 0x7010 => rw 0
    | 0x7018 => some (0, bitsAt 0 32)
    | 0x7020 | 0x7028 => some (bitsAt 12 12, bitsAt 24 1)
    | 0x8000 => rw (bitsAt 0 11)
    | 0x8008 => rw (area 6)
    | 0x8010 => rw (bitsAt 0 16)
    | 0x8018 => rw 0
    | 0xA000 => rw (bitsAt 0 16)
    | _ =>
      if 0x3100 ≤ off ∧ off < 0x3900 then
        match off % 0x20 with
        | 0x00 => rw (bitsAt 7 57)
        | 0x08 => some (bitsAt 0 22, bitsAt 22 1)
        | 0x10 => rw (bitsAt 0 16)
        | _ => rw 0
      else if 0x5068 ≤ off ∧ off ≤ 0x50A0 then rw (bitsAt 0 64)
      else if 0x6040 ≤ off ∧ off ≤ 0x6078 then rw 0xBFBFBFBFBFBFBFBF
      else if (0x9000 ≤ off ∧ off < 0x9200) ∨ (0x9200 ≤ off ∧ off < 0x9280) then rw (bitsAt 0 2 ||| bitsAt 8 14 ||| bitsAt 24 14)
      else none

/-- A partition register's range (R426): valid, die, first unit, one past the last. -/
def pcRange (w : BitVec 64) : Bool × Nat × Nat × Nat := (w.getLsbD 0, fld w 1 1, fld w 8 14, fld w 8 14 + fld w 24 14)

/-- Whether a PC_SB value breaks the bound or overlaps a protected range (R426). -/
def State.pcBad (s : State) (off : Nat) (w : BitVec 64) : Bool :=
  let r := pcRange w
  decide (12288 < r.2.2.2) || (decide (off < 0x9200) && decide (r.2.2.1 < r.2.2.2) && (List.range 16).any fun k =>
    let p := pcRange (s.reg (0x9200 + 8 * k))
    p.1 && p.2.1 = r.2.1 && decide (p.2.2.1 < p.2.2.2) && decide (r.2.2.1 < p.2.2.2) && decide (p.2.2.1 < r.2.2.2))

/-- Whether a log of a ring's size lies outside a range. -/
def logBad (n lo hi : Nat) : Bool := decide (n < lo) || decide (hi < n)

/-- Whether a new value of a register is refused (R10): a reserved or illegal value, or a field that may not change. -/
def State.regRefused (s : State) (src : Bool) (off : Nat) (old new : BitVec 64) : Bool :=
  if off = 0x020 then fld new 53 2 = 3 || (!src && fld (s.reg 8) 0 3 != 3)
  else if off = 0x030 then (s.reg 0x28).getLsbD 63
  else if off = 0x1008 ∨ off = 0x2008 then fld new 19 2 = 3
  else if off = 0x1040 ∨ off = 0x2040 then decide (4 ≤ fld new 0 3)
  else if off = 0x3048 then (s.reg 0x3040).getLsbD 63
  else if 0x3100 ≤ off ∧ off < 0x3900 then
    let q := off - off % 0x20
    let en := (s.reg (q + 8)).getLsbD 21
    match off % 0x20 with
    | 0x00 => en
    | 0x08 => logBad (fld new 0 5) 4 16 || (en && fld new 0 21 != fld old 0 21)
    | _ => false
  else if 0x4008 ≤ off ∧ off < 0x4050 then
    let en := s.carOn
    match off with
    | 0x4008 => en || fld new 0 8 != 0
    | 0x4010 => en || fld new 0 16 != 0
    | 0x4018 => en
    | 0x4020 => en || decide (fld new 0 16 < fld new 32 16 + 65) || decide (fld new 0 16 < 66) || fld new 16 16 = 0
    | 0x4028 => en
    | 0x4030 => en || fld new 0 4 != 0
    | 0x4040 => en || fld new 0 5 != 0
    | _ => logBad (fld new 0 5) 4 16 || (en && fld new 0 5 != fld old 0 5)
  else if off = 0x4050 then !s.carOn || old.getLsbD 63 || fld new 13 2 = 3
  else if 0x5008 ≤ off ∧ off < 0x6000 then (s.reg 0x5000).getLsbD 0 || (off = 0x5010 && decide (67108864 < fld new 0 27)) ||
    (off = 0x5040 && decide (fld new 27 27 < fld new 0 27))
  else if off = 0x6008 ∨ off = 0x6010 ∨ off = 0x6018 then s.efiOn
  else if off = 0x6020 then fld new 6 2 = 3
  else if off = 0x7000 then logBad (fld new 0 10) 50 800 || logBad (fld new 16 10) 50 800
  else if off = 0x7008 then decide (50000 < 32 * (fld new 0 16 + fld new 16 16))
  else if off = 0x8000 then logBad (fld new 1 5) 10 20 || logBad (fld new 6 5) 4 16 ||
    (old.getLsbD 0 && fld new 1 10 != fld old 1 10)
  else if off = 0x8008 ∨ off = 0x8010 ∨ off = 0x8018 then (s.reg 0x8000).getLsbD 0
  else if 0x9000 ≤ off ∧ off < 0xA000 then s.pcBad off new
  else false

/-- The bits that a write carries (R454): a mask of the half it reaches, and the data in their places. -/
def writeBits (w : RegWrite) : BitVec 64 × BitVec 64 :=
  match w.half.toNat with
  | 1 => (0xFFFFFFFF, w.val &&& 0xFFFFFFFF)
  | 2 => (0xFFFFFFFF00000000, w.val <<< 32)
  | _ => (BitVec.allOnes 64, w.val)

/-- The value of a register after a write of v under a mask m, with its RW and WC fields. -/
def mergeReg (old rw wc m v : BitVec 64) : BitVec 64 := ((old &&& ~~~(rw &&& m)) ||| (v &&& rw &&& m)) &&& ~~~(v &&& wc &&& m)

/-! ### The context window (R465) -/

/-- Whether a team of a context is resident, saved or placed (R465). -/
def State.ctxBusy (s : State) (asid : BitVec 16) : Bool :=
  (s.teams.any fun e => e.2.asid = asid) || !(s.ctx asid).kept.isEmpty || !(s.ctx asid).lost.isEmpty ||
    (s.saves.any fun v => v.asid = asid && (v.stage != 4 || !v.todo.isEmpty))

/-- Whether a core is being fenced for a context, so that a write that reaches USED waits (R251). -/
def State.fencing (s : State) (asid : BitVec 16) : Bool :=
  s.saves.any fun v => v.asid = asid && v.error.isSome && decide (v.stage ≤ 2)

/-- A write to a register of the selected context (R250, R443, R453, R465). -/
def State.writeCtx (s : State) (src : Bool) (off : Nat) (m v : BitVec 64) : State :=
  let asid := (s.reg 0xA000).extractLsb' 0 16
  let c := s.ctx asid
  let busy := s.ctxBusy asid
  let conf := c.cfg.getLsbD 1
  let err := s.writeError src off
  let merge (old rw : BitVec 64) : BitVec 64 := mergeReg old rw 0 m v
  match off with
  | 0xA008 =>
    let w := merge c.cfg 1
    let full := decide (1024 ≤ s.ctxs.count fun x => x.cfg.getLsbD 0)
    if busy || (w.getLsbD 0 && !c.cfg.getLsbD 0 && full) then err else s.setCtx asid { c with cfg := w }
  | 0xA010 => if busy then err else s.setCtx asid { c with evt := merge c.evt (bitsAt 12 41) }
  | 0xA018 =>
    let w := merge c.evn (bitsAt 0 17)
    if busy || w = 0 || decide (65536 < w.toNat) then err else s.setCtx asid { c with evn := w }
  | 0xA020 =>
    let w := merge c.cspg0 (bitsAt 0 6 ||| bitsAt 8 7)
    if busy || decide (64 < fld w 0 6 + fld w 8 7) then err else s.setCtx asid { c with cspg0 := w }
  | 0xA028 =>
    let w := merge c.cspg1 (bitsAt 0 6 ||| bitsAt 8 7)
    if busy || decide (64 < fld w 0 6 + fld w 8 7) then err else s.setCtx asid { c with cspg1 := w }
  | 0xA030 =>
    let w := merge c.errpol (bitsAt 0 2 ||| bitsAt 3 50)
    let esz := fld w 3 5
    if (busy && setFld w 8 16 0 != setFld c.errpol 8 16 0) || logBad esz 4 10 || fld w 24 28 * 2 ^ 24 % 2 ^ (20 + esz) != 0 then err
    else if s.fencing asid && m &&& bitsAt 8 16 != 0 then
      s.setCtx asid { c with errpol := setFld w 8 16 (fld c.errpol 8 16), usedWait := some (w.extractLsb' 8 16) }
    else s.setCtx asid { c with errpol := w }
  | 0xA038 =>
    let w := merge c.trcCtl (bitsAt 0 18)
    if conf || (busy && w ||| 1 != c.trcCtl ||| 1) || (c.trcCtl.getLsbD 0 && fld w 8 10 != fld c.trcCtl 8 10) ||
        (fld w 8 5 != 0 && logBad (fld w 8 5) 10 30) || logBad (fld w 13 5) 7 24 then err
    else s.setCtx asid { c with trcCtl := w }
  | 0xA040 => if conf || busy || c.trcCtl.getLsbD 0 then err else s.setCtx asid { c with trcBase := merge c.trcBase (bitsAt 12 41) }
  | 0xA048 => s.setCtx asid { c with trcHead := merge c.trcHead (bitsAt 0 24) }
  | 0xA050 => if busy then err else s
  | _ => err

/-- What a register of BAR0 reads (R9, R454): the context window shows the selected context, but of a
confidential one only CTX_CFG, CTX_EVN, TRC_HEAD and TRC_TAIL (R453, R465), and
EFI_EXPCTL the STUCK of the window it names and the GO of an operation that is under way (R156). -/
def State.readReg (s : State) (off : Nat) : BitVec 64 :=
  let c := s.ctx ((s.reg 0xA000).extractLsb' 0 16)
  if c.cfg.getLsbD 1 && [0xA010, 0xA020, 0xA028, 0xA030, 0xA038, 0xA040].contains off then 0
  else match off with
  | 0xA008 => c.cfg
  | 0xA010 => c.evt
  | 0xA018 => c.evn
  | 0xA020 => c.cspg0
  | 0xA028 => c.cspg1
  | 0xA030 => c.errpol
  | 0xA038 => c.trcCtl
  | 0xA040 => c.trcBase
  | 0xA048 => c.trcHead
  | 0xA050 => c.trcTail
  | 0x1038 => status 0
  | 0x7010 => BitVec.ofNat 64 (s.damper.est + s.damper.floor * 2 ^ 24)
  | 0x2038 => status 1
  | 0x6020 =>
    let w := s.reg off
    (w &&& 0xFF) ||| (if (s.exp (fld w 0 6)).stuck then 0x100 else 0) ||| if s.expGo.isSome then 1#64 <<< 63 else 0
  | _ => if (regMasks off).isSome then s.reg off else 0
where
  /-- FQ_STATUS of a die (R40): OVF, NEMPTY and PEND. -/
  status (die : Nat) : BitVec 64 :=
    let ovf := fld (s.reg (mtuReg die 0x38)) 0 1
    let some_ := if fld (s.reg (mtuReg die 0x28)) 0 20 = fld (s.reg (mtuReg die 0x30)) 0 20 then 0 else 2
    BitVec.ofNat 64 (ovf + some_ + (s.mtu die).pend.length * 4)

/-- Whether only the platform block responds: in recovery (R458), or once a class 5 error has frozen the module (R469). -/
def State.platformOnly (s : State) : Bool := s.frozen || fld (s.reg 8) 0 3 = 4

/-- What a read of BAR0 answers, of 8 bytes or of 4, which reach half of a register (R454); none where nothing responds
(R458, R469). -/
def State.hostRead (s : State) (off : Nat) (half : Bool) : Option (BitVec 64) :=
  if s.platformOnly && decide (0x1000 ≤ off) then none
  else if half then some (BitVec.ofNat 64 (fld (s.readReg (off - off % 8)) (off % 8 / 4 * 32) 32))
  else some (s.readReg off)

/-- What a sideband read answers (R468): PLT_STAT, PLT_CAPS, DMP_EST, THM0 and THM1 at their offsets in BAR0, and no other
register (log 45). -/
def State.sidebandRead (s : State) (off : Nat) : Option (BitVec 64) :=
  if [0x008, 0x018, 0x7010, 0x7020, 0x7028].contains off then s.hostRead off false else none

/-! ### The mailbox (R461 to R463) -/

/-- The place of the mailbox buffer (R461, R470). -/
def State.mbKey (s : State) : Nat := physKey 0 0 (fld (s.reg 0x30) 6 46 * 2 ^ 6)

/-- n bytes of storage from a place. -/
def State.bytesAt (s : State) (k n : Nat) : List Byte := (List.range n).map fun i => s.byte (k + i)

/-- n bytes that a function of positions gives. -/
def bytesOf (n : Nat) (f : Nat → Byte) : List Byte := (List.range n).map f

/-- The end of a mailbox command: its result; GO reads 0. -/
def State.mbDone (s : State) (res : Nat) : State :=
  (s.setReg 0x38 (BitVec.ofNat 64 res)).setReg 0x28 (s.reg 0x28 &&& ~~~(1#64 <<< 63))

/-- Whether the mailbox takes a command (R458): in recovery only a flash update, and none once the module has failed. -/
def State.mbTakes (s : State) (cmd : Nat) : Bool := !s.frozen && (fld (s.reg 8) 0 3 != 4 || cmd = 7)

/-- The attestation report (R462) on a nonce. -/
def State.report (s : State) (nonce : List Byte) : List Byte :=
  let keyed := s.ctxs.filter fun e => e.2.key.isSome
  let text := nonce ++ bytesOf 64 (Config.shake s.firmware) ++ bytesOf 64 (Config.shake s.image) ++ leBytes 8 (s.reg 0x18).toNat ++
    keyed.flatMap fun e => leBytes 8 e.1 ++ e.2.keyDigest
  text ++ bytesOf 3309 (Config.signature text)

/-- Write a command's answer into the buffer of 8 KiB. -/
def State.mbAnswer (s : State) (bs : List Byte) : State := s.putBytes s.mbKey (bs.take 8192)

/-- Command 2 (R463): with the key the counters that make nonces start again (R452; log 13). -/
def State.installKey (s : State) (asid : BitVec 16) : State × Nat :=
  if s.ctxBusy asid then (s, 3)
  else
    let ct := s.bytesAt s.mbKey 1568
    let a := leBytes 2 asid.toNat
    let key := bytesOf 32 (Config.shake (bytesOf 32 (Config.decaps ct) ++ a ++ [1]))
    let c := s.ctx asid
    let s := { s with tatIndex := 0 }
    (s.setCtx asid { c with
      key := some (BitVec.ofNat 256 (key.foldr (fun (b : Byte) (n : Nat) => b.toNat + 256 * n) 0))
      keyDigest := bytesOf 64 (Config.shake (a ++ ct)), batch := 0, cfg := c.cfg ||| 4 }, 0)

/-- Command 3 (R463). -/
def State.eraseKey (s : State) (asid : BitVec 16) : State × Nat :=
  if s.ctxBusy asid then (s, 3)
  else
    let c := s.ctx asid
    (s.setCtx asid { c with key := none, keyDigest := [], cfg := c.cfg &&& ~~~6#64 }, 0)

/-- Command 6 (R463): a confidential context's groups start with no trace class (R453). -/
def State.setConf (s : State) (asid : BitVec 16) : State × Nat :=
  let c := s.ctx asid
  let v := (s.byte s.mbKey).getLsbD 0
  if s.ctxBusy asid then (s, 3)
  else if v && c.key.isNone then (s, 2)
  else if v then (s.setCtx asid { c with cfg := c.cfg ||| 2, trcCtl := c.trcCtl &&& ~~~(bitsAt 1 7) }, 0)
  else (s.setCtx asid { c with cfg := c.cfg &&& ~~~2#64 }, 0)

/-- Command 7 (R461): a signed configuration image, which names its format and length (R459), or else signed firmware; one
that does not verify is a bad argument (log 46). -/
def State.flash (s : State) : State × Nat :=
  let head := s.read64 s.mbKey
  let isImage := fld head 0 32 = 1
  let text := s.bytesAt s.mbKey (if isImage then min 8192 (fld head 32 32) else 8192)
  if !Config.verifies isImage text then (s, 2)
  else if isImage then ({ s with image := text }, 0)
  else ({ s with firmware := text }, 0)

/-- Run a mailbox command (R461). -/
def State.mailbox (s : State) (cmd : Nat) (asid : BitVec 16) : State :=
  if !s.mbTakes cmd then s
  else
    let s := s.setReg 0x28 (BitVec.ofNat 64 (cmd % 16 + asid.toNat * 2 ^ 4 + 2 ^ 63))
    let r : State × Nat := match cmd with
      | 1 => (s.mbAnswer (s.report (s.bytesAt s.mbKey 32)), 0)
      | 2 => s.installKey asid
      | 3 => s.eraseKey asid
      | 4 => (s.mbAnswer (bytesOf 1952 Config.identityKey), 0)
      | 5 => (s.mbAnswer (bytesOf 1568 Config.encapsulationKey), 0)
      | 6 => s.setConf asid
      | 7 => s.flash
      | _ => (s, 1)
    r.1.mbDone r.2

/-- The context that MB_CMD names. -/
def State.mbAsid (s : State) : BitVec 16 := (s.reg 0x28).extractLsb' 4 16

/-- ATTEST (R462). -/
def execAttest (s : State) : Host.Outcome State Fault Refusal := .next (s.mailbox 1 s.mbAsid)
/-- INSTALL_TENANT_KEY (R463). -/
def execInstallTenantKey (asid : BitVec 16) (s : State) : Host.Outcome State Fault Refusal := .next (s.mailbox 2 asid)
/-- ERASE_TENANT_KEY (R463). -/
def execEraseTenantKey (asid : BitVec 16) (s : State) : Host.Outcome State Fault Refusal := .next (s.mailbox 3 asid)
/-- READ_IDENTITY_KEY (R461). -/
def execReadIdentityKey (s : State) : Host.Outcome State Fault Refusal := .next (s.mailbox 4 s.mbAsid)
/-- READ_ENCAPSULATION_KEY (R461). -/
def execReadEncapsulationKey (s : State) : Host.Outcome State Fault Refusal := .next (s.mailbox 5 s.mbAsid)
/-- SET_CONFIDENTIAL (R463). -/
def execSetConfidential (asid : BitVec 16) (s : State) : Host.Outcome State Fault Refusal := .next (s.mailbox 6 asid)
/-- FLASH_UPDATE (R461). -/
def execFlashUpdate (s : State) : Host.Outcome State Fault Refusal := .next (s.mailbox 7 s.mbAsid)

/-! ### REGISTER_WRITE -/

/-- The state that a meaning answers. -/
def nextOr (s : State) (o : Host.Outcome State Fault Refusal) : State :=
  match o with
  | .next t => t
  | _ => s

/-- A write with GO to MTU_INVCTL (R29, R30). -/
def State.writeInv (s : State) (src : Bool) (die : Nat) (w : BitVec 64) : State :=
  match fld w 19 2 with
  | 0 => s.invDrop src die w
  | 1 => s.invClose src die w
  | 2 => s.invOpen src die w
  | _ => s.writeError src (mtuReg die 8)

/-- Whether MTU_REPLAY accepts an operation (R42): OP 0 and 1 of a group stopped on a fault, OP 2 and 3 of a ticket that
the owner holds for the requester and whose notice entry has not been queued. -/
def State.replayTakes (s : State) (op t k n : Nat) : Bool :=
  if op < 2 then ((s.group t k).bind Group.stop).isSome
  else op < 4 && (match Tab.find s.owned n with
    | some q => q.peer = t && !q.queued
    | none => false)

/-- A write with GO to MTU_REPLAY (R42): an accepted one leaves every field as it was written (R9). -/
def State.writeReplay (s : State) (src : Bool) (die : Nat) (w : BitVec 64) : State :=
  let (t, k, n) := (fld w 3 10, fld w 13 4, fld w 17 16)
  let s := if s.replayTakes (fld w 0 3) t k n then s.setReg (mtuReg die 0x40) (w &&& 0x1FFFFFFFF) else s
  match fld w 0 3 with
  | 0 => s.replayStopped src die t k
  | 1 => s.killStopped src die t k
  | 2 => s.queueNotice src die t n 0
  | 3 => s.queueNotice src die t n 1
  | _ => s.writeError src (mtuReg die 0x40)

/-- A write with GO to EFI_EXPCTL (R170). -/
def State.writeExp (s : State) (src : Bool) (w : BitVec 64) : State :=
  match fld w 6 2 with
  | 0 => nextOr s (execExpctlOpen (fld w 0 6) src s)
  | 1 => nextOr s (execExpctlClose (fld w 0 6) src s)
  | 2 => nextOr s (execExpctlForce (fld w 0 6) src s)
  | _ => s.writeError src 0x6020

/-- A write with GO to CAR_SCMD (R216). -/
def State.writeScmd (s : State) (src : Bool) (w : BitVec 64) : State :=
  if fld w 13 2 = 3 then s.writeError src 0x4050 else s.slotCommand src (w.extractLsb' 0 13) (fld w 13 2) (w.extractLsb' 15 16)

/-- A write that sets a register's GO bit, the others of its fields being w (R9 WS). -/
def State.writeGo (s : State) (src : Bool) (off : Nat) (w : BitVec 64) : State :=
  match off with
  | 0x1008 => s.writeInv src 0 w
  | 0x2008 => s.writeInv src 1 w
  | 0x1040 => s.writeReplay src 0 w
  | 0x2040 => s.writeReplay src 1 w
  | 0x3040 => s.writePreCmd src w
  | 0x4050 => s.writeScmd src w
  | 0x6020 => s.writeExp src w
  | _ => if (s.reg 0x28).getLsbD 63 then s.writeError src 0x28 else s.mailbox (fld w 0 4) (w.extractLsb' 4 16)

/-- The offsets of the registers with a GO bit. -/
def goRegs : List Nat := [0x28, 0x1008, 0x2008, 0x1040, 0x2040, 0x3040, 0x4050, 0x6020]

/-- What a register's new value brings with it. -/
def State.regEffect (s : State) (off : Nat) (m : BitVec 64) : State :=
  if off = 0x4038 ∧ m.getLsbD 5 then if s.carillon.running then s.triggerFrame else s
  else if 0x6000 ≤ off ∧ off < 0x6080 then s.pump
  else if off = 0x5000 then s.drainHandoffs
  else s

/-- A register of Damper is written: what was in effect stays so in this ramp slot (R466). -/
def State.holdDmp (s : State) (off : Nat) : State :=
  { s with damper := { s.damper with held := Tab.put s.damper.held off (s.now.toNat / 1000, s.dmp off) } }

/-- A write of v under a mask m to the register at an offset (R9, R10, R454; log 45). -/
def State.writeReg (s : State) (src : Bool) (off : Nat) (m v : BitVec 64) : State :=
  if 0xA008 ≤ off ∧ off < 0xA058 ∧ off % 8 = 0 then s.writeCtx src off m v
  else
    match regMasks off with
    | none => s.writeError src off
    | some (rw, wc) =>
      let old := s.reg off
      let new := mergeReg old rw wc m v
      let go := goRegs.contains off && (v &&& m).getLsbD 63
      let inner := (new &&& ~~~(1#64 <<< 63)) ||| if go then 1#64 <<< 63 else 0
      if off = 0x000 then (if (v &&& m).getLsbD 0 then s.setReg 0 0 else s)
      else if off = 0x1020 ∨ off = 0x2020 then nextOr s (execFqSizeWrite (off / 0x1000 - 1) src new s)
      else if off = 0x3000 then nextOr s (execSchedCtlWrite src new s)
      else if off = 0x4000 then s.writeCarCtl src new
      else if off = 0x3040 ∨ go then s.writeGo src off inner
      else if s.regRefused src off old new || (off = 0x28 && old.getLsbD 63) then s.writeError src off
      else
        let s := if off = 0x5000 ∧ new.getLsbD 0 ∧ !old.getLsbD 0 then
            { s with carillon := { s.carillon with evictCursor := 0 } }
          else if off = 0x8000 ∧ new.getLsbD 0 ∧ !old.getLsbD 0 ∧ s.ctxs.all (fun e => e.2.key.isNone) then
            { s with tatIndex := 0 }
          else if 0x7000 ≤ off ∧ off < 0x8000 then s.holdDmp off
          else s
        (s.setReg off new).regEffect off m

/-- REGISTER_WRITE (R10, R426, R454, R455, R458, R469): a failed module, or one in recovery outside its platform block,
takes none; the partition registers are locked while a tool core runs a guest. -/
def execRegisterWrite (w : RegWrite) (s : State) : Host.Outcome State Fault Refusal :=
  let off := w.off.toNat
  let b := writeBits w
  if s.frozen || (s.platformOnly && decide (0x1000 ≤ off)) then .next s
  else if 0x9000 ≤ off ∧ off < 0x9280 ∧ s.toolGuest then .next (s.writeError w.src off)
  else .next (s.writeReg w.src off b.1 b.2)

/-! ### Guests and the host aperture (R427, R457) -/

/-- Whether the partition checker permits a sandbox an access to a physical address of a die's LPDDR-6 (R427). -/
def State.guestMay (s : State) (sandbox die pa n : Nat) : Bool :=
  let inside (r : Bool × Nat × Nat × Nat) (a : Nat) : Bool :=
    r.1 && r.2.1 = die && decide (r.2.2.1 * 2 ^ 26 ≤ a) && decide (a < r.2.2.2 * 2 ^ 26)
  decide (sandbox < 64) && (List.range n).all fun i =>
    inside (pcRange (s.reg (0x9000 + 8 * sandbox))) (pa + i) &&
      !((List.range 16).any fun k => inside (pcRange (s.reg (0x9200 + 8 * k))) (pa + i))

/-- How many bytes a guest's access is for. -/
def guestBytes : GuestReq → Nat
  | .load n => n
  | .store d => d.length
  | .amo _ d => d.length
  | .runs _ => 0

/-- Bytes as one number, little-endian (R4). -/
def leNat : List Byte → Nat
  | [] => 0
  | b :: bs => b.toNat + 256 * leNat bs

/-- What an atomic memory operation of a guest leaves of n bytes x with an operand y (log 47). -/
def guestAmo (op n x y : Nat) : Nat :=
  let signed (v : Nat) : Int := if v < 2 ^ (8 * n - 1) then v else (v : Int) - 2 ^ (8 * n)
  match op with
  | 1 => (x + y) % 2 ^ (8 * n)
  | 2 => x ^^^ y
  | 3 => x &&& y
  | 4 => x ||| y
  | 5 => if signed x ≤ signed y then x else y
  | 6 => if signed x ≤ signed y then y else x
  | 7 => min x y
  | 8 => max x y
  | _ => y

/-- An answer to a sandbox (R427). -/
def State.answerGuest (s : State) (sandbox : Nat) (fault : Option Bool) (data : List Byte) : State :=
  { s with guestOut := s.guestOut ++ [⟨sandbox, fault, data⟩] }

/-- GUEST_ACCESS (R426, R427): an access outside the notify page: one that is permitted is performed; one that is refused
moves no data, is recorded, and is an access fault of the guest; a line that a switch holds is recalled first (R166; log
47). -/
def execGuestAccess (sandbox : Nat) (die : Nat) (pa : BitVec 52) (req : GuestReq) (s : State) :
    Host.Outcome State Fault Refusal :=
  let k := physKey 1 die pa.toNat
  let n := guestBytes req
  let lines := (List.range ((k + n + 63) / 64 - k / 64)).map (k / 64 + ·)
  let t := lines.foldl (fun s q => s.fillLine 0 false q) s
  let old := t.readLE k n
  match req with
  | .runs b => .next { s with toolGuest := b }
  | req =>
    if n = 0 then .next s
    else if !s.guestMay sandbox die pa.toNat n then
      .next ((s.emit 0 (record2 (pa.zeroExtend 64) (sandbox % 2 ^ 13) 0 3 0 s.now 0x62 0 0 648)).answerGuest sandbox
        (some (match req with | .load _ => false | _ => true)) [])
    else if lines.any fun q => !(s.lentAt (64 * q)).isEmpty then .next (lines.foldl (fun s q => s.recallLine q) s)
    else
      match req with
      | .store d => .next (t.writeLE k n (leNat d))
      | .amo op d => .next ((t.writeLE k n (guestAmo op n old (leNat d))).answerGuest sandbox none ((List.range n).map fun i => t.byte (k + i)))
      | _ => .next (t.answerGuest sandbox none ((List.range n).map fun i => t.byte (k + i)))

/-- HOST_APERTURE_ACCESS (R457, R464): the slices write back what they hold of encrypted lines, and then bytes of the selected tier and die as the host sees them; beyond the tier's capacity
the completion carries no data (Unsupported Request); a write that reaches an event's COUNT may meet a dependence (R206), and
one that covers a poisoned sector clears its poison (R95). -/
def execHostApertureAccess (off : BitVec 36) (a : HostAccess) (s : State) : Host.Outcome State Fault Refusal :=
  let r := s.reg 0x20
  let tier := fld r 53 2
  let pa := fld r 36 16 * 2 ^ 36 + off.toNat
  let n := if a.write then a.data.length else a.len
  let k := physKey tier (fld r 52 1) pa
  let lines := (List.range ((k + n + 63) / 64 - k / 64)).map (k / 64 + ·)
  if s.platformOnly || n = 0 then .next s
  else if tierSize tier < pa + n then .next (if a.write then s else { s with hostOut := s.hostOut ++ [[]] })
  else if lines.any fun q => !(s.lentAt (64 * q)).isEmpty then .next (lines.foldl (fun s q => s.recallLine q) s)
  else
  let u := lines.foldl (fun s q => s.writeBackLine q) s
  if a.write then
    let t := lines.foldl (fun s q =>
      let v := (List.range 64).foldl (fun v i =>
        if k ≤ 64 * q + i ∧ 64 * q + i < k + n then linePut v i 1 (a.data.getD (64 * q + i - k) 0).toNat else v) (s.hostLine q)
      s.hostSetLine q v) u
    .next { t with poisoned := s.poisoned.filter fun q => !(decide (k ≤ 16 * q) && decide (16 * q + 16 ≤ k + n)) }.examineAll
  else
    .next { u with hostOut := u.hostOut ++ [(List.range n).map fun i =>
      BitVec.ofNat 8 (lineGet (u.hostLine ((k + i) / 64)) ((k + i) % 64) 1)] }

/-- LINE_ENCRYPT_WRITEBACK (R464): the slice writes a line of a page with CF set back under the key of the ASID that
translated it. -/
def execLineEncryptWriteback (line : Nat) (s : State) : Host.Outcome State Fault Refusal :=
  match Tab.find s.cfLines line with
  | some asid =>
    match (s.ctx asid).key, (Tab.find s.crypt line).map CryptLine.form with
    | none, _ | _, some (.altered _) => .next s
    | _, _ => .next (s.encryptLine asid line)
  | none => .next s

/-! ### Reset and boot (R458 to R460, R468, R469) -/

/-- What reset leaves (R469): every register at its reset value, flash as it was, and the bytes that memory listed at
values that nothing fixes (log 4); the model's own agenda and counters go on. -/
def State.afterReset (s : State) : State :=
  let cells := s.mem.foldl (fun (r : List Host.Cell × Nat) e =>
    let v := (Config.freeValue r.2).extractLsb' 0 8
    (if v = 0 then r.1 else (e.1, v) :: r.1, r.2 + 1)) ([], s.freeCount)
  { State.reset with
    agenda := s.agenda, freeCount := cells.2, nextId := s.nextId, mem := cells.1.reverse, firmware := s.firmware
    image := s.image, secVersion := s.secVersion, hostOut := s.hostOut, out := s.out, pcie := s.pcie, ueOut := s.ueOut }

/-- Bit i of the configuration image from a byte offset (R459). -/
def State.imageBit (s : State) (off i : Nat) : Bool := (s.image.getD (off + i / 8) 0).getLsbD (i % 8)

/-- How many of the first n bits from a byte offset of the image are set. -/
def State.imageCount (s : State) (off n : Nat) : Nat := ((List.range n).filter (s.imageBit off)).length

/-- The physical port for a logical plane: its own, or the next present one upward (R460). -/
def State.presentPort (s : State) (n : Nat) : Nat :=
  (((List.range 64).map fun i => (n + i) % 64).find? (s.imageBit 0xB68)).getD n

/-- Apply the configuration image (R458, R460): cores, ports and what PLT_CAPS counts. -/
def State.applyImage (s : State) : State :=
  let caps := s.imageCount 0x018 640 + s.imageCount 0xB68 64 * 2 ^ 10 + s.imageCount 0xB70 32 * 2 ^ 17 +
    s.imageCount 0xA68 2048 * 2 ^ 23 + s.imageCount 0xB74 16 * 2 ^ 35
  let s := s.setReg 0x18 (BitVec.ofNat 64 caps)
  let s := (List.range 640).foldl (fun s c => if s.imageBit 0x018 c then s else s.setCore c { s.core c with absent := true }) s
  (List.range 8).foldl (fun s r => s.setReg (0x6040 + 8 * r) (BitVec.ofNat 64
    ((List.range 8).map fun j => (s.presentPort (8 * r + j) + 0x80) * 2 ^ (8 * j)).sum)) s

/-- Boot (R458): each check that fails ends in recovery; else the core map is written, at an address of the firmware's
choice (log 4), and the module is ready. -/
def State.boot (s : State) : State :=
  if !Config.verifies false s.firmware then s.setReg 8 4
  else if !Config.verifies true s.image || decide (((s.image.drop 8).take 8).foldr (fun b n => b.toNat + 256 * n) 0 < s.secVersion) then
    s.setReg 8 4
  else
    let s := s.applyImage
    let d := s.drawFree
    let s := (d.1.setReg 0x10 (BitVec.ofNat 64 ((Config.freeValue d.2).toNat % (2 ^ 41 - 2 ^ 14) / 64 * 64))).setReg 8 3
    let s := s.setReg 0x3000 (s.reg 0x3000 &&& ~~~1#64)
    (List.range 640).foldl (fun s c => s.putCmap c) s

/-- MODULE_RESET (R458, R469). -/
def execModuleReset (s : State) : Host.Outcome State Fault Refusal := .next s.afterReset.boot

/-- SIDEBAND_RESET (R468): only a write of 0x5A to sideband register 0x80 resets the module. -/
def execSidebandReset (reg : BitVec 8) (w : BitVec 8) (s : State) : Host.Outcome State Fault Refusal :=
  .next (if reg = 0x80 ∧ w = 0x5A then s.afterReset.boot else s)

end Sys2Proof.Machine
end

