-- ==== Sys2Proof/Machine/Sfu.lean ====
section
/-!
DEFINITION. The special-function unit, majors 0x1D and 0x1E (R267, R326, R327).  VSQRT and VFDIV round the exact value;
the other functions return one of the values that R267's bound allows, chosen by a free value (log 8).  The functions'
values are enclosed by series in fixed point with 640 fraction bits.
-/
namespace Sys2Proof.Machine

/-- The number of fraction bits of the fixed-point series. -/
def fxBits : Nat := 640

/-- 1 in fixed point. -/
def fxOne : Nat := 2 ^ fxBits

/-- The natural logarithm of 2 in fixed point. -/
def fxLn2 : Nat := 0xb17217f7d1cf79abc9e3b39803f2f6af40f343267298b62d8a0d175b8baafa2be7b876206debac98559552fb4afa1b10ed2eae35c138214427573b291169b8253e96ca16224ae8c51acbda11317c387e

/-- Pi in fixed point. -/
def fxPi : Nat := 0x3243f6a8885a308d313198a2e03707344a4093822299f31d0082efa98ec4e6c89452821e638d01377be5466cf34e90c6cc0ac29b7c97c50dd3f84d5b5b54709179216d5d98979fb1bd1310ba698dfb5ac

/-- 2 / sqrt(pi) in fixed point. -/
def fxErfScale : Nat := 0x120dd750429b6d11ae3a914fed7fd8688281341d7587cea2e7342b06199cc416180eb39f0b24e1e2281806c12d98f35d77a3e9ddc91c394f0e9eedf0efffd84a2a4ac3b98489b8cbd3845e8fef6ff6af9

/-- A product in fixed point, rounded down. -/
def fxMul (a b : Int) : Int := a * b / (fxOne : Int)

/-- A dyadic value in fixed point, rounded down. -/
def fxOf (neg : Bool) (m : Nat) (e : Int) : Int :=
  let v := scaleTo m e (-(fxBits : Int))
  let q : Int := (v.1 >>> v.2 : Nat)
  if neg then -q else q

/-- The exponential series: the sum of t * y^j / (k+1)..(k+j). -/
def expSeries (y : Int) : Nat → Nat → Int → Int
  | 0, _, _ => 0
  | fuel + 1, k, t => t + expSeries y fuel (k + 1) (fxMul t y / (k + 1 : Nat))

/-- e^y as (m, n): m * 2^n / 2^fxBits with 1 <= m / 2^fxBits < 2. -/
def expParts (y : Int) : Int × Int :=
  let n := y / (fxLn2 : Int)
  (expSeries (y - n * fxLn2) 110 0 fxOne, n)

/-- e^y in fixed point for |y| of at most a few hundred. -/
def expFx (y : Int) : Int :=
  let p := expParts y
  if 0 ≤ p.2 then p.1 * (2 ^ p.2.toNat : Nat) else p.1 / (2 ^ (-p.2).toNat : Nat)

/-- The series of atanh: the sum of t * z^2j / (2j + 1). -/
def atanhSeries (z2 : Int) : Nat → Nat → Int → Int
  | 0, _, _ => 0
  | fuel + 1, k, t => t / (2 * k + 1 : Nat) + atanhSeries z2 fuel (k + 1) (fxMul t z2)

/-- The natural logarithm, in fixed point, of m * 2^e with m not 0. -/
def lnFx (m : Nat) (e : Int) : Int :=
  let n := bitLen m
  -- m = (1 + u / 2^(n-1)) * 2^(n-1)
  let one := 2 ^ (n - 1)
  let z : Int := ((m - one) * fxOne / (m + one) : Nat)
  2 * atanhSeries (fxMul z z) 210 0 z + (e + (n - 1 : Nat)) * fxLn2

/-- The sine series: t - t y^2 / (k+1)(k+2) + ... -/
def sinSeries (y2 : Int) : Nat → Nat → Int → Int
  | 0, _, _ => 0
  | fuel + 1, k, t => t + sinSeries y2 fuel (k + 2) (-(fxMul t y2) / ((k + 1) * (k + 2) : Nat))

/-- The sine of a dyadic value plus q quarter turns, in fixed point. -/
def sinFx (neg : Bool) (m : Nat) (e : Int) (q : Nat) : Int :=
  let half : Int := (fxPi / 2 : Nat)
  let y := fxOf false m e
  let k := y / half
  let r := y - k * half
  -- sin(x) for x >= 0 in quadrant k + q; a negative argument mirrors the sine and keeps the cosine
  let quad := ((k + q) % 4).toNat
  let sn := sinSeries (fxMul r r) 60 1 r
  let cs := sinSeries (fxMul r r) 60 0 fxOne
  let v := match quad with
    | 0 => sn
    | 1 => cs
    | 2 => -sn
    | _ => -cs
  if neg && q = 0 then -v else v

/-- The series of the error function: t / (2k+1) with t = (-y^2)^k y / k!. -/
def erfSeries (y2 : Int) : Nat → Nat → Int → Int
  | 0, _, _ => 0
  | fuel + 1, k, t => t / (2 * k + 1 : Nat) + erfSeries y2 fuel (k + 1) (-(fxMul t y2) / (k + 1 : Nat))

/-- The error function of a value between 0 and 7, in fixed point. -/
def erfFx (y : Int) : Int := fxMul fxErfScale (erfSeries (fxMul y y) 300 0 y)

/-- A fixed-point value as sign, magnitude and exponent. -/
def fxParts (v : Int) : Bool × Nat × Int := (decide (v < 0), v.natAbs, -(fxBits : Int))

/-- The enclosure of a special function on a finite operand that R327 lists no result for: sign, magnitude and exponent
of the function's value, cut to fixed point.  Functions: 4 VEXP2, 5 VSIN, 6 VCOS, 7 VTANH of major 0x1D (as 0 to 7), 8 + fn
of major 0x1E. -/
def sfuValue (fn : Nat) (neg : Bool) (m : Nat) (e : Int) : Bool × Nat × Int :=
  -- an operand of magnitude 2^9 or more is far past overflow, underflow or saturation of every function below
  let big := decide (9 ≤ e + (bitLen m : Int) - 1)
  let y := if big then (if neg then -(512 : Int) else 512) * fxOne else fxOf neg m e
  match fn with
  | 3 =>
    let n := y / (fxOne : Int)
    let p := expSeries (fxMul (y - n * fxOne) fxLn2) 110 0 fxOne
    (false, p.toNat, n - fxBits)
  | 4 =>
    let v := lnFx m e
    fxParts (v * fxOne / (fxLn2 : Int))
  | 5 => fxParts (sinFx neg m e 0)
  | 6 => fxParts (sinFx neg m e 1)
  | 7 =>
    let a : Int := y.natAbs
    let t := expFx (2 * (if a < 200 * fxOne then a else 200 * fxOne))
    (neg, ((t - fxOne) * fxOne / (t + fxOne)).toNat, -(fxBits : Int))
  | 9 =>
    if y < -(300 * fxOne : Int) then (false, 1, -400)
    else
      let t := expFx (if y < 300 * fxOne then -y else -(300 * fxOne))
      (false, ((fxOne * fxOne : Nat) : Int) / (fxOne + t) |>.toNat, -(fxBits : Int))
  | 10 =>
    let a : Int := y.natAbs
    (neg, if a < 7 * fxOne then (erfFx a).toNat else fxOne - 1, -(fxBits : Int))
  | _ =>
    -- ln(1 + x), x > -1
    let one := addExact false 1 0 neg m e
    fxParts (lnFx one.1.toNat one.2)

/-- The allowed results around an enclosure (R267): magnitudes within `ulp` of the value, as encodings without sign. -/
def sfuCandidates (f : Fmt) (m : Nat) (e : Int) (sticky : Bool) (ulp : Nat) : List Nat :=
  let lo := (f.round ⟨1, 0, false, false⟩ false m e sticky).1
  let hi := (f.round ⟨3, 0, false, false⟩ false m e sticky).1
  let k := if lo = hi then ulp else ulp - 1
  ((List.range (2 * k + 1 + (hi - lo))).map fun i => lo + i - k).filter fun c => decide (c ≤ f.maxFinite)

/-- A function's result within its bound (R267): overflow is judged to nearest even (R264); otherwise a free choice
among the allowed neighbours, NX set; a subnormal result sets UF and is flushed under FTZ (R265). -/
def sfuPick (f : Fmt) (ftz : Bool) (choice : Nat) (neg : Bool) (m : Nat) (e : Int) (sticky : Bool) (ulp : Nat) :
    Nat × Exc :=
  let near := f.round Rnd.rne neg m e sticky
  if near.2.getLsbD 2 then near
  else
    let cs := sfuCandidates f m e sticky ulp
    let mag := (cs[choice % cs.length]?).getD (f.mag near.1)
    if mag < 2 ^ f.mb then
      (f.signed neg (if ftz then 0 else mag), Exc.nx ||| Exc.uf)
    else (f.signed neg mag, Exc.nx)

/-- The result of a special function of one operand (R267, R327): function number as in `sfuValue`, with 0 VRCP, 1 VRSQ,
2 VSQRT. -/
def sfuOne (fn type : Nat) (f : Fmt) (rd : Rnd) (w : Nat) : Nat × Exc :=
  let choice := Config.sfuChoice fn type w
  let one (neg : Bool) : Nat := f.signed neg (f.round Rnd.rne false 1 0 false).1
  match f.decode w with
  | .nan sig => (f.qnan, if sig then Exc.nv else 0)
  | .inf neg =>
    match fn with
    | 0 => (f.signed neg 0, 0)
    | 1 => if neg then (f.qnan, Exc.nv) else (0, 0)
    | 2 => if neg then (f.qnan, Exc.nv) else (f.infinity false, 0)
    | 3 => if neg then (0, 0) else (f.infinity false, 0)
    | 4 => if neg then (f.qnan, Exc.nv) else (f.infinity false, 0)
    | 5 | 6 => (f.qnan, 0)
    | 7 | 10 => (one neg, 0)
    | 9 => (if neg then 0 else one false, 0)
    | _ => if neg then (f.qnan, Exc.nv) else (f.infinity false, 0)
  | .fin neg m e =>
    if m = 0 then
      match fn with
      | 0 => (f.infinity neg, Exc.dz)
      | 1 => (f.infinity neg, Exc.dz)
      | 2 => (f.signed neg 0, 0)
      | 3 => (one false, 0)
      | 4 => (f.infinity true, Exc.dz)
      | 5 | 7 | 10 | 11 => (f.signed neg 0, 0)
      | 6 => sfuPick f rd.ftz choice false 1 0 false 2
      | _ => sfuPick f rd.ftz choice false 1 (-1) false 2
    else
      -- the operand is 2^k * n / 2^(length of n - 1): a power of two when n has one bit
      let top : Int := e + (bitLen m : Int) - 1
      let pow2 := decide (m = 2 ^ (bitLen m - 1))
      match fn with
      | 0 =>
        if pow2 then f.round rd neg 1 (-top) false
        else
          let k := 96 + bitLen m
          let q := 2 ^ k / m
          sfuPick f rd.ftz choice neg q (-e - k) true 1
      | 1 =>
        if neg then (f.qnan, Exc.nv)
        else if pow2 && decide (top % 2 = 0) then f.round rd false 1 (-(top / 2)) false
        else
          let m2 := if e % 2 = 0 then m else m * 2
          let e2 := if e % 2 = 0 then e else e - 1
          let k := 200 + 2 * bitLen m2
          let q := isqrt (2 ^ k / m2)
          sfuPick f rd.ftz choice false q (-(e2 / 2) - k / 2) true 1
      | 2 => f.sqrt rd (.fin neg m e)
      | 3 =>
        let v := scaleTo m e 0
        if (v.1 >>> v.2) <<< v.2 = v.1 then
          let n : Int := min ((v.1 >>> v.2 : Nat) : Int) 1000
          f.round rd false 1 (if neg then -n else n) false
        else
          let p := sfuValue 3 neg m e
          sfuPick f rd.ftz choice false p.2.1 p.2.2 true 1
      | 4 =>
        if neg then (f.qnan, Exc.nv)
        else if pow2 then f.round rd (decide (top < 0)) top.natAbs 0 false
        else
          let p := sfuValue 4 neg m e
          sfuPick f rd.ftz choice p.1 p.2.1 p.2.2 true 1
      | 11 =>
        let one := addExact false 1 0 neg m e
        if one.1 = 0 then (f.infinity true, 0)
        else if one.1 < 0 then (f.qnan, Exc.nv)
        else
          let p := sfuValue 11 neg m e
          sfuPick f rd.ftz choice p.1 p.2.1 p.2.2 true 2
      | _ =>
        let p := sfuValue fn neg m e
        sfuPick f rd.ftz choice p.1 p.2.1 p.2.2 true 2

/-- Issue of a special function (R326): the active lanes' elements are marked empty and the results, computed from the
operands as read, wait in the unit with their exceptions until they fill. -/
def sfuIssue (i : Instr) (x : Pfx) (r : RRR) (two : Bool) (op : Nat → Fmt → Rnd → Nat → Nat → Nat × Exc) :
    State → Host.Outcome State Fault Refusal :=
  issueS i noLimit fun s g => do
    let q := rrrAt r x g.repIdx
    let d := q.d.toNat
    let a := q.a.toNat
    let b := q.b.toNat
    let t := typeOr x 11
    let f := fmtOf t
    let act := g.active x
    gate g x true ([(.v a 1 act, q.wa)] ++ if two then [(.v b 1 act, q.wb)] else []) [.v d 1 act]
    let enc (k l : Nat) : Nat := f.flushIn g.ftz ((g.vel k l).val.toNat % 2 ^ f.bits)
    let step (st : Group × List (Nat × Word × Bool) × Exc) (l : Nat) : Group × List (Nat × Word × Bool) × Exc :=
      let k := st.1.takeDraw x
      let y := op t f (g.rnd x k.1) (enc a l) (enc b l)
      let pz := g.vpois a 1 l || (two && g.vpois b 1 l) || (g.trapen.getLsbD 0 && y.2.getLsbD 0)
      (k.2.emptyV (g.vreg d) l, st.2.1 ++ [(l, BitVec.ofNat 32 y.1, pz)], st.2.2 ||| y.2)
    let res := (lanesOf g.width act).foldl step (g, [], 0)
    if act = 0 then return (s, g)
    else
      let id := s.newId
      let o : SfuOp := ⟨g.core, g.slot, g.vreg d, res.2.1, res.2.2⟩
      return ({ id.1 with sfuops := Tab.put id.1.sfuops id.2 o }, res.1)

/-- VRCP (R326, R327): reciprocal. -/
def execVrcp (x : Pfx) (r : RRR) (s : State) : Host.Outcome State Fault Refusal :=
  sfuIssue (.vrcp x r) x r false (fun t f rd a _ => sfuOne 0 t f rd a) s

/-- VRSQ (R326, R327): reciprocal square root. -/
def execVrsq (x : Pfx) (r : RRR) (s : State) : Host.Outcome State Fault Refusal :=
  sfuIssue (.vrsq x r) x r false (fun t f rd a _ => sfuOne 1 t f rd a) s

/-- VSQRT (R326, R327): square root, correctly rounded. -/
def execVsqrt (x : Pfx) (r : RRR) (s : State) : Host.Outcome State Fault Refusal :=
  sfuIssue (.vsqrt x r) x r false (fun t f rd a _ => sfuOne 2 t f rd a) s

/-- VEXP2 (R326, R327): 2 to the power a. -/
def execVexp2 (x : Pfx) (r : RRR) (s : State) : Host.Outcome State Fault Refusal :=
  sfuIssue (.vexp2 x r) x r false (fun t f rd a _ => sfuOne 3 t f rd a) s

/-- VLOG2 (R326, R327): base-2 logarithm. -/
def execVlog2 (x : Pfx) (r : RRR) (s : State) : Host.Outcome State Fault Refusal :=
  sfuIssue (.vlog2 x r) x r false (fun t f rd a _ => sfuOne 4 t f rd a) s

/-- VSIN (R326, R327): sine of radians. -/
def execVsin (x : Pfx) (r : RRR) (s : State) : Host.Outcome State Fault Refusal :=
  sfuIssue (.vsin x r) x r false (fun t f rd a _ => sfuOne 5 t f rd a) s

/-- VCOS (R326, R327): cosine of radians. -/
def execVcos (x : Pfx) (r : RRR) (s : State) : Host.Outcome State Fault Refusal :=
  sfuIssue (.vcos x r) x r false (fun t f rd a _ => sfuOne 6 t f rd a) s

/-- VTANH (R326, R327): hyperbolic tangent. -/
def execVtanh (x : Pfx) (r : RRR) (s : State) : Host.Outcome State Fault Refusal :=
  sfuIssue (.vtanh x r) x r false (fun t f rd a _ => sfuOne 7 t f rd a) s

/-- VSIGM (R326, R327): 1 / (1 + e^-a). -/
def execVsigm (x : Pfx) (r : RRR) (s : State) : Host.Outcome State Fault Refusal :=
  sfuIssue (.vsigm x r) x r false (fun t f rd a _ => sfuOne 9 t f rd a) s

/-- VERF (R326, R327): error function. -/
def execVerf (x : Pfx) (r : RRR) (s : State) : Host.Outcome State Fault Refusal :=
  sfuIssue (.verf x r) x r false (fun t f rd a _ => sfuOne 10 t f rd a) s

/-- VLOG1P (R326, R327): ln(1 + a). -/
def execVlog1p (x : Pfx) (r : RRR) (s : State) : Host.Outcome State Fault Refusal :=
  sfuIssue (.vlog1p x r) x r false (fun t f rd a _ => sfuOne 11 t f rd a) s

/-- VFDIV (R326, R327): a / b, correctly rounded. -/
def execVfdiv (x : Pfx) (r : RRR) (s : State) : Host.Outcome State Fault Refusal :=
  sfuIssue (.vfdiv x r) x r true (fun _ f rd a b => f.div rd (f.decode a) (f.decode b)) s

/-- SFU_RESULT (R192, R234, R326): an operation's results fill their lane words and its exceptions set FLAGS.  A
pending result of no group is dropped (R246). -/
def execSfuResult (op : Nat) (s : State) : Host.Outcome State Fault Refusal :=
  match Tab.find s.sfuops op with
  | none => .next s
  | some o =>
    let s := { s with sfuops := Tab.drop s.sfuops op }
    match s.group o.core o.slot with
    | none => .next s
    | some g =>
      let g := o.res.foldl (fun h e => h.writeBlk o.dst e.1 e.2.1 e.2.2) g
      .next (s.setGroup { g.raise o.exc with waiting := false })

end Sys2Proof.Machine
end

