-- ==== Sys2Proof/Machine/Slice.lean ====
section
/-!
DEFINITION. The switch slices that stand between requesters and owners (R155, R166 to R168), and the packets that come
back through them: tickets, answers, RECALLs and RECACKs.
-/
namespace Sys2Proof.Machine

/-! ### Lines of a slice -/

/-- The mark of a slice's own ownership in its directory entry. -/
def sliceOwned : Nat := 1024

/-- The bit of an access type in what a slice knows to be permitted. -/
def permBit (typ : Nat) : BitVec 3 := match typ with | 1 => 1 | 2 => 2 | _ => 4

/-- The line that a packet of a request names in the directory of its plane (R167). -/
def requestKey (f : Flit) : Nat := l2Key f.plane.toNat f.dst.toNat f.line

/-- A slice's line. -/
def State.slice (s : State) (k : Nat) : SliceLine := Tab.get SliceLine.none s.slices k

/-- Set a slice's line. -/
def State.setSlice (s : State) (k : Nat) (c : SliceLine) : State := { s with slices := Tab.set SliceLine.none s.slices k c }

/-- A packet that a switch sends on its plane. -/
def State.switchSends (s : State) (fs : List Flit) : State := { s with out := s.out ++ fs }

/-- Add an entry to what a slice holds back. -/
def State.sliceHold (s : State) (p : SlicePend) : State := { s with slicePend := s.slicePend ++ [p] }

/-- Remove an entry. -/
def State.sliceFree (s : State) (p : SlicePend) : State := { s with slicePend := s.slicePend.filter (· ≠ p) }

/-- A slice's RECALL of a holder's L2 copy (R167): it carries the owner node as its source. -/
def sliceRecall (f : Flit) (owner holder : Nat) : Flit :=
  { flitOf 0x0F owner holder with plane := f.plane, line := f.line, win := f.win }

/-- Ask the owner for the line of a request (R166): shared, or owned where asked; what the slice asks for itself takes no
ticket (NF). -/
def sliceAsk (f : Flit) (excl serve : Bool) : Flit :=
  { f with
    typ := 1, fc := true, excl := excl, nf := f.nf || !serve, sect := 0xF, bmask := 0, pois := 0, aop := 0, atype := 0
    data := 0, cmp := 0 }

/-- Whether a slice may serve a request from its line (R166): WIN, GEN and KEY match, and the access type is permitted. -/
def SliceLine.serves (c : SliceLine) (f : Flit) : Bool :=
  c.valid = 0xF && c.win = f.win && c.gen = f.gen && c.key = f.key && !f.replay &&
    c.perm &&& permBit f.typ.toNat != 0 && (!(f.fc && f.excl) || c.perm &&& permBit 2 != 0)

/-- Answer a RECALL from a copy (R166, R167): its dirty sectors go back. -/
def recallAnswer (c : SliceLine) (f : Flit) : Flit :=
  { flitOf 0x10 f.dst.toNat f.src.toNat with
    plane := f.plane, tag := f.tag, line := f.line, win := f.win, hop := f.hop, dirty := c.dirty, pois := c.pois
    data := if c.dirty = 0 then 0 else c.data }

/-! ### Serving -/

/-- Send the RECALLs of a request to holders, which it waits for (R167). -/
def State.sliceRecalls (s : State) (f : Flit) (k owner : Nat) (hs : List Nat) : State :=
  (s.sliceHold ⟨f.plane.toNat, k, f, .holders, hs, true⟩).switchSends (hs.map (sliceRecall f owner))

/-- Ask the owner, and wait for its grant. -/
def State.sliceAsks (s : State) (f : Flit) (k : Nat) (excl serve : Bool) : State :=
  (s.sliceHold ⟨f.plane.toNat, k, f, .grant, [], serve⟩).switchSends [sliceAsk f excl serve]

/-- Forward a request to the owner (R166).  While the slice holds a copy of the line, later requests for it wait for the
answer, so that none passes this one (R155). -/
def State.sliceForwards (s : State) (f : Flit) (k : Nat) (held : Bool) : State :=
  let s := s.switchSends [f]
  if held then s.sliceHold ⟨f.plane.toNat, k, f, .answer, [], true⟩ else { s with sliceFwd := s.sliceFwd ++ [f] }

/-- Serve a request at a slice (R166 to R168): from its copy where that serves it, with the holders' copies recalled first,
else by asking the owner for a fabric-coherent line, which the directory then notes, or by forwarding; and a RECALL, with
the holders' copies recalled first.  A page request, which has no answer (R354), goes on to the owner. -/
def State.sliceServe (s : State) (f : Flit) (k : Nat) : State :=
  let c := s.slice k
  let others := c.holders.filter (· ≠ f.src.toNat)
  let dirty := match c.excl with | some n => if n = sliceOwned ∨ n = f.src.toNat then [] else [n] | none => []
  let held := c.valid != 0
  if flitAsksPage f then s.switchSends [f]
  else if f.typ = 0x0F then
    if c.holders.isEmpty then { s with slices := Tab.drop s.slices k }.switchSends [recallAnswer c f]
    else s.sliceRecalls f k f.src.toNat c.holders
  else if f.typ = 1 ∧ f.fc then
    if !c.serves f ∨ (f.excl ∧ c.excl.isNone) then s.sliceAsks f k f.excl true
    else if f.excl && !others.isEmpty then s.sliceRecalls f k f.dst.toNat others
    else if !dirty.isEmpty then s.sliceRecalls f k f.dst.toNat dirty
    else
      let c := { c with
        holders := if c.holders.contains f.src.toNat then c.holders else f.src.toNat :: c.holders
        excl := if f.excl then some f.src.toNat else c.excl }
      (s.setSlice k c).switchSends [{ answerTo f 0 c.data (c.pois &&& f.sect) with grant := f.excl }]
  else if f.typ = 1 then
    if !c.serves f then s.sliceForwards f k held
    else if !dirty.isEmpty then s.sliceRecalls f k f.dst.toNat dirty
    else s.switchSends [answerTo f 0 c.data (c.pois &&& f.sect)]
  else if !c.serves f ∨ c.excl.isNone then s.sliceForwards f k held
  else if c.holders ≠ [] then s.sliceRecalls f k f.dst.toNat c.holders
  else
    let r := flitPerform f c.data c.pois
    let c := { c with data := r.1, pois := r.2.1, dirty := 0xF, excl := some sliceOwned }
    (s.setSlice k c).switchSends [answerTo f 0 r.2.2.1 r.2.2.2]

/-- Serve what waits for its turn on a line, in order, until something is under way on it again (R155), with `fuel`. -/
def State.sliceNext (s : State) (k : Nat) : Nat → State
  | 0 => s
  | n + 1 =>
    if s.slicePend.any fun p => p.line = k && p.wait != .turn then s
    else
      match s.slicePend.find? fun p => p.line = k with
      | some p => State.sliceNext ((s.sliceFree p).sliceServe p.req k) k n
      | none => s

/-- Go on with a line of a slice, and answer the RECALL of a whole window whose lines are all back (R170). -/
def State.sliceGoOn (s : State) (k : Nat) : State :=
  let s := s.sliceNext k (s.slicePend.length + 1)
  let whole (p : SlicePend) : Bool := p.req.typ = 0x0F && p.req.line = wholeWindow
  let open_ (p : SlicePend) : Bool := s.slicePend.any fun q => q.req.typ = 0x0F && !whole q && q.plane = p.plane &&
    q.req.win = p.req.win && q.req.src = p.req.src
  let done := s.slicePend.filter fun p => whole p && !open_ p
  State.switchSends { s with slicePend := s.slicePend.filter fun p => !done.contains p }
    (done.map fun (p : SlicePend) => recallAnswer SliceLine.none p.req)

/-- SWITCH_REQUEST (R166): a request at the slice of its plane; one for a line that the slice is busy with waits behind
it (R155). -/
def execSwitchRequest (plane : Nat) (f : Flit) (s : State) : Host.Outcome State Fault Refusal :=
  let f := { f with plane := BitVec.ofNat 6 plane }
  let k := requestKey f
  if headerBad f.header ∨ 3 < f.typ.toNat then .next s
  else if s.slicePend.any fun p => p.line = k then .next (s.sliceHold ⟨plane % 64, k, f, .turn, [], true⟩)
  else .next (s.sliceServe f k)

/-! ### Answers that pass a slice -/

/-- Whether an answer is that of a request: the same tag and line, from its owner to its source. -/
def answers (a f : Flit) : Bool := a.tag = f.tag && a.line = f.line && a.src = f.dst && a.dst = f.src

/-- A grant from the owner reaches the slice that asked (R166): the line is installed beside the holders that the directory
knows, and the request that it was asked for is served; a refusal answers that request. -/
def State.sliceGrant (s : State) (p : SlicePend) (f : Flit) : State :=
  let s := s.sliceFree p
  let s :=
    if f.status ≠ 0 then (if p.serve then s.switchSends [{ f with src := p.req.dst, dst := p.req.src, fc := false }] else s)
    else
      let old := s.slice p.line
      let same := old.valid = 0xF && old.win = p.req.win && old.gen = p.req.gen && old.key = p.req.key
      let s := s.setSlice p.line { old with
        data := if old.dirty = 0 then f.data else old.data, pois := if old.dirty = 0 then f.pois else old.pois, valid := 0xF
        excl := if f.grant then (match old.excl with | some n => some n | none => some sliceOwned) else old.excl
        win := p.req.win, gen := p.req.gen, key := p.req.key
        perm := (if same then old.perm else 0) ||| 1 ||| (if f.grant then 2 else 0) ||| permBit p.req.typ.toNat }
      if p.serve then s.sliceServe { p.req with replay := false } p.line else s
  s.sliceGoOn p.line

/-- The owner's answer to a request that a slice forwarded passes it (R166): requests that waited go on, and after one that
the owner performed the slice may ask for the line, a free choice (log 22). -/
def State.sliceSaw (s : State) (f : Flit) (ok : Bool) : State :=
  let p := s.slicePend.find? fun p => (p.wait = .answer || (p.wait = .grant && p.serve && f.typ = 7)) && answers f p.req
  match p, s.sliceFwd.find? (answers f) with
  | none, none => s
  | p, r =>
    let req := ((p.map SlicePend.req).orElse fun _ => r).getD f
    let k := requestKey req
    let s := match p with | some p => s.sliceFree p | none => { s with sliceFwd := s.sliceFwd.filter fun q => !(answers f q) }
    if !ok then s.sliceGoOn k
    else
      let d := s.drawFree
      if (Config.freeValue d.2).getLsbD 0 && !(s.slicePend.any fun q => q.line = k && q.wait != .turn) then
        d.1.sliceAsks { req with replay := false } k (req.typ ≠ 1) false
      else d.1.sliceGoOn k

/-- TICKET (R46, R47): the line is kept under its ticket, its lanes' destinations still empty, and what joined its request
asks for itself (R84); the timeout runs from the first ticket (R49).  A slice that waits for its answer goes on. -/
def execTicket (f : Flit) (s : State) : Host.Outcome State Fault Refusal :=
  let s := s.sliceSaw f false
  if !s.takes f then .next (s.discard f)
  else
    match s.byFlit f with
    | some (k, j) =>
      match Tab.find s.memops k with
      | some o =>
        let t : BitVec 16 := f.tkt.extractLsb' 0 16
        let s := s.modLine k j fun l => { l with
          at_ := .ticketed t, kept := o.engine.isNone, joinable := false, replayOf := none, sect := 0, joined := 0
          firstTicket := match l.firstTicket with | some n => some n | none => some s.now.toNat }
        .next ((s.bumpOp o 0x00A).traceTicket o t f.src.toNat 0).pump
      | none => .next s
    | none => .next (s.orphanAnswered f).pump

/-- An answer to a request of any requester: it passes the slice, and reaches a line of this package where it is for it. -/
def State.answered (s : State) (f : Flit) : State :=
  let s := s.sliceSaw f (f.status = 0)
  if s.takes f then s.respond f else s.discard f

/-- WRACK (R161, R164): a fabric store is performed, or refused. -/
def execWrack (f : Flit) (s : State) : Host.Outcome State Fault Refusal := .next (s.answered f)

/-- ATRSP (R164, R168): the old values of a fabric atomic, with poison for what was not performed, or a refusal. -/
def execAtrsp (f : Flit) (s : State) : Host.Outcome State Fault Refusal := .next (s.answered f)

/-- RDRSP (R85, R164, R166): a read response reaches a requester's line, or the switch slice that asked for its line. -/
def execRdrsp (f : Flit) (s : State) : Host.Outcome State Fault Refusal :=
  match s.slicePend.find? fun p => p.wait = .grant && answers f p.req with
  | some p => if headerBad f.header then .next s else .next (s.sliceGrant p f)
  | none => .next (s.answered f)

/-! ### RECALL and RECACK -/

/-- Recall one line of a slice for its owner (R166, R167): the L2 copies that the directory knows go first; the RECALL goes
before the requests that wait for the line, but lets the recalls of holders that are under way end. -/
def State.recallSlice (s : State) (f : Flit) (k : Nat) : State :=
  if s.slicePend.any fun p => p.line = k && p.wait = .holders then
    { s with slicePend := ⟨f.plane.toNat, k, f, .turn, [], true⟩ :: s.slicePend }
  else s.sliceServe f k

/-- RECALL (R166, R167): one from an owner to the switch of its plane returns the switch's line, or every line of a window
that R170 closes; any other is for the package's L2 copy. -/
def execRecall (f : Flit) (s : State) : Host.Outcome State Fault Refusal :=
  if !f.hop then
    if !s.takes f then .next (s.discard f)
    else
      let k := l2Key f.plane.toNat f.src.toNat f.line
      .next (State.send { s with fabDir := Tab.drop s.fabDir k } (recallAnswer (Tab.get SliceLine.none s.fabDir k) f))
  else if headerBad f.header then .next s
  else
    let at_ := l2Key f.plane.toNat f.src.toNat
    if f.line = wholeWindow then
      let ks := (s.slices.filter fun e => e.2.win = f.win && decide (e.1 / 2 ^ 50 = at_ 0 / 2 ^ 50)).map (·.1)
      let s := ks.foldl (fun s k => s.recallSlice { f with line := BitVec.ofNat 50 k } k) s
      .next ((s.sliceHold ⟨f.plane.toNat, at_ f.line, f, .turn, [], true⟩).sliceGoOn (at_ 0))
    else .next ((s.recallSlice f (at_ f.line)).sliceGoOn (at_ f.line))

/-- Take the dirty sectors of a RECACK into a line. -/
def mergeDirty (data : BitVec 512) (f : Flit) : BitVec 512 :=
  (List.range 4).foldl (fun d q => if f.dirty.getLsbD q then linePut d (16 * q) 16 (lineGet f.data (16 * q) 16) else d) data

/-- A holder's RECACK at the slice that recalled it (R167): its dirty sectors merge, and the last one lets the request
that waits be served. -/
def State.sliceAcked (s : State) (p : SlicePend) (f : Flit) : State :=
  let c := s.slice p.line
  let s := s.setSlice p.line { c with
    data := mergeDirty c.data f, pois := (c.pois &&& ~~~f.dirty) ||| (f.pois &&& f.dirty), dirty := c.dirty ||| f.dirty
    holders := c.holders.erase f.src.toNat, excl := if c.excl = some f.src.toNat then some sliceOwned else c.excl }
  let p' := { p with recalls := p.recalls.erase f.src.toNat }
  if p'.recalls.isEmpty then ((s.sliceFree p).sliceServe p.req p.line).sliceGoOn p.line
  else { s with slicePend := s.slicePend.map fun q => if q = p then p' else q }

/-- A switch's RECACK at the owner (R166, R170): its dirty sectors reach memory and the requests that waited go on, or one
more switch has answered for a closing window. -/
def State.ownerAcked (s : State) (f : Flit) : State :=
  if f.line = wholeWindow then
    let w := f.win.toNat
    let e := s.exp w
    if e.st = 2 then
      State.expSettle { s with exports := Tab.set Export.closed s.exports w { e with recalls := e.recalls - 1 } } w
    else s
  else
    let me := lentKey f.line f.plane
    match Tab.first s.lent fun ls => ls.contains me with
    | some q =>
      let s := { s with lent := Tab.set [] s.lent q ((Tab.get [] s.lent q).erase me), recalling := s.recalling.erase me }
      let s := if f.dirty = 0 then s
        else s.putLine (64 * q) (mergeDirty (BitVec.ofNat 512 (s.readLE (64 * q) 64)) f)
          ((s.poisAt (64 * q) &&& ~~~f.dirty) ||| (f.pois &&& f.dirty))
      if (s.lentAt (64 * q)).isEmpty then s.ownerResume (64 * q) else s
    | none => s

/-- RECACK (R166, R167, R170): one from the switch of a plane is for the owner; any other comes from a holder and is for the
slice. -/
def execRecack (f : Flit) (s : State) : Host.Outcome State Fault Refusal :=
  if !f.hop then
    if headerBad f.header then .next s
    else
      let k := l2Key f.plane.toNat f.dst.toNat f.line
      match s.slicePend.find? fun p => p.line = k && p.wait = .holders && p.recalls.contains f.src.toNat with
      | some p => .next (s.sliceAcked p f)
      | none => .next s
  else if s.takes f then .next (s.ownerAcked f)
  else .next (s.discard f)

end Sys2Proof.Machine
end

