-- ==== Sys2Proof/Machine/Tape.lean ====
section
/-!
DEFINITION. Tapes, dependence counters and weight slots: major 0x34 (R404 to R410).  Each is one atomic action, performed
at issue.
-/
namespace Sys2Proof.Machine

/-- A structure's address: package-local and aligned, else the address fault (R404; log 52). -/
def tapeAddr (va : BitVec 64) (align access : Nat) : Run Unit :=
  need (addrOk va && !isFabric va && decide (va.toNat % align = 0)) (.fateAt 0x10 va 0 access)

/-- Write p14 in every lane (R406, R410). -/
def Group.statusAll (g : Group) (b : Bool) : Group := g.writeP 14 g.allLanes (if b then g.allLanes else 0)

/-- A dword of a structure in a group's memory. -/
def State.vread64 (s : State) (asid : BitVec 16) (va : BitVec 64) : Unit_ (State × BitVec 64) := do
  let (s, v) ← s.vread asid va 8
  return (s, BitVec.ofNat 64 v)

/-! ### Tapes (R405, R406) -/

/-- A tape control block as read: its base, its size, whether it is closed, its counts. -/
structure TapeBlock where
  base : BitVec 64
  size : Nat
  closed : Bool
  puts : BitVec 64
  gets : BitVec 64

/-- Read a control block; a field out of range or a reserved bit is the illegal-instruction fault (R405, R11). -/
def State.readTape (s : State) (asid : BitVec 16) (va : BitVec 64) : Unit_ (State × TapeBlock) := do
  let (s, base) ← s.vread64 asid va
  let (s, c) ← s.vread64 asid (va + 8)
  let (s, p) ← s.vread64 asid (va + 16)
  let (s, g) ← s.vread64 asid (va + 24)
  let (s, z) ← s.vread asid (va + 32) 32
  if fld c 0 5 < 4 ∨ 20 < fld c 0 5 ∨ fld c 6 58 ≠ 0 ∨ z ≠ 0 then s.unitIllegal
  return (s, ⟨base, 2 ^ fld c 0 5, c.getLsbD 5, p, g⟩)

/-- The check of a tape entry at a place when an instruction reads it: nonzero reserved bits are the illegal-instruction fault
(R11, R423).  DEDUCED (log 52): a reserved OP is left to the interpreter, which R424 lets trap on it. -/
def State.entryOk (s : State) (k : Nat) : Unit_ Unit := if fld (s.read64 k) 8 8 ≠ 0 then s.unitIllegal else .ok ()

/-- The address of entry i. -/
def TapeBlock.entry (b : TapeBlock) (i : BitVec 64) : BitVec 64 := b.base + BitVec.ofNat 64 (32 * (i.toNat % b.size))

/-- TAPEGET (R406): the next entry, or zeros from a tape that is empty and closed; an acquire at K. -/
def execTapeget (r : RRR) (s : State) : Host.Outcome State Fault Refusal :=
  issueS (.tapeget r) noLimit (fun s g => do
    let (a, d) := (r.a.toNat, r.d.toNat)
    gate g Pfx.none false [(.s a 1, r.wa)] [.s d 4, .p 14]
    need (!g.spois a 1) (poisonUse 1 0)
    let va := g.sv a
    tapeAddr va 64 2
    s.unlocked g va 64 true
    need (s.inOrder g va 64) .wait
    let (s, b) ← unitRun (s.readTape g.asid va)
    s.seenBy (
      if b.gets.toNat < b.puts.toNat then do
        let e := b.entry b.gets
        tapeAddr e 32 2
        s.unlocked g e 32 false
        need (s.inOrder g e 32) .wait
        let (s, k) ← unitRun (s.unitPlace g.asid e 0)
        unitRun (s.entryOk k)
        let s ← unitRun (s.cwrite g.core g.asid (va + 24) 8 (b.gets + 1).toNat)
        let g := (List.range 4).foldl (fun g i => g.writeS (d + i) (s.read64 (k + 8 * i)) (s.isPoisoned (k + 8 * i) 8)) g
        return (s.l1Drop g.core, { g.statusAll true with lastTape := some e })
      else do
        need (b.gets ≠ b.puts || b.closed) .wait
        return (s.l1Drop g.core, ((List.range 4).foldl (fun g i => g.writeS (d + i) 0 false) g).statusAll false))) s

/-- TAPEPUT (R406): an entry, or with S(b) zero the end of the tape; a release at K. -/
def execTapeput (r : RRR) (s : State) : Host.Outcome State Fault Refusal :=
  issueS (.tapeput r) noLimit (fun s g => do
    let (a, b) := (r.a.toNat, r.b.toNat)
    gate g Pfx.none false [(.s a 1, r.wa), (.s b 1, r.wb)] [.p 14]
    need (!(g.spois a 1 || g.spois b 1)) (poisonUse 1 0)
    let va := g.sv a
    let src := g.sv b
    tapeAddr va 64 2
    if src ≠ 0 then tapeAddr src 32 0
    s.unlocked g va 64 true
    if src ≠ 0 then s.unlocked g src 32 false
    need (s.quiet g.core g.slot && s.inOrder g va 64 && (src = 0 || s.inOrder g src 32)) .wait
    let (s, t) ← unitRun (s.readTape g.asid va)
    s.seenBy (
      if src = 0 then do
        let (s, c) ← unitRun (s.vread64 g.asid (va + 8))
        let s ← unitRun (s.cwrite g.core g.asid (va + 8) 8 (c ||| 0x20).toNat)
        return (s, g.statusAll true)
      else if t.closed then return (s, g.statusAll false)
      else do
        need (decide ((t.puts - t.gets).toNat ≠ t.size)) .wait
        let e := t.entry t.puts
        tapeAddr e 32 2
        s.unlocked g e 32 true
        need (s.inOrder g e 32) .wait
        let (s, from_) ← unitRun (s.unitPlace g.asid src 0)
        unitRun (s.entryOk from_)
        let (s, to_) ← unitRun (s.unitPlace g.asid e 1)
        let s := (if from_ = to_ then s else s.copyBlock to_ from_ 32).l1Renew g.core to_ 32
        let s ← unitRun (s.cwrite g.core g.asid (va + 16) 8 (t.puts + 1).toNat)
        return (s, g.statusAll true))) s

/-! ### Dependence counters (R407) -/

/-- DEPSIGNAL (R407): one more, after a release at K; a poisoned counter is left (R145). -/
def execDepsignal (r : RRR) (s : State) : Host.Outcome State Fault Refusal :=
  issueS (.depsignal r) noLimit (fun s g => do
    let a := r.a.toNat
    gate g Pfx.none false [(.s a 1, r.wa)] []
    need (!g.spois a 1) (poisonUse 1 0)
    tapeAddr (g.sv a) 4 2
    s.unlocked g (g.sv a) 4 true
    need (s.quiet g.core g.slot && s.inOrder g (g.sv a) 4) .wait
    let (s, k) ← unitRun (s.unitPlace g.asid (g.sv a) 2)
    let v := (s.readLE k 4 + 1) % 2 ^ 32
    return (if s.isPoisoned k 4 then s else (s.writeLE k 4 v).l1Update g.core k 4 v, g)) s

/-- The limit of DEPWAIT's threshold, judged once both operands are full (R339). -/
def depLimit (r : RRR) (_ : State) (g : Group) : Bool :=
  (g.sel r.a.toNat).full && g.over r.b.toNat (2 ^ 32)

/-- DEPWAIT (R206, R407): wait until the counter meets the threshold, then an acquire at K. -/
def execDepwait (r : RRR) (s : State) : Host.Outcome State Fault Refusal :=
  issueS (.depwait r) (depLimit r) (fun s g => do
    let (a, b) := (r.a.toNat, r.b.toNat)
    gate g Pfx.none false [(.s a 1, r.wa), (.s b 1, r.wb)] []
    need (!g.spois a 1) (poisonUse 1 0)
    need (!g.spois b 1) (poisonUse 3 0)
    tapeAddr (g.sv a) 4 0
    s.unlocked g (g.sv a) 4 false
    need (s.inOrder g (g.sv a) 4) .wait
    let (s, k) ← unitRun (s.unitPlace g.asid (g.sv a) 0)
    s.seenBy (do
      need (!s.isPoisoned k 4) (poisonUse 0 0)
      need (countMet (s.readLE k 4) (g.sv b).toNat) .wait)
    return (s.l1Drop g.core, g)) s

/-! ### Weight slots (R408 to R410) -/

/-- An entry of a weight-slot table: its number and its two dwords. -/
abbrev WEntry : Type := Nat × BitVec 64 × BitVec 64

/-- The expert an entry holds. -/
def WEntry.expert (e : WEntry) : Nat := fld e.2.1 0 16
/-- Its holders. -/
def WEntry.uses (e : WEntry) : Nat := fld e.2.1 16 16
/-- Whether its weights are loaded. -/
def WEntry.valid (e : WEntry) : Bool := e.2.1.getLsbD 32
/-- Whether a holder is loading them. -/
def WEntry.loading (e : WEntry) : Bool := e.2.1.getLsbD 33
/-- Whether it is never a victim. -/
def WEntry.pinned (e : WEntry) : Bool := e.2.1.getLsbD 34

/-- Read n entries of a table from entry i; a reserved bit is the illegal-instruction fault (R11). -/
def State.readSlots (s : State) (asid : BitVec 16) (va : BitVec 64) (i : Nat) : Nat → Unit_ (State × List WEntry)
  | 0 => .ok (s, [])
  | n + 1 => do
    let (s, d0) ← s.vread64 asid (va + BitVec.ofNat 64 (64 + 16 * i))
    let (s, d1) ← s.vread64 asid (va + BitVec.ofNat 64 (72 + 16 * i))
    if fld d0 35 29 ≠ 0 then s.unitIllegal
    let (s, es) ← State.readSlots s asid va (i + 1) n
    return (s, (i, d0, d1) :: es)

/-- Read a table (R408). -/
def State.readTableW (s : State) (asid : BitVec 16) (va : BitVec 64) : Unit_ (State × List WEntry) := do
  let (s, h) ← s.vread asid va 64
  if h = 0 ∨ 4096 < h then s.unitIllegal
  s.readSlots asid va 0 h

/-- Write dword 0 of an entry for a group. -/
def State.putSlotW (s : State) (g : Group) (va : BitVec 64) (i : Nat) (d0 : BitVec 64) : Unit_ State :=
  s.cwrite g.core g.asid (va + BitVec.ofNat 64 (64 + 16 * i)) 8 d0.toNat

/-- The bytes of a table of n entries. -/
def tableBytes (n : Nat) : Nat := 64 + 16 * n

/-- Read a table for an atomic of a group: the address, the range locks, the implicit release and the order with the
group's own accesses come first (R127, R141, R410). -/
def State.openTable (s : State) (g : Group) (va : BitVec 64) : Run (State × List WEntry) := do
  tapeAddr va 64 2
  s.unlocked g va 64 true
  need (s.quiet g.core g.slot && s.inOrder g va 64) .wait
  let (s, es) ← unitRun (s.readTableW g.asid va)
  s.seenBy (do
    s.unlocked g va (tableBytes es.length) true
    need (s.inOrder g va (tableBytes es.length)) .wait)
  return (s, es)

/-- The idle entry with the least LAST, the lowest of equals. -/
def pickVictim (es : List WEntry) : Option WEntry :=
  (es.filter fun e => e.uses = 0 && !e.pinned && !e.loading).foldl (fun b e =>
    match b with
    | some c => if e.2.2.toNat < c.2.2.toNat then some e else some c
    | none => some e) none

/-- The limit of WSLOT's expert, 0 to 511, judged once both operands are full (R339). -/
def wslotLimit (r : RRR) (_ : State) (g : Group) : Bool := (g.sel r.a.toNat).full && g.over r.b.toNat 512

/-- The starved end of WSLOT (R409): the KIND 2 record of CAUSE 0x60, and the result 2^17; an acquire (R410). -/
def State.starved (s : State) (g : Group) (d : Nat) : State × Group :=
  ((s.emit (dieOf g.core) (record2 (g.lastTape.getD 0) (fld g.seqSlot 0 13) 0 3 0 s.now 0x60 0 g.asid g.core)).l1Drop g.core,
    g.writeS d (BitVec.ofNat 64 (2 ^ 17)) false)

/-- WSLOT (R409): a hit, a slot to load, or starvation. -/
def execWslot (r : RRR) (s : State) : Host.Outcome State Fault Refusal :=
  issueS (.wslot r) (wslotLimit r) (fun s g => do
    let (a, b, d) := (r.a.toNat, r.b.toNat, r.d.toNat)
    gate g Pfx.none false [(.s a 1, r.wa), (.s b 1, r.wb)] [.s d 1]
    need (!g.spois a 1) (poisonUse 1 0)
    need (!g.spois b 1) (poisonUse 3 0)
    let va := g.sv a
    let x := (g.sv b).toNat
    let (s, es) ← s.openTable g va
    let take (s : State) (e : WEntry) (d0 : BitVec 64) (v : Nat) : Run (State × Group) := do
      let s ← unitRun (s.putSlotW g va e.1 d0)
      let s ← unitRun (s.cwrite g.core g.asid (va + BitVec.ofNat 64 (72 + 16 * e.1)) 8 s.now.toNat)
      return (s.l1Drop g.core, g.writeS d (BitVec.ofNat 64 v) false)
    s.seenBy (
      match es.find? fun e => e.expert = x && (e.valid || e.loading) with
      | some e => do
        need e.valid .wait
        if e.uses = 65535 then return s.starved g d
        else take s e (setFld e.2.1 16 16 (e.uses + 1)) e.1
      | none =>
        match pickVictim es with
        | some e => take s e (BitVec.ofNat 64 (x + 2 ^ 16 + 2 ^ 33)) (e.1 + 2 ^ 16)
        | none => return s.starved g d)) s

/-- The limit of WREL's operand that needs no table: S(b)[63:13] zero, judged once both operands are full (R339). -/
def wrelLimit (r : RRR) (_ : State) (g : Group) : Bool := (g.sel r.a.toNat).full && g.over r.b.toNat (2 ^ 13)

/-- WREL (R410): weights loaded, or one holder less; p14 tells whether the action was performed. -/
def execWrel (r : RRR) (s : State) : Host.Outcome State Fault Refusal :=
  issueS (.wrel r) (wrelLimit r) (fun s g => do
    let (a, b) := (r.a.toNat, r.b.toNat)
    gate g Pfx.none false [(.s a 1, r.wa), (.s b 1, r.wb)] [.p 14]
    need (!g.spois a 1) (poisonUse 1 0)
    need (!g.spois b 1) (poisonUse 3 0)
    let va := g.sv a
    let (s, es) ← s.openTable g va
    s.seenBy (
      match es[fld (g.sv b) 0 12]? with
      | none => .error illegalMain
      | some e =>
        if (g.sv b).getLsbD 12 then
          if e.loading then do
            let s ← unitRun (s.putSlotW g va e.1 (setFld e.2.1 32 2 1))
            return (s.l1Drop g.core, g.statusAll true)
          else return (s.l1Drop g.core, g.statusAll false)
        else if e.uses ≠ 0 then do
          let s ← unitRun (s.putSlotW g va e.1 (setFld e.2.1 16 16 (e.uses - 1)))
          return (s.l1Drop g.core, g.statusAll true)
        else return (s.l1Drop g.core, g.statusAll false))) s

end Sys2Proof.Machine
end

