-- ==== Sys2Proof/Machine/Tile.lean ====
section
/-!
DEFINITION. Tiles: majors 0x2D to 0x2F (R199, R389 to R391).
-/
namespace Sys2Proof.Machine

/-- An element of a tile of a team (R186). -/
def Team.tile (t : Team) (n row col : Nat) : AEl := Tab.get AEl.zero t.tiles (tileKey n row col)

/-- Put an element of a tile. -/
def Team.putTile (t : Team) (n row col : Nat) (e : AEl) : Team :=
  { t with tiles := Tab.set AEl.zero t.tiles (tileKey n row col) e }

/-- Whether a row of a tile is empty. -/
def Team.rowIsEmpty (t : Team) (n row : Nat) : Bool := Tab.get false t.rowEmpty (n * 32 + row)

/-- Whether the rows of a list are full. -/
def Team.rowsFull (t : Team) (n : Nat) (rows : List Nat) : Bool := rows.all fun r => !t.rowIsEmpty n r

/-- The team of a group as a part of an instruction; a group always has one. -/
def State.teamOf (s : State) (g : Group) : Run Team :=
  match s.team g.team with
  | some t => .ok t
  | none => hold

/-- All the rows of a tile. -/
def allRows : List Nat := List.range 32

/-- The elements of a tile in row-major order. -/
def tilePlaces : List (Nat × Nat) := (List.range 1024).map fun i => (i / 32, i % 32)

/-- A source tile whose wait bit is 1 traps while a row it reads is empty (R193, class 3 of R229). -/
def tileTrap (t : Team) (n : Nat) (wa : Bool) : Run Unit :=
  need (!wa || t.rowsFull n allRows) (.fate 0x41 (3 + n * 8) 0)

/-! ### Slices (R391) -/

/-- The moves of a slice instruction: for each register and active lane, the register's number after the first, the lane
and the tile element. -/
def sliceMoves (g : Group) (r : TS) (act : BitVec 64) : List (Nat × Nat × Nat × Nat) :=
  let nreg := if g.width = 16 then 2 else 1
  let k0 := (g.sv r.s.toNat).toNat + r.imm.toNat
  (List.range nreg).flatMap fun i => (lanesOf g.width act).map fun l =>
    let q := i * g.width + l
    let k := (k0 + q / 32) % 32
    let j := q % 32
    if r.rc then (i, l, j, k) else (i, l, k, j)

/-- TSWR (R389, R391): a slice of vector registers into a tile. -/
def execTswr (x : Pfx) (r : TS) (s : State) : Host.Outcome State Fault Refusal :=
  issueS (.tswr x r) noLimit (fun s g => do
    let act := g.active x
    let (d, n) := (r.d.toNat, r.t.toNat)
    gate g x true [(.v d (if g.width = 16 then 2 else 1) act, false), (.s r.s.toNat 1, false)] []
    need (!g.spois r.s.toNat 1) (poisonUse 3 act)
    let t ← s.teamOf g
    let ms := sliceMoves g r act
    need (t.rowsFull n (ms.map fun m => m.2.2.1)) .waitEmpty
    return (s.modTeam g.team fun t => ms.foldl (fun t m =>
      let e := g.vel (d + m.1) m.2.1
      t.putTile n m.2.2.1 m.2.2.2 ⟨e.val, e.pois⟩) t, g)) s

/-- TSRD (R389, R391): a slice of a tile into vector registers. -/
def execTsrd (x : Pfx) (r : TS) (s : State) : Host.Outcome State Fault Refusal :=
  issueS (.tsrd x r) noLimit (fun s g => do
    let act := g.active x
    let (d, n) := (r.d.toNat, r.t.toNat)
    gate g x true [(.s r.s.toNat 1, false)] [.v d (if g.width = 16 then 2 else 1) act]
    need (!g.spois r.s.toNat 1) (poisonUse 3 act)
    let t ← s.teamOf g
    let ms := sliceMoves g r act
    need (t.rowsFull n (ms.map fun m => m.2.2.1)) .waitEmpty
    return (s, ms.foldl (fun g m =>
      let e := t.tile n m.2.2.1 m.2.2.2
      g.writeV (d + m.1) m.2.1 e.val e.pois) g)) s

/-! ### Whole tiles (R389) -/

/-- The body of TMOV and TTRANS: T(d)(i, j) := T(a)(f i j), read whole before it is written. -/
def tileCopy (r : RRR) (f : Nat → Nat → Nat × Nat) (s : State) (g : Group) : Run (State × Group) := do
  let (d, a) := (r.d.toNat, r.a.toNat)
  let t ← s.teamOf g
  tileTrap t a r.wa
  need (t.rowsFull a allRows && t.rowsFull d allRows) .waitEmpty
  return (s.modTeam g.team fun u => tilePlaces.foldl (fun u p =>
    let q := f p.1 p.2
    u.putTile d p.1 p.2 (t.tile a q.1 q.2)) u, g)

/-- TMOV (R389). -/
def execTmov (x : Pfx) (r : RRR) (s : State) : Host.Outcome State Fault Refusal :=
  issueS (.tmov x r) noLimit (tileCopy r fun i j => (i, j)) s

/-- TTRANS (R389). -/
def execTtrans (x : Pfx) (r : RRR) (s : State) : Host.Outcome State Fault Refusal :=
  issueS (.ttrans x r) noLimit (tileCopy r fun i j => (j, i)) s

/-- TZERO (R389): it waits for the rows, which it writes (R194). -/
def execTzero (x : Pfx) (r : RRR) (s : State) : Host.Outcome State Fault Refusal :=
  issueS (.tzero x r) noLimit (fun s g => do
    let d := r.d.toNat
    let t ← s.teamOf g
    need (t.rowsFull d allRows) .waitEmpty
    return (s.modTeam g.team fun u => tilePlaces.foldl (fun u p => u.putTile d p.1 p.2 AEl.zero) u, g)) s

/-! ### Rows and memory (R390) -/

/-- The rows a tile access takes: all, or those an OP 0 reissues (R232). -/
def Group.takingRows (g : Group) : List Nat :=
  match g.reissue with
  | some m => lanesOf 32 m
  | none => allRows

/-- The limits of TLD and TST: S(a) and S(b) are multiples of 4 (R373, R390; log 54). -/
def tileLimit (r : RRR) (_ : State) (g : Group) : Bool :=
  let bad (k : Nat) : Bool := let e := g.sel k; !e.pois && decide (e.val.toNat % 4 ≠ 0)
  (g.sel r.a.toNat).full && (g.sel r.b.toNat).full && (bad r.a.toNat || bad r.b.toNat)

/-- The address of an element of row i: S(a) + i × S(b) + 4j modulo 2^64. -/
def tileAddr (g : Group) (r : RRR) (i j : Nat) : BitVec 64 :=
  g.sv r.a.toNat + BitVec.ofNat 64 i * g.sv r.b.toNat + BitVec.ofNat 64 (4 * j)

/-- The body of TLD and TST: an access whose lane 32i + j is element j of row i, rows standing for lanes. -/
def tileAccess (i : Instr) (x : Pfx) (r : RRR) (load : Bool) (s : State) (g : Group) : Run (State × Group) := do
  let (a, b, d) := (r.a.toNat, r.b.toNat, r.d.toNat)
  gate g x false [(.s a 1, r.wa), (.s b 1, r.wb)] []
  let t ← s.teamOf g
  let rows := g.takingRows
  need (t.rowsFull d rows) .waitEmpty
  need (!g.spois a 1) (poisonUse 1 0)
  need (!g.spois b 1) (poisonUse 3 0)
  let ps := rows.flatMap fun i => (List.range 32).map fun j => (i, j)
  need (load || ps.all fun p => !(t.tile d p.1 p.2).pois)
    (poisonUse 2 (maskOf (rows.filter fun i => (List.range 32).any fun j => (t.tile d i j).pois)))
  let o := g.newOp x (i.code.map Code.word |>.getD 0) (if load then .load else .store) 6 4
  s.access g { o with
    dstKind := if load then .t else .none, dst := d, mask := maskOf rows, per := 32
    lanes := ps.map fun p =>
      laneReq (32 * p.1 + p.2) (tileAddr g r p.1 p.2) (if load then 0 else (t.tile d p.1 p.2).val.toNat) 0 } false

/-- TLD (R390). -/
def execTld (x : Pfx) (r : RRR) (s : State) : Host.Outcome State Fault Refusal :=
  issueS (.tld x r) (tileLimit r) (tileAccess (.tld x r) x r true) s

/-- TST (R390). -/
def execTst (x : Pfx) (r : RRR) (s : State) : Host.Outcome State Fault Refusal :=
  issueS (.tst x r) (tileLimit r) (tileAccess (.tst x r) x r false) s

end Sys2Proof.Machine
end

