-- ==== Sys2Proof/Machine/Dispatch.lean ====
section
/-!
DEFINITION. The meaning of every constructor of Instr, one arm each.
-/
namespace Sys2Proof.Machine

def exec (i : Instr) (s : State) : Host.Outcome State Fault Refusal :=
  match i with
  | .nop => Sys2Proof.Machine.execNop s
  | .yield => Sys2Proof.Machine.execYield s
  | .trapfence => Sys2Proof.Machine.execTrapfence s
  | .bkpt r => Sys2Proof.Machine.execBkpt r s
  | .trap r => Sys2Proof.Machine.execTrap r s
  | .exit => Sys2Proof.Machine.execExit s
  | .pmark r => Sys2Proof.Machine.execPmark r s
  | .tstamp r => Sys2Proof.Machine.execTstamp r s
  | .bra e r => Sys2Proof.Machine.execBra e r s
  | .call e r => Sys2Proof.Machine.execCall e r s
  | .bcc e r => Sys2Proof.Machine.execBcc e r s
  | .jr r => Sys2Proof.Machine.execJr r s
  | .ret => Sys2Proof.Machine.execRet s
  | .wbase r => Sys2Proof.Machine.execWbase r s
  | .reggrow => Sys2Proof.Machine.execReggrow s
  | .regshrink => Sys2Proof.Machine.execRegshrink s
  | .rpf r => Sys2Proof.Machine.execRpf r s
  | .mfs r => Sys2Proof.Machine.execMfs r s
  | .mts r => Sys2Proof.Machine.execMts r s
  | .loop e r => Sys2Proof.Machine.execLoop e r s
  | .sli e r => Sys2Proof.Machine.execSli e r s
  | .slih r => Sys2Proof.Machine.execSlih r s
  | .sadd x r => Sys2Proof.Machine.execSadd x r s
  | .ssub x r => Sys2Proof.Machine.execSsub x r s
  | .smul x r => Sys2Proof.Machine.execSmul x r s
  | .smulh x r => Sys2Proof.Machine.execSmulh x r s
  | .smulhn x r => Sys2Proof.Machine.execSmulhn x r s
  | .sdiv x r => Sys2Proof.Machine.execSdiv x r s
  | .sdivn x r => Sys2Proof.Machine.execSdivn x r s
  | .srem x r => Sys2Proof.Machine.execSrem x r s
  | .sand x r => Sys2Proof.Machine.execSand x r s
  | .sor x r => Sys2Proof.Machine.execSor x r s
  | .sxor x r => Sys2Proof.Machine.execSxor x r s
  | .sandn x r => Sys2Proof.Machine.execSandn x r s
  | .sshl x r => Sys2Proof.Machine.execSshl x r s
  | .sshr x r => Sys2Proof.Machine.execSshr x r s
  | .ssra x r => Sys2Proof.Machine.execSsra x r s
  | .srot x r => Sys2Proof.Machine.execSrot x r s
  | .smin x r => Sys2Proof.Machine.execSmin x r s
  | .smax x r => Sys2Proof.Machine.execSmax x r s
  | .sminn x r => Sys2Proof.Machine.execSminn x r s
  | .smaxn x r => Sys2Proof.Machine.execSmaxn x r s
  | .sclz x r => Sys2Proof.Machine.execSclz x r s
  | .spopc x r => Sys2Proof.Machine.execSpopc x r s
  | .sbrev x r => Sys2Proof.Machine.execSbrev x r s
  | .smov x r => Sys2Proof.Machine.execSmov x r s
  | .seq x r => Sys2Proof.Machine.execSeq x r s
  | .sne x r => Sys2Proof.Machine.execSne x r s
  | .slt x r => Sys2Proof.Machine.execSlt x r s
  | .sle x r => Sys2Proof.Machine.execSle x r s
  | .sltn x r => Sys2Proof.Machine.execSltn x r s
  | .slen x r => Sys2Proof.Machine.execSlen x r s
  | .sbfx x r => Sys2Proof.Machine.execSbfx x r s
  | .sbfi x r => Sys2Proof.Machine.execSbfi x r s
  | .saddi x r => Sys2Proof.Machine.execSaddi x r s
  | .sandi e r => Sys2Proof.Machine.execSandi e r s
  | .sori e r => Sys2Proof.Machine.execSori e r s
  | .sxori e r => Sys2Proof.Machine.execSxori e r s
  | .sshi r => Sys2Proof.Machine.execSshi r s
  | .sld x r => Sys2Proof.Machine.execSld x r s
  | .sst x r => Sys2Proof.Machine.execSst x r s
  | .satom x fn r => Sys2Proof.Machine.execSatom x fn r s
  | .vadd x r => Sys2Proof.Machine.execVadd x r s
  | .vsub x r => Sys2Proof.Machine.execVsub x r s
  | .vmul x r => Sys2Proof.Machine.execVmul x r s
  | .vmulh x r => Sys2Proof.Machine.execVmulh x r s
  | .vmad x r => Sys2Proof.Machine.execVmad x r s
  | .vmin x r => Sys2Proof.Machine.execVmin x r s
  | .vmax x r => Sys2Proof.Machine.execVmax x r s
  | .vabsd x r => Sys2Proof.Machine.execVabsd x r s
  | .vand x r => Sys2Proof.Machine.execVand x r s
  | .vor x r => Sys2Proof.Machine.execVor x r s
  | .vxor x r => Sys2Proof.Machine.execVxor x r s
  | .vandn x r => Sys2Proof.Machine.execVandn x r s
  | .vshl x r => Sys2Proof.Machine.execVshl x r s
  | .vshr x r => Sys2Proof.Machine.execVshr x r s
  | .vsra x r => Sys2Proof.Machine.execVsra x r s
  | .vrot x r => Sys2Proof.Machine.execVrot x r s
  | .vclz x r => Sys2Proof.Machine.execVclz x r s
  | .vpopc x r => Sys2Proof.Machine.execVpopc x r s
  | .vbrev x r => Sys2Proof.Machine.execVbrev x r s
  | .vneg x r => Sys2Proof.Machine.execVneg x r s
  | .vabs x r => Sys2Proof.Machine.execVabs x r s
  | .vnot x r => Sys2Proof.Machine.execVnot x r s
  | .vbfx x r => Sys2Proof.Machine.execVbfx x r s
  | .vbfi x r => Sys2Proof.Machine.execVbfi x r s
  | .vcmp x fn r => Sys2Proof.Machine.execVcmp x fn r s
  | .vmov x r => Sys2Proof.Machine.execVmov x r s
  | .vsel x r => Sys2Proof.Machine.execVsel x r s
  | .vbcast x r => Sys2Proof.Machine.execVbcast x r s
  | .vextr x r => Sys2Proof.Machine.execVextr x r s
  | .vins x r => Sys2Proof.Machine.execVins x r s
  | .viota x r => Sys2Proof.Machine.execViota x r s
  | .vlane x r => Sys2Proof.Machine.execVlane x r s
  | .vfadd x r => Sys2Proof.Machine.execVfadd x r s
  | .vfsub x r => Sys2Proof.Machine.execVfsub x r s
  | .vfmul x r => Sys2Proof.Machine.execVfmul x r s
  | .vfma x r => Sys2Proof.Machine.execVfma x r s
  | .vfms x r => Sys2Proof.Machine.execVfms x r s
  | .vfmin x r => Sys2Proof.Machine.execVfmin x r s
  | .vfmax x r => Sys2Proof.Machine.execVfmax x r s
  | .vfabsd x r => Sys2Proof.Machine.execVfabsd x r s
  | .vfneg x r => Sys2Proof.Machine.execVfneg x r s
  | .vfabs x r => Sys2Proof.Machine.execVfabs x r s
  | .vfclass x r => Sys2Proof.Machine.execVfclass x r s
  | .vfcpys x r => Sys2Proof.Machine.execVfcpys x r s
  | .vffloor x r => Sys2Proof.Machine.execVffloor x r s
  | .vfceil x r => Sys2Proof.Machine.execVfceil x r s
  | .vfrint x r => Sys2Proof.Machine.execVfrint x r s
  | .vffrac x r => Sys2Proof.Machine.execVffrac x r s
  | .vfcmp x fn r => Sys2Proof.Machine.execVfcmp x fn r s
  | .vrcp x r => Sys2Proof.Machine.execVrcp x r s
  | .vrsq x r => Sys2Proof.Machine.execVrsq x r s
  | .vsqrt x r => Sys2Proof.Machine.execVsqrt x r s
  | .vexp2 x r => Sys2Proof.Machine.execVexp2 x r s
  | .vlog2 x r => Sys2Proof.Machine.execVlog2 x r s
  | .vsin x r => Sys2Proof.Machine.execVsin x r s
  | .vcos x r => Sys2Proof.Machine.execVcos x r s
  | .vtanh x r => Sys2Proof.Machine.execVtanh x r s
  | .vfdiv x r => Sys2Proof.Machine.execVfdiv x r s
  | .vsigm x r => Sys2Proof.Machine.execVsigm x r s
  | .verf x r => Sys2Proof.Machine.execVerf x r s
  | .vlog1p x r => Sys2Proof.Machine.execVlog1p x r s
  | .vcvt x r => Sys2Proof.Machine.execVcvt x r s
  | .vpack2 x r => Sys2Proof.Machine.execVpack2 x r s
  | .vpack4 x r => Sys2Proof.Machine.execVpack4 x r s
  | .vunpk2lo x r => Sys2Proof.Machine.execVunpk2lo x r s
  | .vunpk2hi x r => Sys2Proof.Machine.execVunpk2hi x r s
  | .vunpk4 x r => Sys2Proof.Machine.execVunpk4 x r s
  | .vqscl x r => Sys2Proof.Machine.execVqscl x r s
  | .vshfl x r => Sys2Proof.Machine.execVshfl x r s
  | .vshflup x r => Sys2Proof.Machine.execVshflup x r s
  | .vshfldn x r => Sys2Proof.Machine.execVshfldn x r s
  | .vshflx x r => Sys2Proof.Machine.execVshflx x r s
  | .vballot x r => Sys2Proof.Machine.execVballot x r s
  | .vany x r => Sys2Proof.Machine.execVany x r s
  | .vall x r => Sys2Proof.Machine.execVall x r s
  | .vmatch x r => Sys2Proof.Machine.execVmatch x r s
  | .vredadd x r => Sys2Proof.Machine.execVredadd x r s
  | .vredmin x r => Sys2Proof.Machine.execVredmin x r s
  | .vredmax x r => Sys2Proof.Machine.execVredmax x r s
  | .vredand x r => Sys2Proof.Machine.execVredand x r s
  | .vredor x r => Sys2Proof.Machine.execVredor x r s
  | .vscanadd x r => Sys2Proof.Machine.execVscanadd x r s
  | .vscanmax x r => Sys2Proof.Machine.execVscanmax x r s
  | .part x r => Sys2Proof.Machine.execPart x r s
  | .pand x r => Sys2Proof.Machine.execPand x r s
  | .por x r => Sys2Proof.Machine.execPor x r s
  | .pxor x r => Sys2Proof.Machine.execPxor x r s
  | .pandn x r => Sys2Proof.Machine.execPandn x r s
  | .pnot x r => Sys2Proof.Machine.execPnot x r s
  | .pmov x r => Sys2Proof.Machine.execPmov x r s
  | .pcnt x r => Sys2Proof.Machine.execPcnt x r s
  | .pfirst x r => Sys2Proof.Machine.execPfirst x r s
  | .vld x fn r => Sys2Proof.Machine.execVld x fn r s
  | .vst x fn r => Sys2Proof.Machine.execVst x fn r s
  | .vldnf x fn r => Sys2Proof.Machine.execVldnf x fn r s
  | .atom x fn r => Sys2Proof.Machine.execAtom x fn r s
  | .smaxpk x r => Sys2Proof.Machine.execSmaxpk x r s
  | .sminpk x r => Sys2Proof.Machine.execSminpk x r s
  | .hinc x r => Sys2Proof.Machine.execHinc x r s
  | .fence x => Sys2Proof.Machine.execFence x s
  | .ntdrain x => Sys2Proof.Machine.execNtdrain x s
  | .prefetch x r => Sys2Proof.Machine.execPrefetch x r s
  | .pgreq x r => Sys2Proof.Machine.execPgreq x r s
  | .fwait x => Sys2Proof.Machine.execFwait x s
  | .winreq x r => Sys2Proof.Machine.execWinreq x r s
  | .winrel x r => Sys2Proof.Machine.execWinrel x r s
  | .rlq x r => Sys2Proof.Machine.execRlq x r s
  | .cpy x r => Sys2Proof.Machine.execCpy x r s
  | .cpy2d x r => Sys2Proof.Machine.execCpy2d x r s
  | .gath x r => Sys2Proof.Machine.execGath x r s
  | .scat x r => Sys2Proof.Machine.execScat x r s
  | .kvsend x r => Sys2Proof.Machine.execKvsend x r s
  | .cpyfill x r => Sys2Proof.Machine.execCpyfill x r s
  | .cpycan x r => Sys2Proof.Machine.execCpycan x r s
  | .bar r => Sys2Proof.Machine.execBar r s
  | .bararr r => Sys2Proof.Machine.execBararr r s
  | .barwait r => Sys2Proof.Machine.execBarwait r s
  | .stageacq r => Sys2Proof.Machine.execStageacq r s
  | .stagerel r => Sys2Proof.Machine.execStagerel r s
  | .evsig r => Sys2Proof.Machine.execEvsig r s
  | .evwait r => Sys2Proof.Machine.execEvwait r s
  | .launch r => Sys2Proof.Machine.execLaunch r s
  | .mtile x r => Sys2Proof.Machine.execMtile x r s
  | .mzero x r => Sys2Proof.Machine.execMzero x r s
  | .mdrain x r => Sys2Proof.Machine.execMdrain x r s
  | .mspec x r => Sys2Proof.Machine.execMspec x r s
  | .mcommit x => Sys2Proof.Machine.execMcommit x s
  | .mdiscard x => Sys2Proof.Machine.execMdiscard x s
  | .accsave x r => Sys2Proof.Machine.execAccsave x r s
  | .accload x r => Sys2Proof.Machine.execAccload x r s
  | .mloop x r => Sys2Proof.Machine.execMloop x r s
  | .mloopq x r => Sys2Proof.Machine.execMloopq x r s
  | .mwait x => Sys2Proof.Machine.execMwait x s
  | .mstat x r => Sys2Proof.Machine.execMstat x r s
  | .tswr x r => Sys2Proof.Machine.execTswr x r s
  | .tsrd x r => Sys2Proof.Machine.execTsrd x r s
  | .tld x r => Sys2Proof.Machine.execTld x r s
  | .tst x r => Sys2Proof.Machine.execTst x r s
  | .tmov x r => Sys2Proof.Machine.execTmov x r s
  | .tzero x r => Sys2Proof.Machine.execTzero x r s
  | .ttrans x r => Sys2Proof.Machine.execTtrans x r s
  | .rngdraw x r => Sys2Proof.Machine.execRngdraw x r s
  | .rngjump x r => Sys2Proof.Machine.execRngjump x r s
  | .rngget x r => Sys2Proof.Machine.execRngget x r s
  | .rngset x r => Sys2Proof.Machine.execRngset x r s
  | .rngflt x r => Sys2Proof.Machine.execRngflt x r s
  | .btld x r => Sys2Proof.Machine.execBtld x r s
  | .btst x r => Sys2Proof.Machine.execBtst x r s
  | .seqpark x r => Sys2Proof.Machine.execSeqpark x r s
  | .seqwake x r => Sys2Proof.Machine.execSeqwake x r s
  | .seqdone x r => Sys2Proof.Machine.execSeqdone x r s
  | .seqemit x r => Sys2Proof.Machine.execSeqemit x r s
  | .maskld x r => Sys2Proof.Machine.execMaskld x r s
  | .seqstat x r => Sys2Proof.Machine.execSeqstat x r s
  | .kvalloc x r => Sys2Proof.Machine.execKvalloc x r s
  | .kvtrunc x r => Sys2Proof.Machine.execKvtrunc x r s
  | .kvshare x r => Sys2Proof.Machine.execKvshare x r s
  | .kvref x r => Sys2Proof.Machine.execKvref x r s
  | .kvcow x r => Sys2Proof.Machine.execKvcow x r s
  | .kvpin x r => Sys2Proof.Machine.execKvpin x r s
  | .kvunpin x r => Sys2Proof.Machine.execKvunpin x r s
  | .kvwhere x r => Sys2Proof.Machine.execKvwhere x r s
  | .brank x r => Sys2Proof.Machine.execBrank x r s
  | .bsel x r => Sys2Proof.Machine.execBsel x r s
  | .bset x r => Sys2Proof.Machine.execBset x r s
  | .bclr x r => Sys2Proof.Machine.execBclr x r s
  | .bcnt x r => Sys2Proof.Machine.execBcnt x r s
  | .tapeget r => Sys2Proof.Machine.execTapeget r s
  | .tapeput r => Sys2Proof.Machine.execTapeput r s
  | .depsignal r => Sys2Proof.Machine.execDepsignal r s
  | .depwait r => Sys2Proof.Machine.execDepwait r s
  | .wslot r => Sys2Proof.Machine.execWslot r s
  | .wrel r => Sys2Proof.Machine.execWrel r s
  | .ramphint r => Sys2Proof.Machine.execRamphint r s
  | .ballast r => Sys2Proof.Machine.execBallast r s
  | .traceon r => Sys2Proof.Machine.execTraceon r s
  | .traceoff => Sys2Proof.Machine.execTraceoff s
  | .cntrd r => Sys2Proof.Machine.execCntrd r s
  | .tatrd r => Sys2Proof.Machine.execTatrd r s
  | .instructionFetch core slot => Sys2Proof.Machine.execInstructionFetch core slot s
  | .mtuConfirmation op => Sys2Proof.Machine.execMtuConfirmation op s
  | .loadDataArrival op lanes fromL1 => Sys2Proof.Machine.execLoadDataArrival op lanes fromL1 s
  | .sfuResult op => Sys2Proof.Machine.execSfuResult op s
  | .boundaryStop core slot => Sys2Proof.Machine.execBoundaryStop core slot s
  | .faultRecordDrain die => Sys2Proof.Machine.execFaultRecordDrain die s
  | .mtuInvctlDrop die w => Sys2Proof.Machine.execMtuInvctlDrop die w s
  | .mtuInvctlClose die w => Sys2Proof.Machine.execMtuInvctlClose die w s
  | .mtuInvctlOpen die w => Sys2Proof.Machine.execMtuInvctlOpen die w s
  | .mtuInvalidateComplete die => Sys2Proof.Machine.execMtuInvalidateComplete die s
  | .replayGroup die core slot => Sys2Proof.Machine.execReplayGroup die core slot s
  | .killGroup die core slot => Sys2Proof.Machine.execKillGroup die core slot s
  | .noticeServiced die peer ticket => Sys2Proof.Machine.execNoticeServiced die peer ticket s
  | .noticeRefused die peer ticket => Sys2Proof.Machine.execNoticeRefused die peer ticket s
  | .noticeTimer peer => Sys2Proof.Machine.execNoticeTimer peer s
  | .ownerTicketTimeout ticket => Sys2Proof.Machine.execOwnerTicketTimeout ticket s
  | .fqSizeWrite die src w => Sys2Proof.Machine.execFqSizeWrite die src w s
  | .registerWrite w => Sys2Proof.Machine.execRegisterWrite w s
  | .ticket f => Sys2Proof.Machine.execTicket f s
  | .notice f => Sys2Proof.Machine.execNotice f s
  | .ticketExpiry entry => Sys2Proof.Machine.execTicketExpiry entry s
  | .ownerRequest f => Sys2Proof.Machine.execOwnerRequest f s
  | .switchRequest plane f => Sys2Proof.Machine.execSwitchRequest plane f s
  | .rdrsp f => Sys2Proof.Machine.execRdrsp f s
  | .wrack f => Sys2Proof.Machine.execWrack f s
  | .atrsp f => Sys2Proof.Machine.execAtrsp f s
  | .winreqReceive f => Sys2Proof.Machine.execWinreqReceive f s
  | .winrsp f => Sys2Proof.Machine.execWinrsp f s
  | .wininv f => Sys2Proof.Machine.execWininv f s
  | .winack f => Sys2Proof.Machine.execWinack f s
  | .windowDrainComplete p w => Sys2Proof.Machine.execWindowDrainComplete p w s
  | .expctlOpen w src => Sys2Proof.Machine.execExpctlOpen w src s
  | .expctlClose w src => Sys2Proof.Machine.execExpctlClose w src s
  | .expctlForce w src => Sys2Proof.Machine.execExpctlForce w src s
  | .exportStuckTimeout w => Sys2Proof.Machine.execExportStuckTimeout w s
  | .recall f => Sys2Proof.Machine.execRecall f s
  | .recack f => Sys2Proof.Machine.execRecack f s
  | .probe f => Sys2Proof.Machine.execProbe f s
  | .probeack f => Sys2Proof.Machine.execProbeack f s
  | .tsyncTimer => Sys2Proof.Machine.execTsyncTimer s
  | .tsync f => Sys2Proof.Machine.execTsync f s
  | .tsyncrsp f => Sys2Proof.Machine.execTsyncrsp f s
  | .portFailure port => Sys2Proof.Machine.execPortFailure port s
  | .copyChunk op => Sys2Proof.Machine.execCopyChunk op s
  | .matrixKStep op => Sys2Proof.Machine.execMatrixKStep op s
  | .matrixOpComplete op => Sys2Proof.Machine.execMatrixOpComplete op s
  | .specResolution core slot => Sys2Proof.Machine.execSpecResolution core slot s
  | .pageStoreOperation op => Sys2Proof.Machine.execPageStoreOperation op s
  | .pageMove pdi => Sys2Proof.Machine.execPageMove pdi s
  | .handoffReceive m => Sys2Proof.Machine.execHandoffReceive m s
  | .handoffCompletion op ok => Sys2Proof.Machine.execHandoffCompletion op ok s
  | .launchQueueRead q => Sys2Proof.Machine.execLaunchQueueRead q s
  | .teamPlacement grid core => Sys2Proof.Machine.execTeamPlacement grid core s
  | .splitDrainTrigger grid => Sys2Proof.Machine.execSplitDrainTrigger grid s
  | .registerCompaction core => Sys2Proof.Machine.execRegisterCompaction core s
  | .growDeadlock core => Sys2Proof.Machine.execGrowDeadlock core s
  | .rampSlot => Sys2Proof.Machine.execRampSlot s
  | .damperSample p => Sys2Proof.Machine.execDamperSample p s
  | .watchdog core slot => Sys2Proof.Machine.execWatchdog core slot s
  | .schedCtlWrite src w => Sys2Proof.Machine.execSchedCtlWrite src w s
  | .carillonEnable src w => Sys2Proof.Machine.execCarillonEnable src w s
  | .frameBoundary => Sys2Proof.Machine.execFrameBoundary s
  | .frameEnd => Sys2Proof.Machine.execFrameEnd s
  | .carillonStructureRetry => Sys2Proof.Machine.execCarillonStructureRetry s
  | .scmdFree slot src => Sys2Proof.Machine.execScmdFree slot src s
  | .scmdWake slot src => Sys2Proof.Machine.execScmdWake slot src s
  | .scmdMarkError slot reason src => Sys2Proof.Machine.execScmdMarkError slot reason src s
  | .rqtailWrite src tail => Sys2Proof.Machine.execRqtailWrite src tail s
  | .cqheadWrite src head => Sys2Proof.Machine.execCqheadWrite src head s
  | .toolReturn sandbox off w => Sys2Proof.Machine.execToolReturn sandbox off w s
  | .guestAccess sandbox die pa req => Sys2Proof.Machine.execGuestAccess sandbox die pa req s
  | .preSave asid => Sys2Proof.Machine.execPreSave asid s
  | .preRestore asid => Sys2Proof.Machine.execPreRestore asid s
  | .preSaveFlush asid => Sys2Proof.Machine.execPreSaveFlush asid s
  | .preEndContext asid => Sys2Proof.Machine.execPreEndContext asid s
  | .saveQuiesced => Sys2Proof.Machine.execSaveQuiesced s
  | .saveAreaWritten => Sys2Proof.Machine.execSaveAreaWritten s
  | .uncorrectableError e => Sys2Proof.Machine.execUncorrectableError e s
  | .carillonTakeover => Sys2Proof.Machine.execCarillonTakeover s
  | .damperTakeover => Sys2Proof.Machine.execDamperTakeover s
  | .thermalHot die tmax => Sys2Proof.Machine.execThermalHot die tmax s
  | .tattooTick => Sys2Proof.Machine.execTattooTick s
  | .pcSample core slot => Sys2Proof.Machine.execPcSample core slot s
  | .traceDrain cluster => Sys2Proof.Machine.execTraceDrain cluster s
  | .clusterPowerGate cluster => Sys2Proof.Machine.execClusterPowerGate cluster s
  | .attest => Sys2Proof.Machine.execAttest s
  | .installTenantKey asid => Sys2Proof.Machine.execInstallTenantKey asid s
  | .eraseTenantKey asid => Sys2Proof.Machine.execEraseTenantKey asid s
  | .readIdentityKey => Sys2Proof.Machine.execReadIdentityKey s
  | .readEncapsulationKey => Sys2Proof.Machine.execReadEncapsulationKey s
  | .setConfidential asid => Sys2Proof.Machine.execSetConfidential asid s
  | .flashUpdate => Sys2Proof.Machine.execFlashUpdate s
  | .hostApertureAccess off a => Sys2Proof.Machine.execHostApertureAccess off a s
  | .moduleReset => Sys2Proof.Machine.execModuleReset s
  | .sidebandReset reg w => Sys2Proof.Machine.execSidebandReset reg w s
  | .lineEncryptWriteback line => Sys2Proof.Machine.execLineEncryptWriteback line s
  | .writeThroughAcknowledgement op lanes => Sys2Proof.Machine.execWriteThroughAcknowledgement op lanes s
  | .hostCompletion f => Sys2Proof.Machine.execHostCompletion f s
  | .planeCredit plane => Sys2Proof.Machine.execPlaneCredit plane s

end Sys2Proof.Machine
end

