-- ==== Sys2Proof/Machine/Auto.lean ====
section
/-!
DEFINITION. How the model runs its agents (log 1): the choice of the group that issues next and of the internal work that
happens when the agenda names none.  Any order of events that the spec allows is some agenda; the choices here are made
only where the agenda makes none.
-/
namespace Sys2Proof.Machine

/-- A meaning of an event, as the model runs it on its own. -/
abbrev Work : Type := State → Host.Outcome State Fault Refusal

/-- What a piece of work is judged by: the state but for the power numbers and the counts that no work changes alone. -/
def State.judged (s : State) : State :=
  { s with damper := { s.damper with est := 0, floor := 0, ballast := 0, units := [], ran := [] }, units := [] }

/-- The next state of a piece of work that changes something. -/
def Work.done (w : Work) (s : State) : Option State :=
  match w s with
  | .next t => if t.judged = s.judged then none else some t
  | _ => none

/-- The work of memory operations (R33, R79, R85, R49). -/
def State.memWork (s : State) : List Work :=
  s.memops.flatMap fun (e : Nat × MemOp) =>
    (if e.2.lanes.any fun l => l.at_ = .unconfirmed then [execMtuConfirmation e.1]
      else if e.2.kind = .store then [execWriteThroughAcknowledgement e.1 (BitVec.allOnes 64)]
      else [execLoadDataArrival e.1 (BitVec.allOnes 64) false]) ++
      (List.range e.2.lines.length).map fun j => execTicketExpiry (e.1 * 1024 + j)

/-- The work of the engines and units of the cores (R326, R360, R376, R381, R388, R105, R114). -/
def State.engineWork (s : State) : List Work :=
  (s.sfuops.map fun (e : Nat × SfuOp) => execSfuResult e.1) ++ (s.copies.map fun (e : Nat × CopyOp) => execCopyChunk e.1) ++
    (s.matops.flatMap fun (e : Nat × MatOp) => [execMatrixKStep e.1, execMatrixOpComplete e.1]) ++
    (s.psq.map fun (e : Nat × PsOp) => execPageStoreOperation e.1) ++ s.moves.map fun m => execPageMove m.pdi

/-- The work of resident groups (R50, R388, R215, R446, R212). -/
def State.groupWork (s : State) : List Work :=
  s.groups.flatMap fun (e : Nat × Group) =>
    let g := e.2
    (if g.late.isEmpty then [] else [execBoundaryStop g.core g.slot]) ++
      (if g.spec.isSome then [execSpecResolution g.core g.slot] else []) ++
      (if g.growSince.isSome then [execGrowDeadlock g.core] else []) ++
      [execWatchdog g.core g.slot, execPcSample g.core g.slot]

/-- The work of grids and teams (R204, R209, R211, R223). -/
def State.launchWork (s : State) : List Work :=
  ((List.range 64).filter fun q => (s.reg (lqReg q 8)).getLsbD 21).map execLaunchQueueRead ++
    (s.grids.flatMap fun (e : Nat × Grid) =>
      let cores := match s.firstFit e.1 e.2 with
        | some c => [c]
        | none => if s.saves.isEmpty then [0] else List.range 640
      execSplitDrainTrigger e.1 :: cores.map fun c => execTeamPlacement e.1 c) ++
    (if (s.teams.any fun e => e.2.ramp = .waiting) || (s.groups.any fun e => e.2.rampWait.any fun w => w.2 != 0) then [execRampSlot]
    else [])

/-- The work of the units of the package (R30, R41, R43, R44, R170, R174, R218, R220, R239, R252, R447). -/
def State.unitWork (s : State) : List Work :=
  ([0, 1].flatMap fun d => [execFaultRecordDrain d, execMtuInvalidateComplete d]) ++
    s.notices.map (fun n => execNoticeTimer n.peer) ++
    s.owned.map (fun (e : Nat × OwnedTicket) => execOwnerTicketTimeout e.1) ++
    s.exports.map (fun (e : Nat × Export) => execExportStuckTimeout e.1) ++
    s.traces.map (fun (e : Nat × TraceBuf) => execTraceDrain e.1) ++
    [execTsyncTimer, execFrameBoundary, execFrameEnd, execSaveQuiesced, execSaveAreaWritten, execCarillonTakeover,
      execDamperTakeover]

/-- All internal work of the package, from a place that goes round with the time, so that none is put off for ever. -/
def State.work (s : State) : List Work :=
  let l := s.memWork ++ s.engineWork ++ s.groupWork ++ s.launchWork ++ s.unitWork
  l.rotateLeft (s.now.toNat / 16 % l.length)

/-- One piece of internal work (log 1): the first that changes anything; none when no work is pending. -/
def State.autoRun (s : State) : Option State := s.work.findSome? fun w => Work.done w s

/-- Whether a group can issue now: it is ready and issue goes on (R248). -/
def State.ready (s : State) (g : Group) : Bool := g.canIssue && !g.waiting && !s.frozen

/-- The issue resource of an instruction (R214): 0 either vector slot, 1 the matrix unit, 2 the special-function unit, 3 the
copy-engine port, 4 the scalar unit (log 56).  State.lastOn numbers the second vector slot 5. -/
def issueResource (major fn : Nat) : Nat :=
  match major with
  | 0x1D | 0x1E => 2
  | 0x29 => 3
  | 0x2B | 0x2C => 1
  | m => if actsOnLanes m fn then 0 else 4

/-- What a group issues with an instruction: the main-file banks are those of its vector sources (R214). -/
def issuedOf (g : Group) (i : Instr) : Issued :=
  match i.code with
  | some c =>
    { core := g.core, slot := g.slot, res := issueResource c.major.toNat c.fnNat
      banks := (vSources c g).flatMap fun e => (List.range e.2).map fun i => g.vreg (e.1 + i) % 4 }
  | none => { core := g.core, slot := g.slot, res := 4, banks := [] }

/-- What a group would issue next. -/
def State.nextIssue (s : State) (g : Group) : Issued :=
  match s.fetch g with
  | (_, .ok i _) => issuedOf g i
  | _ => { core := g.core, slot := g.slot, res := 4, banks := [] }

/-- Whether two groups of a core cannot issue in one clk (R214): their vector sources share a bank, or both need one
engine port. -/
def Issued.conflicts (p q : Issued) : Bool :=
  (p.banks.any fun b => q.banks.contains b) || (p.res != 0 && p.res = q.res)

/-- The ready groups of the core whose turn it is: the cores that have any go round with the time (log 1). -/
def State.readyOnCore (s : State) : List Group :=
  let gs := (Tab.vals s.groups).filter s.ready
  let cores := (gs.map Group.core).eraseDups
  match cores with
  | [] | [_] => gs
  | _ => gs.filter fun g => some g.core = cores[s.now.toNat % cores.length]?

/-- What a vector slot may issue next in normal service (R179, R214), with the groups packed on it, those packed on the
other and the ready groups with a vector instruction: of its pack those that can issue, and the oldest other group that
packs with them. -/
def slotLeads (mine other : List Nat) (on : List Group) : List Group :=
  let able := on.filter fun g => mine.contains g.slot
  let rest := on.filter fun g => !mine.contains g.slot && !other.contains g.slot &&
    packs ((able ++ [g]).map Group.width)
  able ++ (oldestOf rest).toList

/-- The group that issues next in normal service (R214): each issue resource keeps to the group that last issued on it, a
vector slot to its pack, and turns to the oldest one when that cannot issue; which of a core's resources goes first is left
to the time. -/
def State.pickNormal (s : State) : Option Group :=
  match s.readyOnCore with
  | [] => none
  | [g] => some g
  | gs =>
    let next := gs.map fun g => (g, (s.nextIssue g).res)
    let on (r : Nat) : List Group := (next.filter fun e => e.2 = r).map (·.1)
    let last (core r : Nat) : List Nat := Tab.get [] s.lastOn (core * 8 + r)
    let units := [1, 2, 3, 4].filterMap fun r =>
      match (on r).find? fun g => (last g.core r).contains g.slot with
      | some g => some g
      | none => oldestOf (on r)
    let core := (gs.head?.map Group.core).getD 0
    let leads := slotLeads (last core 0) (last core 5) (on 0) ++ slotLeads (last core 5) (last core 0) (on 0) ++ units
    leads[s.now.toNat % leads.length]?

/-- The group that issues next in age-matrix mode (R214): beside the oldest ready group of a core, which issues first in a
clk, the oldest other one that has no conflict with it. -/
def State.pickAge (s : State) : Option Group :=
  let second := s.clkIssue.bind fun p => oldestOf ((Tab.vals s.groups).filter fun g =>
    s.ready g && g.core = p.core && g.slot != p.slot && !p.conflicts (s.nextIssue g))
  match second with
  | some g => some g
  | none => oldestOf s.readyOnCore

/-- The group that issues next (R213, R214, log 1): the one the agenda names, if it can, since the groups that the mode
would put before it may then be held by a latency, which the model leaves out (log 56); else the mode chooses. -/
def State.nextGroup (s : State) (who : Option (Nat × Nat)) : Option Group :=
  match who.bind fun c => (s.group c.1 c.2).filter s.ready with
  | some g => some g
  | none => if (s.reg 0x3000).getLsbD 0 then s.pickAge else s.pickNormal

/-- Note what a group issues: on its issue resource in normal service, as the first or the second of the clk in age-matrix
mode (R214). -/
def State.noteIssue (s : State) (g : Group) (i : Instr) : State :=
  let p := issuedOf g i
  if (s.reg 0x3000).getLsbD 0 then
    { s with clkIssue := if s.clkIssue.any fun q => q.core = g.core && q.slot != g.slot then none else some p }
  else
    let s := { s with clkIssue := none }
    let key (r : Nat) : Nat := g.core * 8 + r
    let last (r : Nat) : List Nat := Tab.get [] s.lastOn (key r)
    if p.res ≠ 0 then { s with lastOn := Tab.put s.lastOn (key p.res) [g.slot] }
    else if (last 0).contains g.slot || (last 5).contains g.slot then s
    else
      let able (r : Nat) : List Nat := (last r).filter fun k => (s.group g.core k).any s.ready
      let room (r : Nat) : Bool := packs (((able r).filterMap fun k => s.group g.core k).map Group.width ++ [g.width])
      let r := if room 0 then 0 else if room 5 then 5 else 0
      { s with lastOn := Tab.put s.lastOn (key r) (if room r then able r ++ [g.slot] else [g.slot]) }

/-- Whether an event is an access from outside that the module does not take in recovery (R458) or once a class 5 error has
frozen it (R469): everything that reaches it but resets, what the platform block and the mailbox judge themselves, and what its own hardware
meets (log 49). -/
def frozenOut (i : Instr) : Bool :=
  match i with
  | .instructionFetch .. | .mtuInvctlDrop .. | .mtuInvctlClose .. | .mtuInvctlOpen .. | .replayGroup .. | .killGroup ..
  | .ticket .. | .notice .. | .rdrsp .. | .wrack .. | .atrsp .. | .winrsp .. | .winack .. | .recack .. | .probeack ..
  | .tsyncrsp .. | .hostCompletion .. | .planeCredit .. | .recall .. | .probe .. | .wininv .. | .tsync .. | .noticeServiced .. | .noticeRefused .. | .fqSizeWrite .. | .ownerRequest .. | .switchRequest .. | .winreqReceive ..
  | .expctlOpen .. | .expctlClose .. | .expctlForce .. | .handoffReceive .. | .schedCtlWrite .. | .carillonEnable ..
  | .scmdFree .. | .scmdWake .. | .scmdMarkError .. | .rqtailWrite .. | .cqheadWrite .. | .toolReturn .. | .guestAccess ..
  | .preSave .. | .preRestore .. | .preSaveFlush .. | .preEndContext .. => true
  | _ => false

/-- Let every waiting group look again. -/
def State.wake (s : State) : State :=
  if s.groups.any fun e => e.2.waiting then
    { s with groups := s.groups.map fun e => if e.2.waiting then (e.1, { e.2 with waiting := false }) else e }
  else s

/-- The state after a piece of work. -/
def State.after (s : State) (w : Work) : State :=
  match w s with
  | .next t => t
  | _ => s

/-- Time leaves an instant: what falls at it and no event has done is done (log 64): Damper's sample (R225), the Tattoo
tick (R451) and the retry of a Carillon structure (R471). -/
def State.leave (s : State) : State :=
  let s := if s.sampleDue then s.after (execDamperSample ((Config.freeValue s.freeCount).extractLsb' 0 24)) else s
  let s := if (s.reg 0x8000).getLsbD 0 then s.after execTattooTick else s
  if s.now.toNat % 2 ^ 20 = 0 then s.after execCarillonStructureRetry else s

/-- The tk to the next instant that `State.leave` may look at, at least one: Damper's sample, a Tattoo tick, the retry, and
a tick at which the time-stamp is slewed. -/
def State.nextInstant (s : State) : Nat :=
  let left (n at_ : Nat) := n - at_ % n
  let a := left (2 ^ 20) s.now.toNat
  let a := if s.damper.failed then a else min a (max 1 (100 - (s.damper.sampleAt.map s.since).getD 100))
  let a := if (s.reg 0x8000).getLsbD 0 then min a (left (2 ^ fld (s.reg 0x8000) 1 5) s.now.toNat) else a
  if s.slew = 0 then a else min a (left 1024 (s.now.toNat + 512))

/-- The clocks run on: the core clock (log 36), with it ballast (R225) and the cores' clk counters (R449), and the
time-stamp. -/
def State.tick (s : State) (dt : Nat) : State :=
  let n := (s.clk + 27 * dt) / 10 - s.clk / 10
  { (s.runBallast n).countClk n with now := s.now + BitVec.ofNat 64 dt, clk := s.clk + 27 * dt }

/-- The time-stamp makes up for what it is behind the master by one tick more in each 1,024 (R174, log 24). -/
def State.slewTick (s : State) : State :=
  if s.slew = 0 ∨ s.now.toNat % 1024 ≠ 512 then s else { s.leave with now := s.now + 1, slew := s.slew - 1 }

/-- Let time pass, from one instant to the next that anything falls at, `n` of them at most. -/
def State.passSteps : Nat → State → Nat → State
  | 0, s, _ => s
  | n + 1, s, dt =>
    if dt = 0 then s
    else
      let u := s.leave
      let k := min dt u.nextInstant
      State.passSteps n (u.tick k).slewTick (dt - k)

/-- Let dt tk pass. -/
def State.pass (s : State) (dt : Nat) : State := State.passSteps dt s dt

/-- Take the next turn: the time that passes with it, and its event or its group; one tick and no choice when the agenda
is empty. -/
def State.turn (s : State) : State × Turn :=
  match s.agenda with
  | [] => (s.pass 1, ⟨1, none, none⟩)
  | t :: ts => ({ s with agenda := ts }.pass t.dt, t)

/-- Let the waiting groups look again after an event. -/
def wakeAll (o : Host.Outcome State Fault Refusal) : Host.Outcome State Fault Refusal :=
  match o with
  | .next t => .next t.wake
  | o => o

/-- Let the other waiting groups look again when the issuing group has gone on. -/
def wakeOthers (o : Host.Outcome State Fault Refusal) (core slot : Nat) : Host.Outcome State Fault Refusal :=
  match o with
  | .next t => if ((t.group core slot).map Group.waiting).getD false then .next t else .next t.wake
  | o => o

end Sys2Proof.Machine
end

