-- ==== Sys2Proof/Machine/Recall.lean ====
section
/-!
DEFINITION. The structures that tables and registers name by physical address (R470), and the recall of what switches
hold of them before any of this module's own agents goes on (R166, log 22).
-/
namespace Sys2Proof.Machine

/-! ### The tables that the MTUs walk -/

/-- The nonzero dwords of storage in a range of `size` bytes from a place. -/
def State.dwordsIn (s : State) (k size : Nat) : List (BitVec 64) :=
  ((s.mem.filterMap fun e => if k ≤ e.1 ∧ e.1 < k + size then some (e.1 / 8) else none).eraseDups).map fun q => s.read64 (8 * q)

/-- The tables of the next level, each a place and its bytes, that the entries of tables name (R22, R23). -/
def State.nextTables (s : State) (die size : Nat) (ts : List (Nat × Nat)) : List (Nat × Nat) :=
  (ts.flatMap fun t => s.dwordsIn t.1 t.2).filterMap fun e =>
    if e.getLsbD 0 && !e.getLsbD 1 then some (physKey 0 die (fld e 8 44 * 2 ^ 8), size) else none

/-- The table that an entry of a walk cache leads to (R27). -/
def WalkEnt.table (c : WalkEnt) (die : Nat) : Nat × Nat :=
  if c.level = 0 then (physKey 0 die (fld c.entry 19 33 * 2 ^ 19), 2 ^ 19)
  else (physKey 0 die (fld c.entry 8 44 * 2 ^ 8), if c.level = 3 then 256 else 4096)

/-- The tables that a die's MTU may walk (R21, R22): the root table, the level-1 tables that its entries name, and what those
lead to, or a walk cache holds. -/
def State.walkTables (s : State) (die : Nat) : List (Nat × Nat) :=
  let b := s.reg (mtuReg die 0)
  if !b.getLsbD 0 then []
  else
    let t0 := [(physKey 0 die (fld b 19 33 * 2 ^ 19), 2 ^ 19)]
    let t1 := (t0.flatMap fun t => s.dwordsIn t.1 t.2).filterMap fun e =>
      if e.getLsbD 0 then some (physKey 0 die (fld e 19 33 * 2 ^ 19), 2 ^ 19) else none
    let t2 := s.nextTables die 4096 t1
    let t3 := s.nextTables die 4096 t2
    t0 ++ t1 ++ t2 ++ t3 ++ s.nextTables die 256 t3 ++ (s.mtu die).walkCache.map fun c => c.table die

/-! ### Rings, stacks and areas -/

/-- The structures that registers name (R470), each a place and its bytes; a base of zero names none. -/
def State.namedAreas (s : State) : List (Nat × Nat) :=
  let at_ (off lo bytes : Nat) : List (Nat × Nat) :=
    if fld (s.reg off) lo (52 - lo) = 0 then [] else [(s.baseOf off lo, bytes)]
  let count (off n : Nat) : Nat := fld (s.reg off) 0 n
  ([0, 1].flatMap fun die =>
      let b := (s.reg (mtuReg die 0x18)).toNat
      if b = 0 then [] else [(physKey 0 die b, 32 * 2 ^ fld (s.reg (mtuReg die 0x20)) 0 5)]) ++
    at_ 0x5008 12 (16 * s.pdN) ++ at_ 0x5020 12 (8 * count 0x5028 27 + 8) ++ at_ 0x5030 12 (8 * count 0x5038 27 + 8) ++
    at_ 0x5048 6 (64 * count 0x5050 12) ++ at_ 0x5058 5 (32 * count 0x5060 16) ++
    at_ 0x6008 12 (16 * 1024) ++ at_ 0x6010 21 (32 * 64 * 1024) ++ at_ 0x6018 11 (32 * 64) ++
    (if (s.reg 0x8000).getLsbD 0 then at_ 0x8008 6 (164416 * 2 ^ fld (s.reg 0x8000) 6 5) else []) ++
    (if fld (s.reg 0x10) 0 52 = 0 then [] else [(physKey 0 0 (s.reg 0x10).toNat, 16 * 640)]) ++
    (if fld (s.reg 0x30) 6 46 = 0 then [] else [(s.mbKey, 8192)])

/-- The structures that a context's registers name (R206, R251, R447, R465). -/
def Ctx.areas (c : Ctx) : List (Nat × Nat) :=
  let at_ (r : BitVec 64) (lo bytes : Nat) : List (Nat × Nat) :=
    if fld r lo (52 - lo) = 0 then [] else [(physKey 0 (fld r 52 1) (fld r lo (52 - lo) * 2 ^ lo), bytes)]
  at_ c.evt 12 (8 * fld c.evn 0 17) ++ at_ c.trcBase 12 (32 * 2 ^ fld c.trcCtl 13 5) ++
    at_ c.errpol 24 (2 ^ (20 + fld c.errpol 3 5))

/-- The areas of the saves and restores under way (R237, R239). -/
def State.saveAreas (s : State) : List (Nat × Nat) :=
  (if (s.reg 0x3040).getLsbD 63 then [(s.preArea, max (4096 * fld (s.reg 0x3050) 32 32) (s.read64 (s.preArea + 8)).toNat)] else []) ++
    s.saves.map fun v => (v.area, max (4096 * v.need) v.length)

/-! ### The recall -/

/-- What switches hold of the structures that tables and registers name by physical address; a module of which only the
platform block responds recalls nothing (R458, R469). -/
def State.structLent (s : State) : List Nat :=
  if s.lent.isEmpty || s.platformOnly then []
  else
    let areas := s.walkTables 0 ++ s.walkTables 1 ++ s.namedAreas ++ s.ctxs.flatMap (fun (e : Nat × Ctx) => e.2.areas) ++ s.saveAreas
    s.lent.flatMap fun e => if areas.any fun a => decide (a.1 / 64 ≤ e.1) && decide (64 * e.1 < a.1 + a.2) then e.2 else []

/-- Whether an event uses no structure of this module: the directory's own packets, and resets. -/
def passesRecall (i : Instr) : Bool :=
  match i with
  | .recall .. | .recack .. | .probe .. | .probeack .. | .planeCredit .. | .moduleReset | .sidebandReset .. => true
  | _ => false

/-- The turn that goes on while structures are recalled: the agenda's first event that uses none, which leaves its place. -/
def State.recallTurn (s : State) : Option (State × Instr) :=
  (s.agenda.find? fun t => (t.ev.map passesRecall).getD false).bind fun t =>
    t.ev.map fun i => ({ s with agenda := s.agenda.erase t }.pass t.dt, i)

end Sys2Proof.Machine
end

