-- ==== Sys2Proof/Machine/Step.lean ====
section
/-!
DEFINITION. One step of the machine: the next turn of the agenda (log 1), which lets time pass and then runs an event,
or lets a group issue one instruction, or one repeat, fetched at its PC; and the placing of an instruction where the
next step fetches it.
-/
namespace Sys2Proof.Machine

/-- Run an event and let the waiting groups look again; a frozen module, or one in recovery, takes none from outside but those of
its platform block (R458, R469). -/
def runEvent (i : Instr) (s : State) : Host.Outcome State Fault Refusal :=
  if i.isEncoded then .fault .agendaNotEvent
  else if s.platformOnly && frozenOut i then .next s
  else wakeAll (exec i s)

/-- Let a group issue: fetch at its PC (R281) and execute what decodes, or stop for what the fetch met. -/
def issueGroup (g : Group) (s : State) : Host.Outcome State Fault Refusal :=
  let s := { s with cur := some (g.core, g.slot) }
  match s.fetch g with
  | (s, .ok i _) => wakeOthers (exec i (s.noteIssue g i)) g.core g.slot
  | (s, .fabric _ _) => execInstructionFetch g.core g.slot s
  | (s, f) => .next (s.fetchStop g f)

/-- Internal work, when there is any; else time passes and every waiting group looks again. -/
def idleStep (s : State) : Host.Outcome State Fault Refusal :=
  match s.autoRun with
  | some t => .next t.wake
  | none => .next s.wake

/-- A turn that names no event: the next group issues, and when none is ready internal work goes on (log 1). -/
def groupStep (s : State) (who : Option (Nat × Nat)) : Host.Outcome State Fault Refusal :=
  match s.nextGroup who with
  | some g => issueGroup g s
  | none => idleStep s

/-- A step while no switch holds a structure of this module: every sixteenth tick internal work goes before the groups
(log 1). -/
def openStep (s : State) : Host.Outcome State Fault Refusal :=
  match s.turn with
  | (s, ⟨_, some i, _⟩) => runEvent i s
  | (s, ⟨_, none, who⟩) =>
    if s.now.toNat % 16 ≠ 0 ∨ who.isSome then groupStep s who
    else
      match s.autoRun with
      | some t => .next t.wake
      | none => groupStep s who

/-- A step while switches hold structures of this module (R166): their RECALLs are sent, and all that may use a structure waits
(log 22). -/
def recallStep (s : State) : Host.Outcome State Fault Refusal :=
  match (s.recallAll s.structLent).recallTurn with
  | some (t, i) => runEvent i t
  | none => .next ((s.recallAll s.structLent).pass 1)

/-- One step of the machine. -/
def step (s : State) : Host.Outcome State Fault Refusal := if s.structLent.isEmpty then openStep s else recallStep s

/-- The team of the placed instruction (log 11). -/
def placedTeam : Team :=
  { grid := 0, asid := 0, lin := 0, core := 0, paired := false, width := 16, nGroups := 1, slots := [(0, 0, 0)],
    ended := 0, tregs := 16, aregs := 16, sram := 0x0000002100208810, spBase := 0, spBase1 := 0, rings := 0x2222,
    phases := 0, bars := (List.range 16).map fun n => (n, ⟨[], 1, false⟩), tiles := [], rowEmpty := [], accs := [],
    repl := false, ramp := .started, placedAt := 0, rampSlot := 0 }

/-- The grid of the placed instruction (log 11): a one-team launch descriptor. -/
def placedGrid : Grid :=
  { desc := [0x20000000, 0, 0x0000002100208810, 0x0001000100000001, 0x210400, 0, 0x2222, 0, 0, 0, 0, 0, 0, 0, 0, 0],
    descVa := 0, gridId := 0, asid := 0, source := 0, queue := 0, order := 0, depMet := 0xF, readyAt := some 0,
    next := 1, teams := 1, endedTeams := 0, drain := none, lastAt := none, discarded := false, frame := none }

/-- A group as at its start (R187) for a placed instruction: core 0, slot 0, 16 lanes, a block of 128 registers. -/
def placedGroup : Group :=
  { core := 0, slot := 0, gid := 0, team := 0, grid := 0, asid := 0, width := 16, role := none, pc := 0x20000000,
    repIdx := 0, flags := 0, trapen := 0, part := 0, wbase := 0, blockN := 2, base := 0, v := [], s := [], p := [], rstream := 0,
    seqNo := 0, seqSlot := BitVec.allOnes 64, kargs := 0, rampSlot := 0, gridId := 0, teamId := 0, laneBase := 0,
    spec := none, accOwned := 0xFFFF, stop := none, late := [], reissue := none, holds := [], waiting := false, onEmpty := false,
    waitsIn := none, ibuf := none, ibufWait := none, staged := [], traceMask := 0, startedAt := 0, lastRetire := 0,
    saved := false, lastTape := none, barSeen := [], rampWait := none, sampleAt := 0, zeroWrites := 0,
    growSince := none, quiesce := false, tokens := 0, tileOld := none }

/-- The state s with an instruction placed where the next step fetches it (log 11): the bytes at virtual address
0x2000_0000 of context 0, a translation of die 0 for the 1 GiB around address 0, and one resident group at that PC. -/
def State.withFetchWord (s : State) (nbits w : Nat) : State :=
  let s := s.setReg (mtuReg 0 0) 0x10000001
  let s := s.write64 0x10000000 0x10080001
  let s := s.write64 0x10080000 0x10100001
  let s := s.write64 0x10100000 0x7F
  let s := s.writeLE 0x20000000 16 (w % 2 ^ nbits)
  { s with
    agenda := []
    cur := some (0, 0)
    grids := Tab.put s.grids 0 placedGrid
    teams := Tab.put s.teams 0 placedTeam
    groups := Tab.put s.groups 0 placedGroup }

end Sys2Proof.Machine
end

