-- ==== Sys2Proof/Safety.lean ====
section
/-!
DEFINITION. What counts as a safe run, and the terms in which the statements speak of one instruction: when a group issues
it, what its retiring leaves of a state, and what its stopping leaves.
-/
namespace Sys2Proof

open Sys2Proof.Machine

/-- The storage keeps its canonical form: places strictly rising, no byte listed that equals what an unlisted one
reads. -/
abbrev Memory.wf (m : List Host.Cell) : Bool := Tab.wf 0 m

/-- A step that ends in a next state. -/
def Steps (s : State) : Prop := ∃ t, step s = .next t

/-- The tile registers of a group's team (R181). -/
def tregsOf (s : State) (g : Group) : Nat :=
  match s.team g.team with
  | some t => t.tregs
  | none => 0

/-- Instruction i, of code c, is issued by group g, and nothing that the spec puts before its own part holds it back: the
group is resident and free to issue, its role permits the instruction (R182), and the registers that its fields name
exist (R188, R199). -/
abbrev Issues (i : Instr) (c : Code) (s : State) (g : Group) : Prop :=
  i.code = some c ∧ s.cur = some (g.core, g.slot) ∧ s.group g.core g.slot = some g ∧ g.canIssue = true ∧
    (g.role.all fun r => rolePermits r c.major.toNat) = true ∧ windowOk c g (tregsOf s g) = true

/-- Every element of a list of operands is full, and so is the guard of the prefixes x (R191, R193). -/
abbrev Ready (g : Group) (x : Pfx) (os : List Opd) : Prop :=
  (g.pel x.m.pred.toNat).full = true ∧ ∀ o ∈ os, o.isFull g = true

/-- Whether a further repeat of an instruction follows (R289). -/
def moreReps (c : Code) (g : Group) : Bool := decide (g.repIdx + 1 < repsOf c.pfx)

/-- A group h once its instruction of code c, issued by g at clk n, has retired (R280, R289): PC and REPIDX advance, an
engine command takes a number (R441), the marks of an issue under way are cleared, and a filled token that the instruction
reads is marked no longer (R143). -/
def retired (g h : Group) (c : Code) (pc : Option (BitVec 64)) (n : Nat) : Group :=
  { h with
    pc := pc.getD (if moreReps c g then h.pc else h.pc + BitVec.ofNat 64 (4 * codeLen c))
    repIdx := if moreReps c g then g.repIdx + 1 else 0
    seqNo := if isEngineCommand c.major.toNat c.fnNat then h.seqNo + 1 else h.seqNo
    waiting := false
    waitsIn := none
    reissue := none
    lastRetire := n
    tokens := tokensLeft c g h.tokens
    ibuf := if moreReps c g then h.ibuf else none }

/-- State t is state s with group g's instruction of code c retired and the group's contents h: beside the group, only
counters and trace buffers change, the replayable bit of a team (R244), and, where the instruction reads a filled token,
what an acquire at T invalidates (R79, R143). -/
structure Retires (s t : State) (g h : Group) (c : Code) (pc : Option (BitVec 64)) : Prop where
  group : t.group g.core g.slot = some (retired g h c pc s.clk)
  others : ∀ k, k ≠ gkey g.core g.slot → Tab.find t.groups k = Tab.find s.groups k
  cores : ∀ k, t.core k = { s.core k with counters := (t.core k).counters }
  teams : t.teams = if clearsRepl c.major.toNat c.fnNat
    then Tab.modify s.teams h.team fun m => { m with repl := false } else s.teams
  rest : t = { s.tokenAcquire c g with groups := t.groups, cores := t.cores, traces := t.traces, teams := t.teams }

/-- Instruction i completes in state s: its own part leaves state s' and the group's contents h, and it retires. -/
def Completes (i : Instr) (s s' : State) (g h : Group) (c : Code) (pc : Option (BitVec 64)) : Prop :=
  ∃ t, exec i s = .next t ∧ Retires s' t g h c pc

/-- State t is state s with group g waiting at its instruction: beside the group's marks of a wait, only trace buffers
change. -/
structure Waits (s t : State) (g : Group) : Prop where
  group : ∃ e w, t.group g.core g.slot = some ({ g with waiting := true, onEmpty := e, waitsIn := w }.recount g s.clk)
  others : ∀ k, k ≠ gkey g.core g.slot → Tab.find t.groups k = Tab.find s.groups k
  rest : t = { s with groups := t.groups, traces := t.traces }

/-- State t is state s with group g parked precisely at its instruction for a cause (R227, R230): its PC and REPIDX stay,
and one fault record goes to a die's queue. -/
structure Stops (s t : State) (g : Group) (die cause : Nat) (d0 mask : BitVec 64) (access : Nat) : Prop where
  group : t.group g.core g.slot = some { g with
    stop := some ⟨BitVec.ofNat 8 cause, .precise, mask, []⟩
    waiting := false, waitsIn := none, reissue := none, growSince := none, lastRetire := g.wdCount s.clk }
  others : ∀ k, k ≠ gkey g.core g.slot → Tab.find t.groups k = Tab.find s.groups k
  cores : ∀ k, t.core k = { s.core k with counters := (t.core k).counters }
  queue : t = { s.emit die (record0 d0 mask g.pc access cause g.seqNo g.asid g.core g.slot) with
    groups := t.groups, cores := t.cores, traces := t.traces }

/-- State t is state s with group g's instruction of code c retired, the group's contents h, and the group parked after
it for a cause (R227, R305): the saved PC names the next instruction, the record the instruction's own site. -/
structure StopsAfter (s t : State) (g h : Group) (c : Code) (cause detail : Nat) : Prop where
  group : t.group g.core g.slot = some { retired g h c none s.clk with
    stop := some ⟨BitVec.ofNat 8 cause, .after, 0, []⟩, growSince := none, lastRetire := 0 }
  others : ∀ k, k ≠ gkey g.core g.slot → Tab.find t.groups k = Tab.find s.groups k
  cores : ∀ k, t.core k = { s.core k with counters := (t.core k).counters }
  queue : t = { s.emit (dieOf g.core)
      (record0 (BitVec.ofNat 32 detail ++ c.word) 0 g.pc 0 cause g.seqNo g.asid g.core g.slot) with
    groups := t.groups, cores := t.cores, traces := t.traces }

end Sys2Proof
end

