-- ==== Sys2Proof/Certificates/Slice0/Obligations.lean ====
section
/-!
DEFINITION. The statements for the provers.  Each says in its docstring which rules it formalises; the shapes that several
of them share stand before them under `Claims`.
-/
open Sys2Proof Sys2Proof.Machine

/-! ### Decoding and the step -/

/-- R280, R283 to R292: decoding an encoded well-formed instruction gives it back, with its number of words. -/
def Obligations.DecodeEncode : Prop :=
  ∀ i : Instr, i.isEncoded = true → i.wf = true → decode (encode i) = .ok i (encode i).length

/-- Words written out from the spec's encodings (R15, R283, R287, R292, R304) decode to what they stand for. -/
def Claims.WorkedWordsDecode : Prop :=
  decode [0x04000000] = .ok .nop 1 ∧ decode [0x04000014] = .ok .exit 1 ∧
  decode [0x242860E0] = .ok (.sadd Pfx.none ⟨5, 6, 7, false, false⟩) 1 ∧
  decode [0x1C280005] = .ok (.sli none ⟨5, 5⟩) 1 ∧
  decode [0x341080FE] = .ok (.saddi Pfx.none ⟨2, 8, 127, false⟩) 1

/-- R11, R291: a reserved major, a reserved prefix kind and a prefix out of order are illegal, and DETAIL counts the word
that breaks the rule first: 0 for the main word, else the prefix. -/
def Claims.IllegalWordsRefused : Prop :=
  (∀ w : Word, w.extractLsb' 26 6 = 0x00#6 ∨ (0x36#6 ≤ w.extractLsb' 26 6 ∧ w.extractLsb' 26 6 ≠ 0x3C#6) →
    ∀ ws, decode (w :: ws) = .illegal 0) ∧
  (∀ w : Word, w.extractLsb' 24 8 = 0xF3#8 → ∀ ws, decode (w :: ws) = .illegal 1) ∧
  (∀ w v : Word, w.extractLsb' 24 8 = 0xF2#8 → v.extractLsb' 26 6 = 0x3C#6 → ∀ ws, decode (w :: v :: ws) = .illegal 2)

/-- R11, R15, R283, R287, R291, R292, R304: words written out from the spec's encodings decode to what they stand for,
and illegal ones are refused at the word that breaks the rule first. -/
def Obligations.WordsDecode : Prop :=
  Claims.WorkedWordsDecode ∧ Claims.IllegalWordsRefused

/-- The words of a group's context at package-local addresses from pc on, fetched one after another through the MTU
(R281), with the state that this leaves. -/
def Claims.fetches (asid : BitVec 16) : State → BitVec 64 → List Word → State → Prop
  | s, _, [], u => u = s
  | s, pc, w :: ws, u => addrOk pc = true ∧ isFabric pc = false ∧
      ∃ v k, s.fetchWord asid pc = (v, .ok k) ∧ v.lentAt k = [] ∧ w = BitVec.ofNat 32 (v.readLE k 4) ∧
        Claims.fetches asid v (pc + 4) ws u

/-- A step runs the decoded instruction (R280, R281): when the agenda is empty, the tick that begins is no sixteenth one
(log 1), group g is the one that issues with nothing buffered, and the words at its PC are those of instruction i, then
the step is what `exec` does with i once the turn's time has passed, with g chosen, the fetch's own changes made and the
issue noted (R214); after it the other waiting groups look again.  A turn that names an event runs that event, but for one
from outside while only the platform block responds (R458, R469).  That holds while no switch holds a structure that a table
or a register names; while one does, a step recalls it (R166) and, when the agenda has no packet of the directory and no
reset, only lets time pass (the model's own choice, log 22). -/
def Obligations.StepRunsDecoded : Prop :=
  (∀ (s u : State) (g : Group) (ws : List Word) (i : Instr),
    s.structLent = [] → s.agenda = [] → s.turn.1.now.toNat % 16 ≠ 0 → s.turn.1.nextGroup none = some g → g.buffered = [] →
    Claims.fetches g.asid { s.turn.1 with cur := some (g.core, g.slot) } g.pc ws u →
    decode ws = .ok i ws.length →
    step s = wakeOthers (exec i (u.noteIssue g i)) g.core g.slot) ∧
  (∀ (s : State) (i : Instr) (t : Turn) (ts : List Turn), s.structLent = [] → s.agenda = t :: ts → t.ev = some i →
    i.isEncoded = false → (s.turn.1.platformOnly = false ∨ frozenOut i = false) → step s = wakeAll (exec i s.turn.1)) ∧
  (∀ s : State, s.structLent ≠ [] → (∀ t ∈ s.agenda, (t.ev.map passesRecall).getD false = false) →
    step s = .next ((s.recallAll s.structLent).pass 1))

/-! ### Scalar instructions -/

/-- A scalar instruction of two sources (R313): once the group issues it with its sources and destination full, it
completes: S(d) receives the value f gives for the sources, poisoned when a source is or f says so, FLAGS gains f's
exceptions, and nothing else of the group changes but what `Retires` names. -/
def Claims.scalarTwo (i : Pfx → RRR → Instr)
    (f : Mod → Group → BitVec 64 → BitVec 64 → BitVec 64 → BitVec 64 × Exc × Bool) : Prop :=
  ∀ (x : Pfx) (r : RRR) (s : State) (g : Group) (c : Code), Issues (i x r) c s g →
    let q := rrrAt r x g.repIdx
    Ready g x [.s q.a.toNat 1, .s q.b.toNat 1, .s q.d.toNat 1] →
    let y := f x.m g (g.sv q.a.toNat) (g.sv q.b.toNat) (g.sv q.d.toNat)
    Completes (i x r) s s g
      ((g.writeS q.d.toNat y.1 ((g.sel q.a.toNat).pois || (g.sel q.b.toNat).pois || y.2.2)).raise y.2.1) c none

/-- The same for a result without exceptions. -/
def Claims.scalarPlain (i : Pfx → RRR → Instr) (f : BitVec 64 → BitVec 64 → BitVec 64) : Prop :=
  Claims.scalarTwo i fun _ _ a b _ => (f a b, 0, false)

/-- A scalar instruction of one source (R313): it completes with f of the source in S(d), poison with it. -/
def Claims.scalarOne (i : Pfx → RRR → Instr) (f : BitVec 64 → BitVec 64) : Prop :=
  ∀ (x : Pfx) (r : RRR) (s : State) (g : Group) (c : Code), Issues (i x r) c s g →
    let q := rrrAt r x g.repIdx
    Ready g x [.s q.a.toNat 1, .s q.d.toNat 1] →
    Completes (i x r) s s g (g.writeS q.d.toNat (f (g.sv q.a.toNat)) (g.sel q.a.toNat).pois) c none

/-- How R313 reads a scalar for a TYPE: as unsigned for N64, else as signed. -/
def Claims.read (m : Mod) (v : BitVec 64) : Int := if m.type = 8 then (v.toNat : Int) else v.toInt

/-- clamp_int of R255 on 64 bits: in range, the value; out of range, IOV with the value wrapped, or, with SAT, the nearest
bound. -/
def Claims.clamp (m : Mod) (v : Int) : BitVec 64 × Exc :=
  let lo : Int := if m.type = 8 then 0 else -(2 ^ 63)
  let hi : Int := if m.type = 8 then 2 ^ 64 - 1 else 2 ^ 63 - 1
  if lo ≤ v ∧ v ≤ hi then (BitVec.ofInt 64 v, 0)
  else (BitVec.ofInt 64 (if m.sat then max lo (min v hi) else v), Exc.iov)

/-- R313, R255: SADD, SSUB and SMUL write the exact result under clamp_int; SMULH and SMULHN the high half of the signed
and the unsigned product. -/
def Claims.ScalarArithmetic : Prop :=
  (Claims.scalarTwo .sadd fun m _ a b _ => let y := Claims.clamp m (Claims.read m a + Claims.read m b); (y.1, y.2, false)) ∧
  (Claims.scalarTwo .ssub fun m _ a b _ => let y := Claims.clamp m (Claims.read m a - Claims.read m b); (y.1, y.2, false)) ∧
  (Claims.scalarTwo .smul fun m _ a b _ => let y := Claims.clamp m (Claims.read m a * Claims.read m b); (y.1, y.2, false)) ∧
  (Claims.scalarPlain .smulh fun a b => (a.signExtend 128 * b.signExtend 128).extractLsb' 64 64) ∧
  (Claims.scalarPlain .smulhn fun a b => (a.zeroExtend 128 * b.zeroExtend 128).extractLsb' 64 64)

/-- R314: division truncates toward zero; by zero it gives all ones (SREM the dividend) with IDZ, poisoned where
TRAPEN.IDZ is 1; the quotient of -2^63 by -1 is under clamp_int. -/
def Claims.ScalarDivision : Prop :=
  (Claims.scalarTwo .sdiv fun m g a b _ =>
    if b = 0 then (BitVec.allOnes 64, Exc.idz, g.trapen.getLsbD 6)
    else if a = BitVec.intMin 64 ∧ b = BitVec.allOnes 64 then
      (if m.sat then BitVec.intMax 64 else BitVec.intMin 64, Exc.iov, false)
    else (a.sdiv b, 0, false)) ∧
  (Claims.scalarTwo .sdivn fun _ g a b _ =>
    if b = 0 then (BitVec.allOnes 64, Exc.idz, g.trapen.getLsbD 6) else (a / b, 0, false)) ∧
  (Claims.scalarTwo .srem fun _ g a b _ =>
    if b = 0 then (a, Exc.idz, g.trapen.getLsbD 6) else (a.srem b, 0, false))

/-- R313: the bitwise forms, shifts by S(b)[5:0], minimum and maximum. -/
def Claims.ScalarBitwise : Prop :=
  Claims.scalarPlain .sand (fun a b => a &&& b) ∧ Claims.scalarPlain .sor (fun a b => a ||| b) ∧
  Claims.scalarPlain .sxor (fun a b => a ^^^ b) ∧ Claims.scalarPlain .sandn (fun a b => a &&& ~~~b) ∧
  Claims.scalarPlain .sshl (fun a b => a <<< (b &&& 63)) ∧ Claims.scalarPlain .sshr (fun a b => a >>> (b &&& 63)) ∧
  Claims.scalarPlain .ssra (fun a b => a.sshiftRight (b &&& 63).toNat) ∧
  Claims.scalarPlain .srot (fun a b => a.rotateRight (b &&& 63).toNat) ∧
  Claims.scalarPlain .smin (fun a b => if b.slt a then b else a) ∧
  Claims.scalarPlain .smax (fun a b => if a.slt b then b else a) ∧
  Claims.scalarPlain .sminn (fun a b => if b < a then b else a) ∧
  Claims.scalarPlain .smaxn (fun a b => if a < b then b else a)

/-- R313: compares write 1 or 0. -/
def Claims.ScalarCompare : Prop :=
  let truth (b : Bool) : BitVec 64 := BitVec.ofNat 64 b.toNat
  Claims.scalarPlain .seq (fun a b => truth (a == b)) ∧ Claims.scalarPlain .sne (fun a b => truth (a != b)) ∧
  Claims.scalarPlain .slt (fun a b => truth (a.slt b)) ∧ Claims.scalarPlain .sle (fun a b => truth (a.sle b)) ∧
  Claims.scalarPlain .sltn (fun a b => truth (a.ult b)) ∧ Claims.scalarPlain .slen (fun a b => truth (a.ule b))

/-- R313, R315: the unary forms and the bit-field forms, bit by bit. -/
def Claims.ScalarBits : Prop :=
  Claims.scalarOne .sclz (fun a => BitVec.ofNat 64 (if a = 0 then 64 else 63 - a.toNat.log2)) ∧
  Claims.scalarOne .spopc (fun a => BitVec.ofNat 64 ((List.range 64).countP fun i => a.getLsbD i)) ∧
  Claims.scalarOne .sbrev (fun a => a.reverse) ∧
  Claims.scalarOne .smov (fun a => a) ∧
  Claims.scalarPlain .sbfx (fun a b =>
    let pos := (b.extractLsb' 0 6).toNat
    let len := min (b.extractLsb' 8 7).toNat 64
    let field := (a >>> pos) &&& BitVec.ofNat 64 (2 ^ len - 1)
    if b.getLsbD 15 && decide (0 < len) && field.getLsbD (len - 1) then field ||| ~~~(BitVec.ofNat 64 (2 ^ len - 1))
    else field) ∧
  ∀ (x : Pfx) (r : RRR) (s : State) (g : Group) (c : Code), Issues (.sbfi x r) c s g →
    let q := rrrAt r x g.repIdx
    Ready g x [.s q.a.toNat 1, .s q.b.toNat 1, .s q.d.toNat 1] →
    let a := g.sv q.a.toNat
    let b := g.sv q.b.toNat
    let d := g.sv q.d.toNat
    let pos := (b.extractLsb' 0 6).toNat
    let len := min (b.extractLsb' 8 7).toNat 64
    let m := BitVec.ofNat 64 (2 ^ len - 1) <<< pos
    Completes (.sbfi x r) s s g (g.writeS q.d.toNat ((d &&& ~~~m) ||| ((a <<< pos) &&& m))
      ((g.sel q.a.toNat).pois || (g.sel q.b.toNat).pois || (g.sel q.d.toNat).pois)) c none

/-- A scalar instruction of one source and an immediate (R316). -/
def Claims.scalarImm {α : Type} (i : α → RI → Instr) (p : α → Pfx) (f : Mod → α → RI → BitVec 64 → BitVec 64 × Exc) :
    Prop :=
  ∀ (x : α) (r : RI) (s : State) (g : Group) (c : Code), Issues (i x r) c s g →
    Ready g (p x) [.s r.a.toNat 1, .s r.d.toNat 1] →
    let y := f (p x).m x r (g.sv r.a.toNat)
    Completes (i x r) s s g ((g.writeS r.d.toNat y.1 (g.sel r.a.toNat).pois).raise y.2) c none

/-- R316, R286: SADDI adds the sign-extended immediate, of 11 bits or 35 with EXT, to the source as the TYPE reads it,
under clamp_int; SANDI, SORI and SXORI take it zero-extended; SSHI shifts or rotates by imm[5:0] as imm[10:9] says. -/
def Claims.ScalarImmediate : Prop :=
  let wide (e : Option (BitVec 24)) (r : RI) : BitVec 64 :=
    match e with
    | some e => (e ++ r.imm).zeroExtend 64
    | none => r.imm.zeroExtend 64
  (Claims.scalarImm .saddi id fun m x r a =>
    Claims.clamp m (Claims.read m a + match x.ext with
      | some e => (e ++ r.imm).toInt
      | none => r.imm.toInt)) ∧
  (Claims.scalarImm .sandi Pfx.ofExt fun _ e r a => (a &&& wide e r, 0)) ∧
  (Claims.scalarImm .sori Pfx.ofExt fun _ e r a => (a ||| wide e r, 0)) ∧
  (Claims.scalarImm .sxori Pfx.ofExt fun _ e r a => (a ^^^ wide e r, 0)) ∧
  (Claims.scalarImm (fun (_ : Unit) => .sshi) (fun _ => Pfx.none) fun _ _ r a =>
    let n := (r.imm.extractLsb' 0 6).toNat
    (match (r.imm.extractLsb' 9 2).toNat with
      | 0 => a <<< n
      | 1 => a >>> n
      | 2 => a.sshiftRight n
      | _ => a.rotateRight n, 0))

/-- R255, R286, R313 to R316: every scalar instruction of majors 0x09 to 0x11 completes with its value, its poison and
its exceptions.  Under its conditions `exec` answers a next state for: SADD, SSUB, SMUL, SMULH, SMULHN, SDIV, SDIVN,
SREM, SAND, SOR, SXOR, SANDN, SSHL, SSHR, SSRA, SROT, SMIN, SMAX, SMINN, SMAXN, SCLZ, SPOPC, SBREV, SMOV, SEQ, SNE, SLT,
SLE, SLTN, SLEN, SBFX, SBFI, SADDI, SANDI, SORI, SXORI, SSHI. -/
def Obligations.ScalarComputes : Prop :=
  Claims.ScalarArithmetic ∧ Claims.ScalarDivision ∧ Claims.ScalarBitwise ∧
    Claims.ScalarCompare ∧ Claims.ScalarBits ∧ Claims.ScalarImmediate

/-- R317: SLI writes the immediate sign-extended from 19 bits, or from 43 with EXT; SLIH shifts S(d) left by 19 and puts
its immediate below, waiting for S(d); neither sets a flag; and the three of them in turn load any 64-bit value.  Under
its conditions `exec` answers a next state for: SLI, SLIH. -/
def Obligations.LoadImmediate : Prop :=
  (∀ (e : Option (BitVec 24)) (r : LI) (s : State) (g : Group) (c : Code), Issues (.sli e r) c s g →
    Ready g Pfx.none [.s r.d.toNat 1] →
    Completes (.sli e r) s s g (g.writeS r.d.toNat (match e with
      | some e => (e ++ r.imm).signExtend 64
      | none => r.imm.signExtend 64) false) c none) ∧
  (∀ (r : LI) (s : State) (g : Group) (c : Code), Issues (.slih r) c s g → Ready g Pfx.none [.s r.d.toNat 1] →
    Completes (.slih r) s s g
      (g.writeS r.d.toNat ((g.sv r.d.toNat <<< 19) ||| r.imm.zeroExtend 64) (g.sel r.d.toNat).pois) c none) ∧
  (∀ (r : LI) (s : State) (g : Group) (c : Code), Issues (.slih r) c s g → (g.sel r.d.toNat).full = false →
    ∃ t, exec (.slih r) s = .next t ∧ Waits s t g) ∧
  (∀ (v w : Word) (ws : List Word), v.extractLsb' 26 6 = 0x3C#6 → w.extractLsb' 26 6 = 8#6 →
    decode (v :: w :: ws) = .illegal 1) ∧
  (∀ v : BitVec 64, (((((v.extractLsb' 38 26).zeroExtend 43).signExtend 64 <<< 19 |||
    (v.extractLsb' 19 19).zeroExtend 64) <<< 19) ||| (v.extractLsb' 0 19).zeroExtend 64) = v)

/-! ### Control flow, the register block and the state registers -/

/-- R304, R305: NOP completes and changes nothing; YIELD completes and changes no state but, in normal service, the
group that the core's issue resources issue from next (R214); PMARK completes, writing its marker record where tracing
is on for the group (R446 TYPE 1), and TSTAMP writes the time-stamp. The model's own choices in it: the group to which
YIELD turns the issue resources (log 1).  Under its conditions `exec` answers a next state for: NOP, YIELD, PMARK,
TSTAMP. -/
def Obligations.PlainSystemInstructions : Prop :=
  (∀ s g c, Issues .nop c s g → Completes .nop s s g g c none) ∧
  (∀ s g c, Issues .yield c s g → ∃ t u, exec .yield s = .next t ∧ Retires s u g g c none ∧ t = { u with lastOn := t.lastOn } ∧
    ((s.reg 0x3000).getLsbD 0 = true → t = u)) ∧
  (∀ r s g c, Issues (.pmark r) c s g →
    Completes (.pmark r) s
      (if (s.ctx g.asid).trcCtl.getLsbD 0 && g.traceMask.getLsbD 0 then
        s.tracePut g.core (traceRecord s.now 1 g.pc g.core g.seqNo g.slot g.asid (r.a.toNat * 128 + r.b.toNat))
      else s) g g c none) ∧
  (∀ r s g c, Issues (.tstamp r) c s g → (g.sel r.d.toNat).full = true →
    Completes (.tstamp r) s s g (g.writeS r.d.toNat s.now false) c none)

/-- The offset of a branch (R286, R307): the field, or EXT and the field, sign-extended, four times. -/
def Claims.offset {n : Nat} (e : Option (BitVec 24)) (f : BitVec n) : BitVec 64 :=
  4 * (match e with
    | some e => (e ++ f).signExtend 64
    | none => f.signExtend 64)

/-- The address after the main word of an instruction with an optional EXT (R307). -/
def Claims.next (pc : BitVec 64) (e : Option (BitVec 24)) : BitVec 64 :=
  match e with
  | some _ => pc + 8
  | none => pc + 4

/-- Whether the condition of BCC holds (R293): a signed test of a scalar against zero, or a test of the bits of the tile of
lane 0 of a predicate. -/
def Claims.holds (g : Group) (r : BR) : Bool :=
  let v := g.sv r.a.toNat
  let any := (List.range g.tileSize).any fun l => (g.pel r.a.toNat).bits.getLsbD l
  match r.cc.toNat with
  | 0 => v == 0
  | 1 => v != 0
  | 2 => v.slt 0
  | 3 => (0 : BitVec 64).sle v
  | 4 => (0 : BitVec 64).slt v
  | 5 => v.sle 0
  | 6 => any
  | _ => !any

/-- R307, R293: BRA branches; CALL writes the address after its main word to s127 and branches; BCC branches when its
condition holds and else goes on after its main word; a poisoned scalar condition is a poison use at the branch. -/
def Claims.Branches : Prop :=
  (∀ e r s g c, Issues (.bra e r) c s g → Completes (.bra e r) s s g g c (some (g.pc + Claims.offset e r))) ∧
  (∀ e r s g c, Issues (.call e r) c s g → (g.sel 127).full = true →
    Completes (.call e r) s s g (g.writeS 127 (Claims.next g.pc e) false) c (some (g.pc + Claims.offset e r))) ∧
  (∀ e (r : BR) s g c, Issues (.bcc e r) c s g →
    (if r.cc.toNat < 6 then (g.sel r.a.toNat).full = true ∧ (g.sel r.a.toNat).pois = false
      else (g.pel r.a.toNat).full = true) →
    Completes (.bcc e r) s s g g c (if Claims.holds g r then some (g.pc + Claims.offset e r.off) else none)) ∧
  (∀ e (r : BR) s g c, Issues (.bcc e r) c s g → r.cc.toNat < 6 → (g.sel r.a.toNat).full = true →
    (g.sel r.a.toNat).pois = true →
    ∃ t, exec (.bcc e r) s = .next t ∧ Stops s t g (dieOf g.core) 0x05 (0#32 ++ c.word) 0 0)

/-- R308: LOOP leaves when its count is zero; else it counts down, as unsigned, and goes on after its main word; a LOOP
whose cc is not zero is illegal.  Under its conditions `exec` answers a next state for: LOOP. -/
def Obligations.LoopCounts : Prop :=
  (∀ (w : Word) (ws : List Word), w.extractLsb' 26 6 = 6#6 → w.extractLsb' 16 3 ≠ 0#3 → decode (w :: ws) = .illegal 0) ∧
  ∀ e (r : BR) s g c, Issues (.loop e r) c s g → (g.sel r.a.toNat).full = true → (g.sel r.a.toNat).pois = false →
    (g.sv r.a.toNat = 0 → Completes (.loop e r) s s g g c (some (g.pc + Claims.offset e r.off))) ∧
    (g.sv r.a.toNat ≠ 0 → Completes (.loop e r) s s g (g.writeS r.a.toNat (g.sv r.a.toNat - 1) false) c none)

/-- R309: JR jumps to S(a) and writes the address after it to S(d); RET jumps to s127; a target with bits [1:0] or [63:57]
set is an address fault at the jump, and a poisoned one a poison use, with nothing written. -/
def Claims.RegisterJumps : Prop :=
  let good (v : BitVec 64) : Prop := v.extractLsb' 0 2 = 0 ∧ v.extractLsb' 57 7 = 0
  (∀ r s g c, Issues (.jr r) c s g → Ready g Pfx.none [.s r.a.toNat 1, .s r.d.toNat 1] →
    ((g.sel r.a.toNat).pois = false → good (g.sv r.a.toNat) →
      Completes (.jr r) s s g (g.writeS r.d.toNat (g.pc + 4) false) c (some (g.sv r.a.toNat))) ∧
    ((g.sel r.a.toNat).pois = false → ¬good (g.sv r.a.toNat) →
      ∃ t, exec (.jr r) s = .next t ∧ Stops s t g (dieOf g.core) 0x10 (g.sv r.a.toNat) 0 3) ∧
    ((g.sel r.a.toNat).pois = true →
      ∃ t, exec (.jr r) s = .next t ∧ Stops s t g (dieOf g.core) 0x05 (0#32 ++ c.word) 0 0)) ∧
  (∀ s g c, Issues .ret c s g → (g.sel 127).full = true →
    ((g.sel 127).pois = false → good (g.sv 127) → Completes .ret s s g g c (some (g.sv 127))) ∧
    ((g.sel 127).pois = false → ¬good (g.sv 127) →
      ∃ t, exec .ret s = .next t ∧ Stops s t g (dieOf g.core) 0x10 (g.sv 127) 0 3) ∧
    ((g.sel 127).pois = true →
      ∃ t, exec .ret s = .next t ∧ Stops s t g (dieOf g.core) 0x05 (0#32 ++ c.word) 0 0)) ∧
  (∀ s g c, Issues .ret c s g → (g.sel 127).full = false → ∃ t, exec .ret s = .next t ∧ Waits s t g) ∧
  (∀ ws : List Word, decode (0x14000004 :: ws) = .ok .ret 1)

/-- R293, R307, R309: branches, calls and jumps go where their operands say, or stop. The model's own choices in it: the
ACCESS 3 and the empty mask of a jump's address fault (log 19).  Under its conditions `exec` answers a next state for:
BRA, CALL, BCC, JR, RET. -/
def Obligations.BranchesAndJumps : Prop :=
  Claims.Branches ∧ Claims.RegisterJumps

/-- R310, R311, R188: WBASE sets the window where its base lies in the block and empties the staging buffer, else it has
the register-window fate; RPF fills the staging buffer and changes nothing else. -/
def Claims.WindowBase : Prop :=
  (∀ r s g c, Issues (.wbase r) c s g →
    (32 * r.b.toNat < g.blockSize →
      Completes (.wbase r) s s g { g with wbase := BitVec.ofNat 64 (32 * r.b.toNat), staged := [] } c none) ∧
    (g.blockSize ≤ 32 * r.b.toNat →
      ∃ t, exec (.wbase r) s = .next t ∧ Stops s t g (dieOf g.core) 0x42 (0#32 ++ c.word) 0 0)) ∧
  (∀ r s g c, Issues (.rpf r) c s g → Completes (.rpf r) s s g
    { g with staged := (List.range r.b.toNat).map fun i => 32 * fld g.wbase 5 4 + r.a.toNat + i } c none)

/-- The state that a change of a group's block leaves (R208): the core map names the free granules where they changed. -/
def Claims.mapped (s u : State) (core : Nat) : State :=
  if u.freeGranules core = s.freeGranules core then u else u.putCmap core

/-- R189, R190, R208, R212: REGGROW doubles the block where the allocator can supply it, after compaction if need be, and no
earlier one waits: the old registers keep their contents and the new ones read zero and full; a block with its size free
above it in its own place can always grow; else the group waits in order.  REGSHRINK halves the block once its upper half
holds no empty element; at 512 and at 32 registers they stop with the register-block limit. -/
def Claims.BlockGrowsAndShrinks : Prop :=
  (∀ s g c ms b, Issues .reggrow c s g → g.blockN < 4 → s.growBehind g = false → s.growPlace g = some (ms, b) →
    (∀ e ∈ g.v, e.1 < g.blockSize * 64) →
    ∃ u h, exec .reggrow s = .next (Claims.mapped s u g.core) ∧ Retires (s.moveBlocks g.core ms) u g h c none ∧
      h.blockSize = 2 * g.blockSize ∧ h.base = b ∧ h.staged = [] ∧
      (∀ j l, h.vblk j l = g.vblk j l) ∧ (∀ j l, g.blockSize ≤ j → h.vblk j l = VEl.zero)) ∧
  (∀ (s : State) (g : Group), g.base % (2 * g.granules) = 0 →
    (∀ h ∈ s.groupsOf g.core, h.slot ≠ g.slot → h.base + h.granules ≤ g.base ∨ g.base + 2 * g.granules ≤ h.base) →
    s.growPlace g = some ([], g.base)) ∧
  (∀ s g c, Issues .reggrow c s g → g.blockN < 4 → s.growBehind g = true ∨ s.growPlace g = none →
    ∃ t h, exec .reggrow s = .next t ∧ t.group g.core g.slot = some h ∧ h.pc = g.pc ∧ h.waiting = true ∧ h.v = g.v ∧
      h.blockN = g.blockN ∧ h.growSince = if g.growSince = none then some s.nextId else g.growSince) ∧
  (∀ s g c, Issues .reggrow c s g → 4 ≤ g.blockN →
    ∃ t, exec .reggrow s = .next t ∧ Stops s t g (dieOf g.core) 0x43 (0#32 ++ c.word) 0 0) ∧
  (∀ s g c, Issues .regshrink c s g → 0 < g.blockN → 2 * g.wbase.toNat < g.blockSize →
    (∀ e ∈ g.v, g.blockSize / 2 * 64 ≤ e.1 → e.2.full = true) →
    ∃ u h, exec .regshrink s = .next (Claims.mapped s u g.core) ∧ Retires s u g h c none ∧ 2 * h.blockSize = g.blockSize ∧ h.staged = [] ∧
      (∀ j l, j < h.blockSize → l < 64 → h.vblk j l = g.vblk j l)) ∧
  (∀ s g c, Issues .regshrink c s g → g.blockN = 0 →
    ∃ t, exec .regshrink s = .next t ∧ Stops s t g (dieOf g.core) 0x43 (0#32 ++ c.word) 0 0)

/-- R10, R294, R312: MFS writes the state register that its number names, full and unpoisoned; MTS sets FLAGS, TRAPEN, PART,
WBASE (a base in the block; the staging buffer empties) and, for Carillon's context, SEQSLOT to a value of its layout;
ones in reserved bits are ignored.  Both wait for flag setters only where they name FLAGS. -/
def Claims.StateRegisters : Prop :=
  (∀ (r : RRR) s g c, Issues (.mfs r) c s g → (g.sel r.d.toNat).full = true →
    let n := r.b.toNat * 128 + r.a.toNat
    (n = 0 → s.flagsPending g = false) →
    ∀ v : BitVec 64,
      (n = 0x000 ∧ v = g.flags) ∨ (n = 0x001 ∧ v = g.trapen) ∨ (n = 0x002 ∧ v = g.part) ∨ (n = 0x003 ∧ v = g.wbase) ∨
      (n = 0x010 ∧ v = BitVec.ofNat 64 g.gid) ∨ (n = 0x011 ∧ v = g.teamId) ∨ (n = 0x012 ∧ v = g.gridId) ∨
      (n = 0x013 ∧ v = g.laneBase) ∨ (n = 0x014 ∧ v = g.kargs) ∨ (n = 0x020 ∧ v = g.seqSlot) ∨
      (n = 0x021 ∧ v = BitVec.ofNat 64 (s.tickets g)) ∨ (n = 0x022 ∧ v = g.rampSlot) →
      Completes (.mfs r) s s g (g.writeS r.d.toNat v false) c none) ∧
  (∀ (r : RRR) s g c, Issues (.mts r) c s g → (g.sel r.a.toNat).full = true → (g.sel r.a.toNat).pois = false →
    let n := r.b.toNat * 128 + r.d.toNat
    let v := g.sv r.a.toNat
    (n = 0x000 → s.flagsPending g = false → Completes (.mts r) s s g { g with flags := v &&& 0x17F } c none) ∧
    (n = 0x001 → Completes (.mts r) s s g { g with trapen := v &&& 0x7F } c none) ∧
    (n = 0x002 → v.toNat % 8 ≤ 4 → Completes (.mts r) s s g { g with part := v &&& 7 } c none) ∧
    (n = 0x003 → (v &&& 0x1E0).toNat < g.blockSize →
      Completes (.mts r) s s g { g with wbase := v &&& 0x1E0, staged := [] } c none) ∧
    (n = 0x020 → g.asid = BitVec.ofNat 16 (fld (s.reg 0x4000) 11 16) → (v.toNat < 2 ^ 13 ∨ v = BitVec.allOnes 64) →
      Completes (.mts r) s s g { g with seqSlot := v } c none))

/-- R10, R188 to R190, R208, R212, R294, R310 to R312: the window, the register block and the state registers.  Under
its conditions `exec` answers a next state for: WBASE, REGGROW, REGSHRINK, RPF, MFS, MTS. -/
def Obligations.WindowAndStateRegisters : Prop :=
  Claims.WindowBase ∧ Claims.BlockGrowsAndShrinks ∧ Claims.StateRegisters

/-- R305, R227, R235: BKPT and TRAP retire and park the group after the instruction with causes 0x02 and 0x03;
TRAPFENCE, once the earlier flag setters have filled, goes on when no enabled FLAGS bit is set, and else clears those
bits and parks the group after it with cause 0x04 and the bits in DETAIL.  Under its conditions `exec` answers a next
state for: TRAPFENCE, BKPT, TRAP. -/
def Obligations.TrapsStopAfter : Prop :=
  (∀ r s g c, Issues (.bkpt r) c s g → ∃ t, exec (.bkpt r) s = .next t ∧ StopsAfter s t g g c 0x02 0) ∧
  (∀ r s g c, Issues (.trap r) c s g → ∃ t, exec (.trap r) s = .next t ∧ StopsAfter s t g g c 0x03 0) ∧
  (∀ s g c, Issues .trapfence c s g → s.flagsPending g = false →
    let hit := g.flags &&& g.trapen &&& 0x7F
    (hit = 0 → Completes .trapfence s s g g c none) ∧
    (hit ≠ 0 → ∃ t, exec .trapfence s = .next t ∧
      StopsAfter s t g { g with flags := g.flags &&& ~~~hit } c 0x04 hit.toNat))

/-! ### Thread memory accesses -/

/-- An access of group g's team to a space 0 to 4 that the checks of R18, R61, R62 and R141 pass: it has a lane, no lane
is misaligned or outside its space or in fabric space, no range lock holds a lane's bytes, and no fabric line of
an earlier access is under way in the package. -/
def Claims.passes (s : State) (g : Group) (t : Team) (o : MemOp) : Prop :=
  s.team g.team = some t ∧ o.lanes ≠ [] ∧ o.space ≤ 4 ∧
    (∀ l ∈ o.lanes, s.addrBad g.asid t o.space l.addr o.bytes o.access = false ∧
      (o.space = 0 → isFabric l.addr = false) ∧
      s.lockHit g.core o.space g.asid l.addr.toNat o.bytes (o.kind = .store || o.kind = .atomic) = none) ∧
    ∀ e ∈ s.memops, e.2.lines = []

/-- Instruction i completes by putting the access o in flight (R82, R192, R33): the group retires with the contents h and,
where an MTU must still confirm the access, a hold; the operation is o, each lane with its address and data and, in a
space 1 to 4, its place; beside it no operation changes, no other group does, and no byte of storage where the
space is not 0 or the group holds. -/
def Claims.accesses (i : Instr) (s : State) (g h : Group) (c : Code) (t : Team) (o : MemOp) : Prop :=
  ∃ (u : State) (hs : List Nat) (p : MemOp), exec i s = .next u ∧
    u.group g.core g.slot = some (retired g { h with holds := hs } c none s.clk) ∧
    (hs = g.holds ∨ (o.space = 0 ∧ hs = s.nextId :: g.holds)) ∧
    Tab.find u.memops s.nextId = some p ∧ { p with lanes := o.lanes } = o ∧
    (p.lanes.map fun l => (l.lane, l.addr, l.data, l.cmp)) = (o.lanes.map fun l => (l.lane, l.addr, l.data, l.cmp)) ∧
    (o.space ≠ 0 → ∀ l ∈ p.lanes,
      l.at_ = .placed (s.spacePlace g.core g.slot g.asid t l.lane o.space l.addr.toNat)) ∧
    (∀ k, k ≠ s.nextId → Tab.find u.memops k = Tab.find s.memops k) ∧
    (∀ k, k ≠ gkey g.core g.slot → Tab.find u.groups k = Tab.find s.groups k) ∧
    (o.space ≠ 0 ∨ hs ≠ g.holds → u.mem = s.mem)

/-- The element type of an access with the default d (R254), its bytes. -/
def Claims.typ (x : Pfx) (d : Nat) : Nat := if x.m.type = 0 then d else x.m.type.toNat

/-- The access that group g's instruction makes under its MOD prefix (R338), with nothing loaded or stored yet. -/
def Claims.op (g : Group) (x : Pfx) (c : Code) (kind : MemKind) (type bytes : Nat) : MemOp :=
  { kind := kind, core := g.core, slot := g.slot, gid := g.gid, team := g.team, asid := g.asid, pc := g.pc,
    repIdx := g.repIdx, word := c.word, seq := g.seqNo, space := x.m.space.toNat, order := x.m.order.toNat,
    scope := x.m.scope.toNat, hint := x.m.hint.toNat, type := type, bytes := bytes, aop := 0, dstKind := .none, dst := 0,
    nreg := 1, lanes := [], lines := [], per := 1, mask := 0, writesP := none, engine := none }

/-- A lane of an access: its address, the data it stores or combines, the value it compares. -/
def Claims.lane (l : Nat) (addr : BitVec 64) (data cmp : Nat) : LaneAcc :=
  ⟨l, addr, BitVec.ofNat 128 data, BitVec.ofNat 64 cmp, .unconfirmed, false, false⟩

/-- R341: SLD reads one element at S(a) plus the immediate, marking S(d) empty; SST writes the low bytes of S(d) there; a
poisoned address or datum is a poison use with DETAIL 1 or 2. -/
def Claims.ScalarLoadAndStore : Prop :=
  (∀ (x : Pfx) (r : RI) s g c t, Issues (.sld x r) c s g → Ready g x [.s r.a.toNat 1, .s r.d.toNat 1] →
    (g.sel r.a.toNat).pois = false →
    let ea := g.sv r.a.toNat + immSigned x.ext r.imm
    let ty := Claims.typ x 8
    let o := { Claims.op g x c .load ty (typeBytes ty) with
      dstKind := .s, dst := r.d.toNat, mask := 1, lanes := [Claims.lane 0 ea 0 0] }
    Claims.passes s g t o → Claims.accesses (.sld x r) s g (g.emptyS r.d.toNat) c t o) ∧
  (∀ (x : Pfx) (r : RI) s g c t, Issues (.sst x r) c s g → Ready g x [.s r.a.toNat 1, .s r.d.toNat 1] →
    (g.sel r.a.toNat).pois = false → (g.sel r.d.toNat).pois = false →
    let ea := g.sv r.a.toNat + immSigned x.ext r.imm
    let ty := Claims.typ x 8
    let o := { Claims.op g x c .store ty (typeBytes ty) with
      mask := 1, lanes := [Claims.lane 0 ea ((g.sv r.d.toNat).toNat % 256 ^ typeBytes ty) 0] }
    Claims.passes s g t o → Claims.accesses (.sst x r) s g g c t o) ∧
  (∀ (x : Pfx) (r : RI) s g c, Issues (.sld x r) c s g → Ready g x [.s r.a.toNat 1, .s r.d.toNat 1] →
    (g.sel r.a.toNat).pois = true →
    ∃ t, exec (.sld x r) s = .next t ∧ Stops s t g (dieOf g.core) 0x05 (1#32 ++ c.word) 0 0) ∧
  (∀ (x : Pfx) (r : RI) s g c, Issues (.sst x r) c s g → Ready g x [.s r.a.toNat 1, .s r.d.toNat 1] →
    (g.sel r.a.toNat).pois = false → (g.sel r.d.toNat).pois = true →
    ∃ t, exec (.sst x r) s = .next t ∧ Stops s t g (dieOf g.core) 0x05 (2#32 ++ c.word) 0 0)

/-- The register shapes of R343: how field a is read, the bytes of an element, and the data registers. -/
def Claims.shape (x : Pfx) (fn : BitVec 3) : Nat × Nat × Nat :=
  if fn = 1 ∨ fn = 5 then (8, 8, 2) else if fn = 2 then (6, 16, 4)
  else (Claims.typ x 6, typeBytes (Claims.typ x 6), 1)

/-- The address of lane l under a shape of R343, modulo 2^64. -/
def Claims.address (g : Group) (fn : BitVec 3) (a b e l : Nat) : BitVec 64 :=
  let pair : BitVec 64 := (g.vel (a + 1) l).val ++ (g.vel a l).val
  match fn.toNat with
  | 0 => g.sv a + BitVec.ofNat 64 (e * l) + g.sv b
  | 1 => g.sv a + BitVec.ofNat 64 (8 * l) + g.sv b
  | 2 => g.sv a + BitVec.ofNat 64 (16 * l) + g.sv b
  | 3 => g.sv a + g.sv b * BitVec.ofNat 64 l
  | 4 => pair + g.sv b
  | 5 => pair + g.sv b
  | _ => g.sv a + g.sv b

/-- The sources of an address under a shape. -/
def Claims.addressOpds (fn : BitVec 3) (a b : Nat) (act : BitVec 64) : List Opd :=
  [if fn = 4 ∨ fn = 5 then .v a 2 act else .s a 1, .s b 1]

/-- No address register of the active lanes is poisoned. -/
def Claims.addressClean (g : Group) (fn : BitVec 3) (a b : Nat) (act : BitVec 64) : Prop :=
  (g.sel b).pois = false ∧
    if fn = 4 ∨ fn = 5 then ∀ l, l < g.width → act.getLsbD l = true → (g.vel a l).pois = false ∧ (g.vel (a + 1) l).pois = false
    else (g.sel a).pois = false

/-- No data word of the active lanes in n registers is poisoned. -/
def Claims.dataClean (g : Group) (d n : Nat) (act : BitVec 64) : Prop :=
  ∀ l, l < g.width → act.getLsbD l = true → ∀ i, i < n → (g.vel (d + i) l).pois = false

/-- The words of n registers of a lane as one number (R303, R343). -/
def Claims.words (g : Group) (d n l : Nat) : Nat :=
  ((List.range n).map fun i => (g.vel (d + i) l).val.toNat * 2 ^ (32 * i)).sum

/-- R343 to R346: VLD and VLDNF read an element for each active lane (or each that an OP 0 reissues), marking its data
registers empty, VLDNF p15 too; VST writes the low bytes of each active lane's element, of the highest active
lane's under shape 6. -/
def Claims.VectorLoadAndStore : Prop :=
  (∀ (nf : Bool) (x : Pfx) (fn : BitVec 3) (r : RRR) s g c t,
    let i : Instr := if nf then .vldnf x fn r else .vld x fn r
    Issues i c s g → let q := rrrAt r x g.repIdx
    let act := g.reissue.getD (g.active x)
    let sh := Claims.shape x fn
    Ready g x (Claims.addressOpds fn q.a.toNat q.b.toNat act ++ .v q.d.toNat sh.2.2 act :: if nf then [.p 15] else []) →
    Claims.addressClean g fn q.a.toNat q.b.toNat act →
    let o := { Claims.op g x c (if nf then .nfload else .load) sh.1 sh.2.1 with
      dstKind := .v, dst := g.vreg q.d.toNat, nreg := sh.2.2, mask := act, writesP := if nf then some 15 else none
      lanes := (lanesOf g.width act).map fun l =>
        Claims.lane l (Claims.address g fn q.a.toNat q.b.toNat sh.2.1 l) 0 0 }
    Claims.passes s g t o → ∃ h, Claims.accesses i s g h c t o ∧
      (∀ j l, (h.vblk j l) = { g.vblk j l with full := (g.vblk j l).full &&
        !(decide (g.vreg q.d.toNat ≤ j) && decide (j < g.vreg q.d.toNat + sh.2.2) && decide (l < g.width) &&
          act.getLsbD l) } ∨ 64 ≤ l) ∧
      (∀ k, h.pel k = if nf = true ∧ k = 15 then { g.pel k with full := false } else g.pel k) ∧
      h.s = g.s ∧ h.flags = g.flags) ∧
  (∀ (x : Pfx) (fn : BitVec 3) (r : RRR) s g c t, Issues (.vst x fn r) c s g →
    let q := rrrAt r x g.repIdx
    let act := g.reissue.getD (g.active x)
    let sh := Claims.shape x fn
    Ready g x (Claims.addressOpds fn q.a.toNat q.b.toNat act ++ [.v q.d.toNat sh.2.2 act]) →
    Claims.addressClean g fn q.a.toNat q.b.toNat act → Claims.dataClean g q.d.toNat sh.2.2 act →
    let ls := lanesOf g.width act
    let o := { Claims.op g x c .store sh.1 sh.2.1 with
      mask := act
      lanes := ls.map fun l => Claims.lane l (Claims.address g fn q.a.toNat q.b.toNat sh.2.1 l)
        (Claims.words g q.d.toNat sh.2.2 (if fn = 6 then ls.getLastD l else l) % 256 ^ sh.2.1) 0 }
    Claims.passes s g t o → Claims.accesses (.vst x fn r) s g g c t o)

/-- R341, R343 to R346: what loads and stores leave at issue.  Under its conditions `exec` answers a next state for:
SLD, SST, VLD, VST, VLDNF. -/
def Obligations.LoadsAndStores : Prop :=
  Claims.ScalarLoadAndStore ∧ Claims.VectorLoadAndStore

/-- R342, R340: SATOM reads its operand and, for CAS, the compare value at issue, and marks S(d) and p14 empty. -/
def Claims.ScalarAtomics : Prop :=
  ∀ (x : Pfx) (fn : BitVec 3) (r : RRR) s g c t, Issues (.satom x fn r) c s g →
    let q := rrrAt r x g.repIdx
    Ready g x [.s q.a.toNat 1, .s q.b.toNat 1, .s q.d.toNat 1, .p 14] →
    (g.sel q.a.toNat).pois = false → (g.sel q.b.toNat).pois = false → (fn = 7 → (g.sel q.d.toNat).pois = false) →
    let ty := Claims.typ x 7
    let n := if ty = 7 ∨ ty = 8 then 8 else 4
    let o := { Claims.op g x c .atomic ty n with
      aop := fn.toNat, dstKind := .s, dst := q.d.toNat, mask := 1, writesP := some 14
      lanes := [Claims.lane 0 (g.sv q.a.toNat) ((g.sv q.b.toNat).toNat % 256 ^ n) ((g.sv q.d.toNat).toNat % 256 ^ n)] }
    Claims.passes s g t o → Claims.accesses (.satom x fn r) s g ((g.emptyS q.d.toNat).emptyP 14) c t o

/-- A vector atomic (R347, R349, R350): the pair of field a and S(b) address each active lane, nsrc data words from d are
operands, ndst of them the destination, marked empty with p14; f gives each lane its operand and compare value. -/
def Claims.vectorAtomic (i : Pfx → RRR → Instr) (ty : Pfx → Nat) (aop : Nat) (nsrc ndst : Pfx → Nat)
    (f : Pfx → Group → Nat → Nat → Nat × Nat) (exc : Pfx → Group → Nat → BitVec 64 → Exc) : Prop :=
  ∀ (x : Pfx) (r : RRR) s g c t, Issues (i x r) c s g →
    let q := rrrAt r x g.repIdx
    let act := g.reissue.getD (g.active x)
    Ready g x (Claims.addressOpds 4 q.a.toNat q.b.toNat act ++
      [.v q.d.toNat (nsrc x) act, .v q.d.toNat (ndst x) act, .p 14]) →
    Claims.addressClean g 4 q.a.toNat q.b.toNat act → Claims.dataClean g q.d.toNat (nsrc x) act →
    let o := { Claims.op g x c .atomic (ty x) (if ty x = 7 ∨ ty x = 8 then 8 else 4) with
      aop := aop, dstKind := .v, dst := g.vreg q.d.toNat, nreg := ndst x, mask := act, writesP := some 14
      lanes := (lanesOf g.width act).map fun l =>
        let y := f x g q.d.toNat l
        Claims.lane l (Claims.address g 4 q.a.toNat q.b.toNat 0 l) y.1 y.2 }
    Claims.passes s g t o → ∃ h, Claims.accesses (i x r) s g h c t o ∧
      h.flags = g.flags ||| (exc x g q.d.toNat act).zeroExtend 64 ∧
      (∀ k, h.pel k = if k = 14 then { g.pel k with full := false } else g.pel k) ∧ h.s = g.s ∧
      ∀ j l, (h.vblk j l) = { g.vblk j l with full := (g.vblk j l).full &&
        !(decide (g.vreg q.d.toNat ≤ j) && decide (j < g.vreg q.d.toNat + ndst x) && decide (l < g.width) &&
          act.getLsbD l) } ∨ 64 ≤ l

/-- Whether a word is an F32 NaN (R253). -/
def Claims.isNan (w : Word) : Bool := w.extractLsb' 23 8 == 0xFF#8 && w.extractLsb' 0 23 != 0

/-- The key of SMAXPK and SMINPK (R349). -/
def Claims.key (max : Bool) (score index : Word) : Nat :=
  let hi : Word :=
    if Claims.isNan score then (if max then 0 else BitVec.allOnes 32)
    else if score.msb then ~~~score else score ^^^ 0x80000000#32
  (hi ++ (BitVec.allOnes 32 - index)).toNat

/-- R347, R349, R350: ATOM takes its operand, and CAS its compare value, from the data registers; SMAXPK and SMINPK
combine the key of a score and an index, setting NV at issue for a NaN score; HINC adds 1. -/
def Claims.VectorAtomics : Prop :=
  let nv (_ : Pfx) (g : Group) (d : Nat) (act : BitVec 64) : Exc :=
    if (lanesOf g.width act).any fun l => Claims.isNan (g.vel d l).val then Exc.nv else 0
  let e (x : Pfx) : Nat := if Claims.typ x 5 = 7 ∨ Claims.typ x 5 = 8 then 2 else 1
  (∀ fn : BitVec 3, Claims.vectorAtomic (fun x r => .atom x fn r) (fun x => Claims.typ x 5) fn.toNat
    (fun x => if fn = 7 then 2 * e x else e x) e
    (fun x g d l => (Claims.words g d (e x) l, Claims.words g (d + e x) (e x) l)) fun _ _ _ _ => 0) ∧
  (Claims.vectorAtomic .smaxpk (fun _ => 8) 2 (fun _ => 2) (fun _ => 2)
    (fun _ g d l => (Claims.key true (g.vel d l).val (g.vel (d + 1) l).val, 0)) nv) ∧
  (Claims.vectorAtomic .sminpk (fun _ => 8) 1 (fun _ => 2) (fun _ => 2)
    (fun _ g d l => (Claims.key false (g.vel d l).val (g.vel (d + 1) l).val, 0)) nv) ∧
  (Claims.vectorAtomic .hinc (fun _ => 6) 0 (fun _ => 0) (fun _ => 1) (fun _ _ _ _ => (1, 0)) fun _ _ _ _ => 0)

/-- R340, R342, R347, R349, R350: what atomics leave at issue.  Under its conditions `exec` answers a next state for:
SATOM, ATOM, SMAXPK, SMINPK, HINC. -/
def Obligations.AtomicsIssue : Prop :=
  Claims.ScalarAtomics ∧ Claims.VectorAtomics

/-- No other operation of a core awaits data of the sectors where the lanes of an operation stand, so that what arrives for
it reaches no other (R84). -/
def Claims.alone (s : State) (k : Nat) (o : MemOp) : Prop :=
  ∀ e ∈ s.memops, e.1 ≠ k → e.2.core = o.core → ∀ m ∈ e.2.lanes, ∀ q, m.at_ = .placed q →
    ∀ l ∈ o.lanes, ∀ p, l.at_ = .placed p → q / 16 ≠ p / 16

/-- R85, R191, R341: when the data of a scalar load of at most eight bytes arrives, its register is full with the element extended to 64 bits,
poisoned when its sector is; the operation is over and no byte of storage changes. -/
def Claims.ScalarLoadArrives : Prop :=
  ∀ (s : State) (k p : Nat) (o : MemOp) (l : LaneAcc) (g : Group),
    Tab.find s.memops k = some o → o.kind = .load → o.lanes = [l] → l.lane = 0 → l.at_ = .placed p → o.per = 1 →
    o.dstKind = .s → o.nreg = 1 → o.engine = none → o.writesP = none → o.bytes ≤ 8 →
    s.opReady k o = true → (∀ e ∈ s.memops, e.2.lines = []) → Claims.alone s k o → s.group o.core o.slot = some g →
    g.spec = none →
    ∃ t, exec (.loadDataArrival k (BitVec.allOnes 64) false) s = .next t ∧
      t.group o.core o.slot = some (g.writeS o.dst (extendScalar o.type (s.readLE p o.bytes)) (s.isPoisoned p o.bytes)) ∧
      Tab.find t.memops k = none ∧ t.mem = s.mem ∧
      ∀ j, j ≠ gkey o.core o.slot → Tab.find t.groups j = Tab.find s.groups j

/-- The value of a register of a lane once its element has arrived (R303, R343, R344): an element of one register extended
as its type says, of more registers word i in register i. -/
def Claims.arrivedWord (type nreg x i : Nat) : Word :=
  if nreg = 1 then (if type = 1 then (BitVec.ofNat 8 x).signExtend 32
    else if type = 3 then (BitVec.ofNat 16 x).signExtend 32 else BitVec.ofNat 32 x)
  else BitVec.ofNat 32 (x / 2 ^ (32 * i))

/-- A full lane word with its zero flag (R195). -/
def Claims.lane32 (x : Word) (pz : Bool) : VEl := ⟨x, true, pz, x == 0 && !pz⟩

/-- R35, R84, R85, R191, R303, R343, R344: when the data of a vector load of elements of at most eight bytes arrives, the
registers of each lane are full with its element, poisoned where its sector is, and of a non-faulting load the lane's bit
in p15 is 1; nothing else of the group and no byte of storage changes, and the operation is over. -/
def Claims.VectorLoadArrives : Prop :=
  ∀ (s : State) (k : Nat) (o : MemOp) (g : Group),
    Tab.find s.memops k = some o → (o.kind = .load ∧ o.writesP = none) ∨ (o.kind = .nfload ∧ o.writesP = some 15) →
    o.per = 1 → o.dstKind = .v → o.engine = none →
    (o.nreg = 1 ∧ o.bytes = typeBytes o.type ∧ o.bytes ≤ 4) ∨ (o.nreg = 2 ∧ o.bytes = 8) → o.lanes ≠ [] →
    (o.lanes.map LaneAcc.lane).Pairwise (· < ·) →
    (∀ l ∈ o.lanes, l.lane < 64 ∧ o.mask.getLsbD l.lane = true ∧ ∃ p, l.at_ = .placed p) →
    s.opReady k o = true → (∀ e ∈ s.memops, e.2.lines = []) → Claims.alone s k o → s.group o.core o.slot = some g →
    ∃ t h, exec (.loadDataArrival k (BitVec.allOnes 64) false) s = .next t ∧ t.group o.core o.slot = some h ∧
      Tab.find t.memops k = none ∧ t.mem = s.mem ∧
      (∀ l ∈ o.lanes, ∀ p, l.at_ = .placed p → ∀ i, i < o.nreg → h.vblk (o.dst + i) l.lane =
        Claims.lane32 (Claims.arrivedWord o.type o.nreg (s.readLE p o.bytes) i) (s.isPoisoned p o.bytes)) ∧
      (∀ j m, m < 64 → (∀ l ∈ o.lanes, ∀ i, i < o.nreg → ¬(m = l.lane ∧ j = o.dst + i)) → h.vblk j m = g.vblk j m) ∧
      h.s = g.s ∧ h.flags = g.flags ∧ (o.kind = .load → h.p = g.p) ∧
      (o.kind = .nfload → (h.pel 15).full = true ∧ ∀ l ∈ o.lanes, (h.pel 15).bits.getLsbD l.lane = true) ∧
      ∀ j, j ≠ gkey o.core o.slot → Tab.find t.groups j = Tab.find s.groups j

/-- R79, R83, R126, R345: when a store of elements of at most eight bytes is performed, every byte outside the places of its
lanes reads as before, and a byte that lanes write receives the value of the highest-numbered of them; the operation is over
and no group changes.  An element of 16 bytes is written whole or one 64-bit half at a time. -/
def Claims.StoreIsPerformed : Prop :=
  (∀ (s : State) (k : Nat) (o : MemOp),
    Tab.find s.memops k = some o → o.kind = .store → o.per = 1 → o.engine = none → o.writesP = none →
    o.dstKind = .none → o.bytes ≤ 8 → s.opReady k o = true → (∀ e ∈ s.memops, e.2.lines = []) →
    (o.lanes.map LaneAcc.lane).Pairwise (· < ·) → (∀ l ∈ o.lanes, l.lane < 64 ∧ ∃ p, l.at_ = .placed p) →
    ∃ t, exec (.writeThroughAcknowledgement k (BitVec.allOnes 64)) s = .next t ∧ Tab.find t.memops k = none ∧
      t.groups = s.groups ∧
      (∀ a, (∀ l ∈ o.lanes, ∀ p, l.at_ = .placed p → ¬(p ≤ a ∧ a < p + o.bytes)) → t.byte a = s.byte a) ∧
      ∀ a, ∀ l ∈ o.lanes, ∀ p, l.at_ = .placed p → p ≤ a → a < p + o.bytes →
        (∀ m ∈ o.lanes, l.lane < m.lane → ∀ q, m.at_ = .placed q → ¬(q ≤ a ∧ a < q + o.bytes)) →
        t.byte a = BitVec.ofNat 8 (l.data.toNat / 256 ^ (a - p))) ∧
  (∀ (s : State) (k p : Nat) (o : MemOp) (l : LaneAcc),
    Tab.find s.memops k = some o → o.kind = .store → o.per = 1 → o.engine = none → o.writesP = none →
    o.dstKind = .none → o.bytes = 16 → s.opReady k o = true → (∀ e ∈ s.memops, e.2.lines = []) → o.lanes = [l] →
    l.lane < 64 → l.at_ = .placed p →
    ∃ t m, exec (.writeThroughAcknowledgement k (BitVec.allOnes 64)) s = .next t ∧ (m = [0, 1] ∨ m = [0] ∨ m = [1]) ∧
      (∀ a, t.byte a = if p ≤ a ∧ a < p + 16 ∧ (a - p) / 8 ∈ m
        then BitVec.ofNat 8 (l.data.toNat / 256 ^ (a - p)) else s.byte a) ∧
      t.groups = s.groups ∧
      match m with
      | [h] => ∃ q x, Tab.find t.memops k = some q ∧ q.lanes = [x] ∧ x.at_ = .half p (1 - h) ∧ x.data = l.data
      | _ => Tab.find t.memops k = none) ∧
  (∀ (s : State) (k p h : Nat) (o : MemOp) (l : LaneAcc),
    Tab.find s.memops k = some o → o.kind = .store → o.per = 1 → o.engine = none → o.writesP = none →
    o.dstKind = .none → o.bytes = 16 → s.opReady k o = true → (∀ e ∈ s.memops, e.2.lines = []) → o.lanes = [l] →
    l.lane < 64 → l.at_ = .half p h →
    ∃ t, exec (.writeThroughAcknowledgement k (BitVec.allOnes 64)) s = .next t ∧ Tab.find t.memops k = none ∧
      t.groups = s.groups ∧
      ∀ a, t.byte a = if p + 8 * h ≤ a ∧ a < p + 8 * h + 8 then BitVec.ofNat 8 (l.data.toNat / 256 ^ (a - p)) else s.byte a)

/-- R342, R144: performing an atomic of one lane on an unpoisoned location replaces the element by what its operation
gives for the old value, which the lane's register receives with p14's bit set; the operation is over and no other byte changes. -/
def Claims.ScalarAtomicPerforms : Prop :=
  ∀ (s : State) (k p : Nat) (o : MemOp) (l : LaneAcc) (g : Group),
    Tab.find s.memops k = some o → o.kind = .atomic → o.lanes = [l] → l.lane = 0 → l.at_ = .placed p → o.per = 1 →
    o.dstKind = .s → o.nreg = 1 → o.engine = none → o.writesP = some 14 → o.type = 7 ∨ o.type = 8 → o.bytes = 8 →
    s.opReady k o = true → (∀ e ∈ s.memops, e.2.lines = []) → s.group o.core o.slot = some g → g.spec = none →
    s.isPoisoned p 8 = false → l.data.toNat < 2 ^ 64 →
    let old := BitVec.ofNat 64 (s.readLE p 8)
    let v := l.data.extractLsb' 0 64
    let new : BitVec 64 := match o.aop with
      | 0 => old + v
      | 1 => if (if o.type = 7 then v.slt old else v.ult old) then v else old
      | 2 => if (if o.type = 7 then old.slt v else old.ult v) then v else old
      | 3 => old &&& v
      | 4 => old ||| v
      | 5 => old ^^^ v
      | 6 => v
      | _ => if old = l.cmp then v else old
    ∃ t, exec (.loadDataArrival k (BitVec.allOnes 64) false) s = .next t ∧ Tab.find t.memops k = none ∧
      t.readLE p 8 = new.toNat ∧ (∀ a, a < p ∨ p + 8 ≤ a → t.byte a = s.byte a) ∧
      t.group o.core o.slot = some ((g.writeS o.dst old false).writeP 14 g.allLanes g.allLanes)

/-- What an atomic on 32-bit integers gives for the old value, its operand and the value it compares (R342, R347). -/
def Claims.combined (signed : Bool) (op : Nat) (old v c : Word) : Word :=
  let less (a b : Word) : Bool := if signed then a.slt b else a.ult b
  match op with
  | 0 => old + v
  | 1 => if less v old then v else old
  | 2 => if less old v then v else old
  | 3 => old &&& v
  | 4 => old ||| v
  | 5 => old ^^^ v
  | 6 => v
  | _ => if old = c then v else old

/-- R144, R145, R340, R347: when a vector atomic on 32-bit integers at places apart is performed, each unpoisoned place receives
what the operation gives for its old value, a poisoned one keeps it, and each lane's register receives the old value with
its poison and the lane's bit in p14 whether it was performed; no other byte, and nothing else of the group, changes. -/
def Claims.VectorAtomicPerforms : Prop :=
  ∀ (s : State) (k : Nat) (o : MemOp) (g : Group),
    Tab.find s.memops k = some o → o.kind = .atomic → o.per = 1 → o.dstKind = .v → o.nreg = 1 → o.engine = none →
    o.writesP = some 14 → o.type = 5 ∨ o.type = 6 → o.bytes = 4 → o.lanes ≠ [] →
    (o.lanes.map LaneAcc.lane).Pairwise (· < ·) → o.lanes.Pairwise (fun l m => ∀ p q, l.at_ = .placed p → m.at_ = .placed q →
      l.addr ≠ m.addr ∧ (p + 4 ≤ q ∨ q + 4 ≤ p)) →
    (∀ l ∈ o.lanes, l.lane < 64 ∧ o.mask.getLsbD l.lane = true ∧ l.data.toNat < 2 ^ 32 ∧ l.cmp.toNat < 2 ^ 32 ∧
      ∃ p, l.at_ = .placed p ∧ p % 4 = 0) →
    s.opReady k o = true → (∀ e ∈ s.memops, e.2.lines = []) → s.group o.core o.slot = some g →
    ∃ t h, exec (.loadDataArrival k (BitVec.allOnes 64) false) s = .next t ∧ t.group o.core o.slot = some h ∧
      Tab.find t.memops k = none ∧
      (∀ l ∈ o.lanes, ∀ p, l.at_ = .placed p →
        let old := BitVec.ofNat 32 (s.readLE p 4)
        let pz := s.isPoisoned p 4
        t.readLE p 4 = (if pz then old
          else Claims.combined (o.type = 5) o.aop old (l.data.extractLsb' 0 32) (l.cmp.extractLsb' 0 32)).toNat ∧
        h.vblk o.dst l.lane = Claims.lane32 old pz ∧ (h.pel 14).bits.getLsbD l.lane = !pz) ∧
      (h.pel 14).full = true ∧
      (∀ a, (∀ l ∈ o.lanes, ∀ p, l.at_ = .placed p → a < p ∨ p + 4 ≤ a) → t.byte a = s.byte a) ∧
      (∀ j m, m < 64 → (∀ l ∈ o.lanes, ¬(m = l.lane ∧ j = o.dst)) → h.vblk j m = g.vblk j m) ∧ h.s = g.s ∧ h.flags = g.flags

/-- R33, R37, R55: when the owning MTUs confirm every lane of an access, its hold ends and each lane has its place; when
the MTU of its one lane refuses it, the group is parked precisely at the instruction with the cause and the
lane, and the operation is gone. -/
def Claims.MtuConfirms : Prop :=
  (∀ (s : State) (k : Nat) (o : MemOp) (g : Group), Tab.find s.memops k = some o → o.lanes ≠ [] →
    (∀ l ∈ o.lanes, l.at_ = .unconfirmed) → (∀ e ∈ s.memops, e.2.lines = []) →
    (∀ r ∈ (s.translateLanes o).2, ∃ p, r.2 = .ok p) → s.group o.core o.slot = some g →
    ∃ t, exec (.mtuConfirmation k) s = .next t ∧
      t.group o.core o.slot = some { g with holds := g.holds.filter (· ≠ k) } ∧
      t.mem = (s.translateLanes o).1.mem ∧
      ∃ p, Tab.find t.memops k = some p ∧ ∀ l ∈ p.lanes, ∃ n, l.at_ = .placed n) ∧
  (∀ (s : State) (k cause : Nat) (o : MemOp) (g : Group) (l : LaneAcc), Tab.find s.memops k = some o → o.lanes = [l] →
    l.at_ = .unconfirmed → (∀ e ∈ s.memops, e.2.lines = []) → (s.translateLanes o).2 = [(l, .error cause)] →
    (o.kind = .load ∨ o.kind = .store ∨ o.kind = .atomic) → o.per = 1 → s.group o.core o.slot = some g →
    g.core = o.core → g.slot = o.slot →
    ∃ t h, exec (.mtuConfirmation k) s = .next t ∧ t.group o.core o.slot = some h ∧
      h.stop = some ⟨BitVec.ofNat 8 cause, .precise, 1#64 <<< l.lane, []⟩ ∧ h.pc = o.pc ∧ h.repIdx = o.repIdx ∧
      Tab.find t.memops k = none)

/-- R33, R35, R37, R55, R79, R83 to R85, R126, R144, R145, R191, R303, R340 to R345, R347: how an access is confirmed or
refused, and performed. The model's own choices in it: when the L1 copy is taken is the event's (log 9).  Under its
conditions `exec` answers a next state for: MTU_CONFIRMATION, LOAD_DATA_ARRIVAL, WRITE_THROUGH_ACKNOWLEDGEMENT. -/
def Obligations.AccessesArePerformed : Prop :=
  Claims.ScalarLoadArrives ∧ Claims.VectorLoadArrives ∧ Claims.StoreIsPerformed ∧
    Claims.ScalarAtomicPerforms ∧ Claims.VectorAtomicPerforms ∧ Claims.MtuConfirms

/-! ### Fences and windows -/

/-- R135, R139, R352: FENCE completes once every earlier access of the group but a non-temporal store is performed and
its tickets are settled, leaves the core's L1 alone where the scope's point is L1 (scope G, and T in an unpaired team)
and else empty, and changes nothing else but that no later request joins one that the core has sent (R84); NTDRAIN once
no non-temporal store is in flight and no ticket open; FWAIT once every fabric line of the group's accesses is settled.
Under its conditions `exec` answers a next state for: FENCE, NTDRAIN, FWAIT. -/
def Obligations.FencesComplete : Prop :=
  (∀ x s g c, Issues (.fence x) c s g → s.quiet g.core g.slot = true →
    ∃ u, Completes (.fence x) s u g g c none ∧ u = { s with l1 := u.l1, l1pois := u.l1pois, memops := u.memops } ∧
      (∀ k, (Tab.find u.memops k).map (fun o => { o with lines := o.lines.map fun (f : FabLine) => { f with joinable := false } }) =
        (Tab.find s.memops k).map fun o => { o with lines := o.lines.map fun (f : FabLine) => { f with joinable := false } }) ∧
      ((x.m.scope = 0 ∨ (x.m.scope = 1 ∧ ∃ t, s.team g.team = some t ∧ t.paired = false)) → u.l1 = s.l1) ∧
      (1 < x.m.scope.toNat ∨ (x.m.scope = 1 ∧ ∃ t, s.team g.team = some t ∧ t.paired = true) →
        ∀ q, q < 2 ^ 72 → Tab.find u.l1 (g.core * 2 ^ 72 + q) = none)) ∧
  (∀ x s g c, Issues (.ntdrain x) c s g → (∀ e ∈ s.accessesOf g.core g.slot, e.2.isNT = false) →
    s.ticketsOpen g.core g.slot = false → Completes (.ntdrain x) s s g g c none) ∧
  (∀ x s g c, Issues (.fwait x) c s g → (∀ e ∈ s.accessesOf g.core g.slot, ∀ f ∈ e.2.lines, f.at_ = .done) →
    Completes (.fwait x) s s g g c none)

/-- R353, R354, R36: PREFETCH changes nothing but timing; PGREQ writes no register and completes at once; lanes
whose address is not legal ask for nothing; where all its lanes lie in one package-local page that is not resident, one
record of cause 0x1D with the lanes' mask asks for it. -/
def Claims.PageRequests : Prop :=
  (∀ x r s g c, Issues (.prefetch x r) c s g → Ready g x [.s r.a.toNat 1, .s r.b.toNat 1] →
    (g.sel r.a.toNat).pois = false → (g.sel r.b.toNat).pois = false → Completes (.prefetch x r) s s g g c none) ∧
  (∀ (x : Pfx) (r : RRR) s g c, Issues (.pgreq x r) c s g →
    let q := rrrAt r x g.repIdx
    let act := g.active x
    let ls := lanesOf g.width act
    let va := Claims.address g 4 q.a.toNat q.b.toNat 0
    Ready g x (Claims.addressOpds 4 q.a.toNat q.b.toNat act) → Claims.addressClean g 4 q.a.toNat q.b.toNat act →
    (∃ u, Completes (.pgreq x r) s u g g c none ∧ u.groups = s.groups) ∧
    ((∀ l ∈ ls, addrOk (va l) = false) → Completes (.pgreq x r) s s g g c none) ∧
    ((∀ l ∈ ls, addrOk (va l) = true ∧ (va l).toNat % 4 = 0 ∧ isFabric (va l) = false) → ∀ f, ls.head? = some f → (∀ l ∈ ls, (va l).toNat / 2 ^ 16 = (va f).toNat / 2 ^ 16) →
      ∀ v, s.residency (vaDie (va f)) g.asid (vaOfs (va f)) = (v, some 0x11) →
        Completes (.pgreq x r) s
          (v.emit (vaDie (va f)) (record0 (va f) (maskOf ls) g.pc 0 0x1D g.seqNo g.asid g.core g.slot)) g g c none))

/-- R355, R160, R171: WINREQ writes 0x19 for the host's peer index and for an absent peer, 0 for a window that is already valid
for this context, and 0x19 for any other with the interface off; else, once the control plane takes a packet (R152) or another WINREQ of the
context has asked, it marks S(d) empty and waits for the window; WINREL moves a valid
window of this context to draining, and has no effect on any other. -/
def Claims.WindowRequests : Prop :=
  (∀ x r s g c, Issues (.winreq x r) c s g → Ready g x [.s r.a.toNat 1, .s r.b.toNat 1, .s r.d.toNat 1] →
    (g.sel r.a.toNat).pois = false → (g.sel r.b.toNat).pois = false → (g.sv r.a.toNat).toNat < 2 ^ 16 →
    (g.sv r.b.toNat).toNat < 2 ^ 32 →
    let p := fld (g.sv r.a.toNat) 0 10
    let w := fld (g.sv r.a.toNat) 10 6
    let absent := p = 1023 ∨ level1State (s.level1 p).2 ≠ 1
    let valid := descState (s.winDesc p w) = 1 ∧ descAsid (s.winDesc p w) = g.asid
    (absent → Completes (.winreq x r) s s g (g.writeS r.d.toNat 0x19 false) c none) ∧
    (¬absent → valid → Completes (.winreq x r) s s g (g.writeS r.d.toNat 0 false) c none) ∧
    (¬absent → ¬valid → s.efiOn = false → Completes (.winreq x r) s s g (g.writeS r.d.toNat 0x19 false) c none) ∧
    let asked := descState (s.winDesc p w) = 3 ∧ descAsid (s.winDesc p w) = g.asid
    let takes := s.planeOpen (BitVec.ofNat 6 (s.node ^^^ fld (s.level1 p).2 2 10)).toNat
    (¬absent → ¬valid → s.efiOn = true → ¬asked → takes = false → ∃ t, exec (.winreq x r) s = .next t ∧ Waits s t g) ∧
    (¬absent → ¬valid → s.efiOn = true → asked ∨ takes = true → ∃ u, Completes (.winreq x r) s u g (g.emptyS r.d.toNat) c none ∧
      ⟨g.core, g.slot, r.d.toNat, g.asid, p, w, (g.sv r.b.toNat).extractLsb' 0 32⟩ ∈ u.winWaits)) ∧
  (∀ x r s g c, Issues (.winrel x r) c s g → Ready g x [.s r.a.toNat 1] → (g.sel r.a.toNat).pois = false →
    (g.sv r.a.toNat).toNat < 2 ^ 16 →
    let p := fld (g.sv r.a.toNat) 0 10
    let w := fld (g.sv r.a.toNat) 10 6
    let d := s.winDesc p w
    Completes (.winrel x r) s
      (if descState d = 1 ∧ descAsid d = g.asid then s.setWinDesc p w (setDw d 2 (setFld (dw d 2) 45 2 2)) else s) g g c
      none)

/-- R356, R141: RLQ writes whether the byte range meets a read-locked entry (bit 0) and a write-locked one (bit 1) of the
core's table in its space and context, and the index of the lowest; an empty range gives 0. -/
def Claims.RangeLockQuery : Prop :=
  ∀ x r s g c, Issues (.rlq x r) c s g → Ready g x [.s r.a.toNat 1, .s r.b.toNat 1, .s r.d.toNat 1] →
    (g.sel r.a.toNat).pois = false → (g.sel r.b.toNat).pois = false →
    let lo := (g.sv r.a.toNat).toNat
    let n := (g.sv r.b.toNat).toNat
    let hits := (s.core g.core).locks.filter fun e => e.2.space = x.m.space.toNat && e.2.asid = g.asid &&
      decide (0 < n) && decide (lo < e.2.hi) && decide (e.2.lo < lo + n)
    let v := (if hits.any fun e => !e.2.write then 1 else 0) + (if hits.any fun e => e.2.write then 2 else 0) +
      4 * ((hits.head?.map (·.1)).getD 0)
    Completes (.rlq x r) s s g (g.writeS r.d.toNat (BitVec.ofNat 64 v) false) c none

/-- R36, R141, R152, R160, R171, R353 to R356: page and window requests and the range-lock query. The model's own
choices in it: a WINREQ that nobody can answer (log 20).  Under its conditions `exec` answers a next state for:
PREFETCH, PGREQ, WINREQ, WINREL, RLQ. -/
def Obligations.RequestsAndLocks : Prop :=
  Claims.PageRequests ∧ Claims.WindowRequests ∧ Claims.RangeLockQuery


/-! ### Vector integer and move instructions -/

/-- How R303 reads a lane element of w bits: as signed or as unsigned. -/
def Claims.int {w : Nat} (sg : Bool) (v : BitVec w) : Int := if sg then v.toInt else (v.toNat : Int)

/-- clamp_int of R255 on w bits. -/
def Claims.clampLane (w : Nat) (sg sat : Bool) (v : Int) : BitVec w × Exc :=
  let lo : Int := if sg then -(2 ^ (w - 1)) else 0
  let hi : Int := if sg then 2 ^ (w - 1) - 1 else 2 ^ w - 1
  if lo ≤ v ∧ v ≤ hi then (BitVec.ofInt w v, 0)
  else (BitVec.ofInt w (if sat then max lo (min v hi) else v), Exc.iov)

/-- The width of an integer lane element (R302, R303), and its registers. -/
def Claims.laneW (t : Nat) : Nat := if t = 7 ∨ t = 8 then 64 else 32
def Claims.laneN (t : Nat) : Nat := if t = 7 ∨ t = 8 then 2 else 1

/-- A vector integer instruction of two sources and, when readsD, the old destination (R318): it completes; each active
lane's element is f of the lane's elements in the width and signedness of the type (S32 by default), poisoned when a
source is, and FLAGS gains the exceptions of the active lanes. -/
def Claims.vecTwo (i : Pfx → RRR → Instr) (readsD : Bool)
    (f : (w : Nat) → Bool → Bool → BitVec w → BitVec w → BitVec w → BitVec w × Exc) : Prop :=
  ∀ (x : Pfx) (r : RRR) (s : State) (g : Group) (c : Code), Issues (i x r) c s g →
    let q := rrrAt r x g.repIdx
    let t := Claims.typ x 5
    let n := Claims.laneN t
    let act := g.active x
    Ready g x [.v q.a.toNat n act, .v q.b.toNat n act, .v q.d.toNat n act] →
    Completes (i x r) s s g (g.writeLanes act q.d.toNat t fun l =>
      let e (k : BitVec 9) := BitVec.ofNat (Claims.laneW t) (g.velem k.toNat l t (Claims.laneW t))
      let y := f (Claims.laneW t) (t = 1 ∨ t = 3 ∨ t = 5 ∨ t = 7) x.m.sat (e q.a) (e q.b) (e q.d)
      (y.1.toNat, y.2, g.vpois q.a.toNat n l || g.vpois q.b.toNat n l || (readsD && g.vpois q.d.toNat n l))) c none

/-- The same for one source. -/
def Claims.vecOne (i : Pfx → RRR → Instr) (f : (w : Nat) → Bool → Bool → BitVec w → BitVec w × Exc) : Prop :=
  ∀ (x : Pfx) (r : RRR) (s : State) (g : Group) (c : Code), Issues (i x r) c s g →
    let q := rrrAt r x g.repIdx
    let t := Claims.typ x 5
    let n := Claims.laneN t
    let act := g.active x
    Ready g x [.v q.a.toNat n act, .v q.d.toNat n act] →
    Completes (i x r) s s g (g.writeLanes act q.d.toNat t fun l =>
      let y := f (Claims.laneW t) (t = 1 ∨ t = 3 ∨ t = 5 ∨ t = 7) x.m.sat
        (BitVec.ofNat (Claims.laneW t) (g.velem q.a.toNat l t (Claims.laneW t)))
      (y.1.toNat, y.2, g.vpois q.a.toNat n l)) c none

/-- R318: sums, differences, products, negation and absolute value are exact under clamp_int; VMULH is the high half, VABSD
the unsigned distance, VMIN and VMAX go by the type. -/
def Claims.VectorArithmetic : Prop :=
  let I {w : Nat} (sg : Bool) (v : BitVec w) : Int := Claims.int sg v
  (Claims.vecTwo .vadd false fun w sg sat a b _ => Claims.clampLane w sg sat (I sg a + I sg b)) ∧
  (Claims.vecTwo .vsub false fun w sg sat a b _ => Claims.clampLane w sg sat (I sg a - I sg b)) ∧
  (Claims.vecTwo .vmul false fun w sg sat a b _ => Claims.clampLane w sg sat (I sg a * I sg b)) ∧
  (Claims.vecTwo .vmulh false fun w sg _ a b _ =>
    ((if sg then a.signExtend (2 * w) * b.signExtend (2 * w)
      else a.zeroExtend (2 * w) * b.zeroExtend (2 * w)).extractLsb' w w, 0)) ∧
  (Claims.vecTwo .vmad true fun w sg sat a b d => Claims.clampLane w sg sat (I sg a * I sg b + I sg d)) ∧
  (Claims.vecTwo .vmin false fun _ sg _ a b _ => (if I sg b < I sg a then b else a, 0)) ∧
  (Claims.vecTwo .vmax false fun _ sg _ a b _ => (if I sg a < I sg b then b else a, 0)) ∧
  (Claims.vecTwo .vabsd false fun w sg _ a b _ => (BitVec.ofNat w (I sg a - I sg b).natAbs, 0)) ∧
  (Claims.vecOne .vneg fun w sg sat a => Claims.clampLane w sg sat (-(I sg a))) ∧
  (Claims.vecOne .vabs fun w sg sat a => Claims.clampLane w sg sat ((I sg a).natAbs : Int))

/-- R318, R320, R315: the bitwise forms, shifts by the amount modulo the width (VSRA of the value that TYPE reads, so that zeros
come in for an unsigned type: the model's reading of R318, log 25),
counts, moves, VSEL bit by bit and the bit-field forms. -/
def Claims.VectorBitwise : Prop :=
  (Claims.vecTwo .vand false fun _ _ _ a b _ => (a &&& b, 0)) ∧
  (Claims.vecTwo .vor false fun _ _ _ a b _ => (a ||| b, 0)) ∧
  (Claims.vecTwo .vxor false fun _ _ _ a b _ => (a ^^^ b, 0)) ∧
  (Claims.vecTwo .vandn false fun _ _ _ a b _ => (a &&& ~~~b, 0)) ∧
  (Claims.vecTwo .vshl false fun w _ _ a b _ => (a <<< (b.toNat % w), 0)) ∧
  (Claims.vecTwo .vshr false fun w _ _ a b _ => (a >>> (b.toNat % w), 0)) ∧
  (Claims.vecTwo .vsra false fun w sg _ a b _ =>
    (if sg then a.sshiftRight (b.toNat % w) else a >>> (b.toNat % w), 0)) ∧
  (Claims.vecTwo .vrot false fun w _ _ a b _ => (a.rotateRight (b.toNat % w), 0)) ∧
  (Claims.vecOne .vclz fun w _ _ a => (BitVec.ofNat w (if a = 0 then w else w - 1 - a.toNat.log2), 0)) ∧
  (Claims.vecOne .vpopc fun w _ _ a => (BitVec.ofNat w ((List.range w).countP fun i => a.getLsbD i), 0)) ∧
  (Claims.vecOne .vbrev fun _ _ _ a => (a.reverse, 0)) ∧
  (Claims.vecOne .vnot fun _ _ _ a => (~~~a, 0)) ∧
  (Claims.vecOne .vmov fun _ _ _ a => (a, 0)) ∧
  (Claims.vecTwo .vsel true fun _ _ _ a b d => ((a &&& d) ||| (b &&& ~~~d), 0)) ∧
  (Claims.vecTwo .vbfx false fun w sg _ a b _ =>
    let pos := (b.extractLsb' 0 6).toNat
    let len := min (b.extractLsb' 8 7).toNat w
    let m := BitVec.ofNat w (2 ^ len - 1)
    let field := (a >>> pos) &&& m
    (if sg && decide (0 < len) && field.getLsbD (len - 1) then field ||| ~~~m else field, 0)) ∧
  (Claims.vecTwo .vbfi true fun w _ _ a b d =>
    let pos := (b.extractLsb' 0 6).toNat
    let m := BitVec.ofNat w (2 ^ min (b.extractLsb' 8 7).toNat w - 1) <<< pos
    ((d &&& ~~~m) ||| ((a <<< pos) &&& m), 0))

/-- R320, R321: VBCAST puts the low bits of a scalar, with its poison, into every active lane; VEXTR and VINS move the
element of lane S(b) mod W, extended by its type, a poisoned index poisoning what they write; VIOTA gives each active
lane its rank among the lanes of its tile whose bit of p(a) is set, VLANE its index. -/
def Claims.VectorMoves : Prop :=
  (∀ (x : Pfx) (r : RRR) s g c, Issues (.vbcast x r) c s g →
    let q := rrrAt r x g.repIdx
    let t := Claims.typ x 5
    let act := g.active x
    Ready g x [.s q.a.toNat 1, .v q.d.toNat (Claims.laneN t) act] →
    Completes (.vbcast x r) s s g (g.writeLanes act q.d.toNat t fun _ =>
      ((g.sv q.a.toNat).toNat % 2 ^ Claims.laneW t, 0, (g.sel q.a.toNat).pois)) c none) ∧
  (∀ (x : Pfx) (r : RRR) s g c, Issues (.vextr x r) c s g →
    let q := rrrAt r x g.repIdx
    let t := Claims.typ x 5
    let n := Claims.laneN t
    let k := (g.sv q.b.toNat).toNat % g.width
    Ready g x [.s q.b.toNat 1, .v q.a.toNat n (1#64 <<< k), .s q.d.toNat 1] →
    let v := g.velem q.a.toNat k t (Claims.laneW t)
    Completes (.vextr x r) s s g (g.writeS q.d.toNat
      (if t = 5 then (BitVec.ofNat 32 v).signExtend 64 else BitVec.ofNat 64 v)
      (g.vpois q.a.toNat n k || (g.sel q.b.toNat).pois)) c none) ∧
  (∀ (x : Pfx) (r : RRR) s g c, Issues (.vins x r) c s g →
    let q := rrrAt r x g.repIdx
    let t := Claims.typ x 5
    let k := (g.sv q.b.toNat).toNat % g.width
    Ready g x [.s q.a.toNat 1, .s q.b.toNat 1, .v q.d.toNat (Claims.laneN t) (1#64 <<< k)] →
    Completes (.vins x r) s s g (g.writeElem q.d.toNat k t ((g.sv q.a.toNat).toNat % 2 ^ Claims.laneW t)
      ((g.sel q.a.toNat).pois || (g.sel q.b.toNat).pois)) c none) ∧
  (∀ (x : Pfx) (r : RRR) s g c, Issues (.viota x r) c s g →
    let q := rrrAt r x g.repIdx
    let act := g.active x
    Ready g x [.p q.a.toNat, .v q.d.toNat 1 act] →
    Completes (.viota x r) s s g (g.writeLanes act q.d.toNat 6 fun l =>
      ((List.range l).countP fun j => decide (j < g.width) && act.getLsbD j && (g.pel q.a.toNat).bits.getLsbD j &&
        decide (j / g.tileSize = l / g.tileSize), 0, false)) c none) ∧
  (∀ (x : Pfx) (r : RRR) s g c, Issues (.vlane x r) c s g →
    let q := rrrAt r x g.repIdx
    Ready g x [.v q.d.toNat 1 (g.active x)] →
    Completes (.vlane x r) s s g (g.writeLanes (g.active x) q.d.toNat 6 fun l => (l, 0, false)) c none)

/-- R315, R318, R320, R321: vector integer arithmetic, bitwise forms and moves. The model's own choices in it: VSRA
shifts zeros into an unsigned element (log 25).  Under its conditions `exec` answers a next state for: VADD, VSUB, VMUL,
VMULH, VMAD, VMIN, VMAX, VABSD, VAND, VOR, VXOR, VANDN, VSHL, VSHR, VSRA, VROT, VCLZ, VPOPC, VBREV, VNEG, VABS, VNOT,
VBFX, VBFI, VMOV, VSEL, VBCAST, VEXTR, VINS, VIOTA, VLANE. -/
def Obligations.VectorIntegers : Prop :=
  Claims.VectorArithmetic ∧ Claims.VectorBitwise ∧ Claims.VectorMoves

/-- The outcome of a compare of lanes (R236, R319, R325, R334): where no active lane's sources are poisoned it completes
with the bit `bit l` in each active lane of p(d), the other lanes of p(d) unchanged and the exceptions in FLAGS; where
one is, the group is parked with a poison use, DETAIL 4 and those lanes. -/
def Claims.compares (i : Instr) (s : State) (g : Group) (c : Code) (act : BitVec 64) (d : Nat) (pois : Nat → Bool)
    (bit : Nat → Bool) (exc : Exc) : Prop :=
  ((∀ l, l < g.width → act.getLsbD l = true → pois l = false) →
    ∃ bits : BitVec 64, Completes i s s g ((g.writeP d act bits).raise exc) c none ∧
      ∀ l, l < g.width → act.getLsbD l = true → bits.getLsbD l = bit l) ∧
  ((∃ l, l < g.width ∧ act.getLsbD l = true ∧ pois l = true) →
    ∃ (t : State) (m : BitVec 64), exec i s = .next t ∧ Stops s t g (dieOf g.core) 0x05 (4#32 ++ c.word) m 0 ∧
      ∀ l, l < 64 → m.getLsbD l = (decide (l < g.width) && act.getLsbD l && pois l))

/-- R319, R325, R334: VCMP, VFCMP and VMATCH write a predicate bit for each active lane: an integer condition by type, a
floating one with its exceptions, and whether the lane is the first active holder of its value in its tile. -/
def Claims.VectorCompares : Prop :=
  (∀ (x : Pfx) (fn : BitVec 3) (r : RRR) s g c, Issues (.vcmp x fn r) c s g → fn ≠ 7 →
    let q := rrrAt r x g.repIdx
    let t := Claims.typ x 5
    let n := Claims.laneN t
    let act := g.active x
    Ready g x [.v q.a.toNat n act, .v q.b.toNat n act, .p q.d.toNat] →
    Claims.compares (.vcmp x fn r) s g c act q.d.toNat
      (fun l => g.vpois q.a.toNat n l || g.vpois q.b.toNat n l)
      (fun l =>
        let a := BitVec.ofNat (Claims.laneW t) (g.velem q.a.toNat l t (Claims.laneW t))
        let b := BitVec.ofNat (Claims.laneW t) (g.velem q.b.toNat l t (Claims.laneW t))
        let sg := decide (t = 1 ∨ t = 3 ∨ t = 5 ∨ t = 7)
        match fn.toNat with
        | 0 => a == b
        | 1 => a != b
        | 2 => decide (Claims.int sg a < Claims.int sg b)
        | 3 => decide (Claims.int sg a ≤ Claims.int sg b)
        | 4 => decide (Claims.int sg b < Claims.int sg a)
        | 5 => decide (Claims.int sg b ≤ Claims.int sg a)
        | _ => a &&& b != 0) 0) ∧
  (∀ (x : Pfx) (fn : BitVec 3) (r : RRR) s g c, Issues (.vfcmp x fn r) c s g →
    let q := rrrAt r x g.repIdx
    let f := fmtOf (Claims.typ x 11)
    let act := g.active x
    Ready g x [.v q.a.toNat 1 act, .v q.b.toNat 1 act, .p q.d.toNat] →
    let res (l : Nat) := vfcmpCond fn.toNat (g.flval f q.a.toNat l) (g.flval f q.b.toNat l)
    Claims.compares (.vfcmp x fn r) s g c act q.d.toNat (fun l => g.vpois q.a.toNat 1 l || g.vpois q.b.toNat 1 l)
      (fun l => (res l).1) ((lanesOf g.width act).foldl (fun e l => e ||| (res l).2) 0)) ∧
  (∀ (x : Pfx) (r : RRR) s g c, Issues (.vmatch x r) c s g →
    let q := rrrAt r x g.repIdx
    let t := Claims.typ x 5
    let n := Claims.laneN t
    let act := g.active x
    Ready g x [.v q.a.toNat n act, .p q.d.toNat] →
    let v (l : Nat) := g.velem q.a.toNat l t (Claims.laneW t)
    Claims.compares (.vmatch x r) s g c act q.d.toNat (g.vpois q.a.toNat n)
      (fun l => (List.range l).all fun j =>
        !(decide (j < g.width) && act.getLsbD j && decide (j / g.tileSize = l / g.tileSize) && v j == v l)) 0) ∧
  (∀ (w : Word) (ws : List Word), w.extractLsb' 26 6 = 0x20#6 → w.extractLsb' 2 3 = 7#3 → w.extractLsb' 23 3 ≠ 0#3 →
    decode (w :: ws) = .illegal 0)

/-! ### Vector floating point, special functions and conversions -/

/-- A floating instruction of two sources and, when readsD, the old destination (R322, R323): it completes, each active
lane's element being op of the lane's values flushed under FTZ, rounded in the mode in force. -/
def Claims.fltTwo (i : Pfx → RRR → Instr) (readsD : Bool) (op : Fmt → Rnd → Fl → Fl → Fl → Nat × Exc) : Prop :=
  ∀ (x : Pfx) (r : RRR) (s : State) (g : Group) (c : Code), Issues (i x r) c s g →
    let q := rrrAt r x g.repIdx
    let t := Claims.typ x 11
    let f := fmtOf t
    let act := g.active x
    Ready g x [.v q.a.toNat 1 act, .v q.b.toNat 1 act, .v q.d.toNat 1 act] →
    Completes (i x r) s s g (g.writeRounded x act q.d.toNat t fun rd l =>
      let y := op f rd (g.flval f q.a.toNat l) (g.flval f q.b.toNat l) (g.flval f q.d.toNat l)
      (y.1, y.2, (g.vel q.a.toNat l).pois || (g.vel q.b.toNat l).pois || (readsD && (g.vel q.d.toNat l).pois))) c none

/-- R322, R323: sums, differences, products and fused forms rounded once, minimum, maximum and absolute difference. -/
def Claims.FloatTwoSources : Prop :=
  (Claims.fltTwo .vfadd false fun f rd a b _ => f.add rd a b) ∧
  (Claims.fltTwo .vfsub false fun f rd a b _ => f.add rd a b.neg) ∧
  (Claims.fltTwo .vfmul false fun f rd a b _ => f.mul rd a b) ∧
  (Claims.fltTwo .vfma true fun f rd a b d => f.fma rd a b d) ∧
  (Claims.fltTwo .vfms true fun f rd a b d => f.fma rd a.neg b d) ∧
  (Claims.fltTwo .vfmin false fun f rd a b _ => f.minMax false rd a b) ∧
  (Claims.fltTwo .vfmax false fun f rd a b _ => f.minMax true rd a b) ∧
  (Claims.fltTwo .vfabsd false fun f rd a b _ => f.absDiff rd a b) ∧
  (∀ (x : Pfx) (r : RRR) s g c, Issues (.vfcpys x r) c s g →
    let q := rrrAt r x g.repIdx
    let t := Claims.typ x 11
    let f := fmtOf t
    let act := g.active x
    Ready g x [.v q.a.toNat 1 act, .v q.b.toNat 1 act, .v q.d.toNat 1 act] →
    Completes (.vfcpys x r) s s g (g.writeRounded x act q.d.toNat t fun _ l =>
      let w := f.flushIn g.ftz ((g.vel q.a.toNat l).val.toNat % 2 ^ f.bits)
      let y : Nat × Exc := match f.decode w with
        | .nan sig => (f.qnan, if sig then Exc.nv else 0)
        | _ => (f.signed (f.signBit (g.vel q.b.toNat l).val.toNat) (f.mag w), 0)
      (y.1, y.2, (g.vel q.a.toNat l).pois || (g.vel q.b.toNat l).pois)) c none)

/-- A floating instruction of one source, which a NaN operand turns into the canonical NaN (R324): it completes with op of
the flushed operand's encoding and value. -/
def Claims.fltOne (i : Pfx → RRR → Instr) (op : Fmt → Rnd → Nat → Fl → Nat × Exc) : Prop :=
  ∀ (x : Pfx) (r : RRR) (s : State) (g : Group) (c : Code), Issues (i x r) c s g →
    let q := rrrAt r x g.repIdx
    let t := Claims.typ x 11
    let f := fmtOf t
    let act := g.active x
    Ready g x [.v q.a.toNat 1 act, .v q.d.toNat 1 act] →
    Completes (i x r) s s g (g.writeRounded x act q.d.toNat t fun rd l =>
      let w := f.flushIn g.ftz ((g.vel q.a.toNat l).val.toNat % 2 ^ f.bits)
      let y : Nat × Exc := match f.decode w with
        | .nan sig => (f.qnan, if sig then Exc.nv else 0)
        | v => op f rd w v
      (y.1, y.2, (g.vel q.a.toNat l).pois)) c none

/-- R324: negation and absolute value of the sign bit, the integral forms (VFFLOOR and VFCEIL in their own direction and
never NX, VFRINT in the mode with NX when it differs), the fraction, and VFCLASS's one bit of ten. -/
def Claims.FloatOneSource : Prop :=
  (Claims.fltOne .vfneg fun f _ w _ => (f.signed (!f.signBit w) (f.mag w), 0)) ∧
  (Claims.fltOne .vfabs fun f _ w _ => (f.mag w, 0)) ∧
  (Claims.fltOne .vffloor fun f rd _ v => ((f.integral { rd with mode := 2 } v).1, 0)) ∧
  (Claims.fltOne .vfceil fun f rd _ v => ((f.integral { rd with mode := 3 } v).1, 0)) ∧
  (Claims.fltOne .vfrint fun f rd _ v => ((f.integral rd v).1, if (f.integral rd v).2 then Exc.nx else 0)) ∧
  (Claims.fltOne .vffrac fun f rd _ v => match v with
    | .fin n m e => f.add rd v (.fin (!n) (roundWhole { rd with mode := 2 } n m e).1 0)
    | _ => (f.qnan, Exc.nv)) ∧
  (∀ (x : Pfx) (r : RRR) s g c, Issues (.vfclass x r) c s g →
    let q := rrrAt r x g.repIdx
    let f := fmtOf (Claims.typ x 11)
    let act := g.active x
    Ready g x [.v q.a.toNat 1 act, .v q.d.toNat 1 act] →
    Completes (.vfclass x r) s s g (g.writeLanes act q.d.toNat 6 fun l =>
      let w := f.flushIn g.ftz ((g.vel q.a.toNat l).val.toNat % 2 ^ f.bits)
      let k := match f.decode w with
        | .nan sig => if sig then 8 else 9
        | .inf neg => if neg then 0 else 7
        | .fin neg m _ =>
          if m = 0 then (if neg then 3 else 4)
          else if f.mag w < 2 ^ f.mb then (if neg then 2 else 5)
          else if neg then 1 else 6
      (2 ^ k, 0, (g.vel q.a.toNat l).pois)) c none)

/-- R322 to R324: floating-point instructions of two sources and of one. The model's own choices in it: the sign of
VFFRAC's exact zero (log 14).  Under its conditions `exec` answers a next state for: VFADD, VFSUB, VFMUL, VFMA, VFMS,
VFMIN, VFMAX, VFABSD, VFNEG, VFABS, VFCLASS, VFCPYS, VFFLOOR, VFCEIL, VFRINT, VFFRAC. -/
def Obligations.VectorFloats : Prop :=
  Claims.FloatTwoSources ∧ Claims.FloatOneSource

/-- The group before its k-th draw of a rounding stream (R262): under code 5 each earlier result element took one. -/
def Claims.drawn (g : Group) (x : Pfx) : Nat → Group
  | 0 => g
  | k + 1 => ((Claims.drawn g x k).takeDraw x).2

/-- A special function (R192, R234, R326): issued, exec answers a next state in which it has retired, the active lanes'
words of v(d) empty, and its results wait in the unit: for each active lane in order the value op gives for the flushed
operands, poisoned with them or by an invalid operation under TRAPEN.NV.  The results' own step on that state then answers
a next state in which each of those words is full with its value and FLAGS has gained the exceptions.  With no active lane
it retires at once and nothing waits. -/
def Claims.special (i : Pfx → RRR → Instr) (two : Bool) (op : Nat → Fmt → Rnd → Nat → Nat → Nat × Exc) : Prop :=
  ∀ (x : Pfx) (r : RRR) (s : State) (g : Group) (c : Code), Issues (i x r) c s g →
    let q := rrrAt r x g.repIdx
    let t := Claims.typ x 11
    let f := fmtOf t
    let act := g.active x
    let ls := lanesOf g.width act
    Ready g x ([.v q.a.toNat 1 act] ++ (if two then [.v q.b.toNat 1 act] else []) ++ [.v q.d.toNat 1 act]) →
    let enc (k : BitVec 9) (l : Nat) : Nat := f.flushIn g.ftz ((g.vel k.toNat l).val.toNat % 2 ^ f.bits)
    let y (k l : Nat) := op t f (g.rnd x ((Claims.drawn g x k).takeDraw x).1) (enc q.a l) (enc q.b l)
    (act = 0 → Completes (i x r) s s g g c none) ∧
    let word (k l : Nat) : Word := BitVec.ofNat 32 (y k l).1
    let pois (k l : Nat) : Bool :=
      (g.vel q.a.toNat l).pois || (two && (g.vel q.b.toNat l).pois) || (g.trapen.getLsbD 0 && (y k l).2.getLsbD 0)
    (act ≠ 0 → ∃ (t u : State) (h : Group) (res : List (Nat × Word × Bool)) (exc : Exc),
      exec (i x r) s = .next t ∧
      Retires { s with
          nextId := s.nextId + 1
          sfuops := Tab.put s.sfuops s.nextId ⟨g.core, g.slot, g.vreg q.d.toNat, res, exc⟩ } t g
        (ls.foldl (fun h l => h.emptyV (g.vreg q.d.toNat) l) { g with rstream := (Claims.drawn g x ls.length).rstream }) c
        none ∧
      res.length = ls.length ∧ (∀ k l, ls[k]? = some l → res[k]? = some (l, word k l, pois k l)) ∧
      (∀ b, exc.getLsbD b = true ↔ ∃ k l, ls[k]? = some l ∧ (y k l).2.getLsbD b = true) ∧
      exec (.sfuResult s.nextId) t = .next u ∧ u.group g.core g.slot = some h ∧
      h.flags = g.flags ||| exc.zeroExtend 64 ∧
      ∀ k l, ls[k]? = some l →
        h.vblk (g.vreg q.d.toNat) l = ⟨word k l, true, pois k l, decide (word k l = 0) && !pois k l⟩)

/-- R326, R327: each special function issues to the unit and fills its lanes with the result of its own rule, `sfuOne` with
the function's number or, of VFDIV, the rounded quotient. -/
def Claims.SpecialFunctionsIssue : Prop :=
  (Claims.special .vrcp false fun t f rd a _ => sfuOne 0 t f rd a) ∧
  (Claims.special .vrsq false fun t f rd a _ => sfuOne 1 t f rd a) ∧
  (Claims.special .vsqrt false fun t f rd a _ => sfuOne 2 t f rd a) ∧
  (Claims.special .vexp2 false fun t f rd a _ => sfuOne 3 t f rd a) ∧
  (Claims.special .vlog2 false fun t f rd a _ => sfuOne 4 t f rd a) ∧
  (Claims.special .vsin false fun t f rd a _ => sfuOne 5 t f rd a) ∧
  (Claims.special .vcos false fun t f rd a _ => sfuOne 6 t f rd a) ∧
  (Claims.special .vtanh false fun t f rd a _ => sfuOne 7 t f rd a) ∧
  (Claims.special .vsigm false fun t f rd a _ => sfuOne 9 t f rd a) ∧
  (Claims.special .verf false fun t f rd a _ => sfuOne 10 t f rd a) ∧
  (Claims.special .vlog1p false fun t f rd a _ => sfuOne 11 t f rd a) ∧
  (Claims.special .vfdiv true fun _ f rd a b => f.div rd (f.decode a) (f.decode b))

/-- R264, R327: the results of special inputs: a NaN gives the canonical NaN, with NV where it is signalling; infinities,
zeros, one and, where the function has no value, negative numbers give what R327 lists.  A negative number is one whose
encoding has the sign bit set and is neither zero nor NaN. -/
def Claims.SpecialInputs : Prop :=
  ∀ (f : Fmt) (t : Nat) (rd : Rnd) (n : Bool), f ∈ [Fmt.f32, .f16, .bf16] →
    let zero (n : Bool) : Nat := f.signed n 0
    let one (n : Bool) : Nat := f.signed n (f.bias * 2 ^ f.mb)
    let r (fn w : Nat) : Nat × Exc := sfuOne fn t f rd w
    (∀ fn w sig, f.decode w = .nan sig → r fn w = (f.qnan, if sig then Exc.nv else 0)) ∧
    (∀ fn ∈ [1, 2, 4], ∀ w, f.signBit w = true → w < 2 ^ f.bits → w ≠ zero true → (∀ sig, f.decode w ≠ .nan sig) →
      r fn w = (f.qnan, Exc.nv)) ∧
    r 0 (zero n) = (f.infinity n, Exc.dz) ∧ r 0 (f.infinity n) = (zero n, 0) ∧
    r 1 (zero n) = (f.infinity n, Exc.dz) ∧ r 1 (f.infinity false) = (zero false, 0) ∧
    r 2 (zero true) = (zero true, 0) ∧ r 2 (f.infinity false) = (f.infinity false, 0) ∧
    r 3 (f.infinity true) = (zero false, 0) ∧ r 3 (f.infinity false) = (f.infinity false, 0) ∧
    r 4 (zero n) = (f.infinity true, Exc.dz) ∧ r 4 (f.infinity false) = (f.infinity false, 0) ∧
    r 4 (one false) = (zero false, 0) ∧
    r 5 (f.infinity n) = (f.qnan, 0) ∧ r 6 (f.infinity n) = (f.qnan, 0) ∧ (∀ fn ∈ [5, 7, 10], r fn (zero n) = (zero n, 0)) ∧
    (∀ fn ∈ [7, 10], r fn (f.infinity n) = (one n, 0)) ∧
    r 9 (f.infinity true) = (zero false, 0) ∧ r 9 (f.infinity false) = (one false, 0) ∧
    r 11 (one true) = (f.infinity true, 0) ∧ r 11 (f.infinity true) = (f.qnan, Exc.nv) ∧
    r 11 (f.infinity false) = (f.infinity false, 0) ∧ r 11 (zero n) = (zero n, 0) ∧
    (∀ m : Bool, f.div rd (f.decode (zero n)) (f.decode (zero m)) = (f.qnan, Exc.nv) ∧
      f.div rd (f.decode (f.infinity n)) (f.decode (f.infinity m)) = (f.qnan, Exc.nv) ∧
      ∀ w, f.decode w ≠ .inf false → f.decode w ≠ .inf true → (∀ sig, f.decode w ≠ .nan sig) → (∀ e k, f.decode w ≠ .fin k 0 e) →
        f.div rd (f.decode w) (f.decode (zero m)) = (f.infinity (f.signBit w != m), Exc.dz))

/-- R192, R195, R234, R326: when the unit's results are ready each fills its lane word, the exceptions set FLAGS, and the
operation is over; every other word of the block keeps what it held, and each zero written counts as a suppressed write. -/
def Claims.SpecialResultFills : Prop :=
  ∀ (s : State) (k : Nat) (o : SfuOp) (g : Group), Tab.find s.sfuops k = some o → s.group o.core o.slot = some g →
    (o.res.map (·.1)).Nodup →
    ∃ h, exec (.sfuResult k) s = .next (State.setGroup { s with sfuops := Tab.drop s.sfuops k } h) ∧
      h = { g with
        v := h.v, flags := g.flags ||| o.exc.zeroExtend 64, waiting := false
        zeroWrites := g.zeroWrites + o.res.countP fun e => decide (e.2.1 = 0) && !e.2.2 } ∧
      (∀ e ∈ o.res, h.vblk o.dst e.1 = ⟨e.2.1, true, e.2.2, decide (e.2.1 = 0) && !e.2.2⟩ ∨ 64 ≤ e.1) ∧
      ∀ j l, l < 64 → (j ≠ o.dst ∨ ∀ e ∈ o.res, e.1 ≠ l) → (∀ e ∈ o.res, e.1 < 64) → h.vblk j l = g.vblk j l

/-- R192, R195, R234, R264, R326, R327: the twelve special functions run: issued they retire, their results fill the
lanes, and special inputs give the results of R327. The model's own choices in it: the choice within R267's bound (log
8).  Under its conditions `exec` answers a next state for: VRCP, VRSQ, VSQRT, VEXP2, VLOG2, VSIN, VCOS, VTANH, VFDIV,
VSIGM, VERF, VLOG1P, SFU_RESULT. -/
def Obligations.SpecialFunctions : Prop :=
  Claims.SpecialFunctionsIssue ∧ Claims.SpecialInputs ∧ Claims.SpecialResultFills

/-- The elements that a packing instruction gathers in a lane (R262, R329), from register numbers in element order: the
packed value, the exceptions and the group after its draws. -/
def Claims.pack (g h : Group) (x : Pfx) (t bits l : Nat) : List Nat → Nat × Exc × Group
  | [] => (0, 0, h)
  | k :: ks =>
    let y := vcvtElem (g.rnd x (h.takeDraw x).1) (if t ≤ 4 then 5 else 11) t (g.vel k l).val.toNat
    let z := Claims.pack g (h.takeDraw x).2 x t bits l ks
    (y.1 % 2 ^ bits + 2 ^ bits * z.1, y.2 ||| z.2.1, z.2.2)

/-- R328, R329: VCVT converts each active lane from the type of field b to that of TYPE; VPACK2 and VPACK4 convert n
registers from a and n from b, lowest first, into one word of d. -/
def Claims.ConversionsAndPacking : Prop :=
  let packs (i : Pfx → RRR → Instr) (dflt n bits : Nat) : Prop :=
    ∀ (x : Pfx) (r : RRR) (s : State) (g : Group) (c : Code), Issues (i x r) c s g →
      let q := rrrAt r x g.repIdx
      let act := g.active x
      let a := q.a.toNat
      let b := q.b.toNat
      Ready g x [.v a n act, .v b n act, .v q.d.toNat 1 act] →
      Completes (i x r) s s g ((lanesOf g.width act).foldl (fun h l =>
        let y := Claims.pack g h x (Claims.typ x dflt) bits l
          ((List.range n).map (a + ·) ++ (List.range n).map (b + ·))
        (y.2.2.writeV q.d.toNat l (BitVec.ofNat 32 y.1)
          (g.vpois a n l || g.vpois b n l || (g.trapen.getLsbD 0 && y.2.1.getLsbD 0))).raise y.2.1) g) c none
  (∀ (x : Pfx) (r : RRR) s g c, Issues (.vcvt x r) c s g →
    let q := rrrAt r x g.repIdx
    let dst := Claims.typ x 11
    let src := r.b.toNat
    let act := g.active x
    Ready g x [.v q.a.toNat (Claims.laneN src) act, .v q.d.toNat (Claims.laneN dst) act] →
    Completes (.vcvt x r) s s g (g.writeRounded x act q.d.toNat dst fun rd l =>
      let y := vcvtElem rd src dst (if src = 7 ∨ src = 8 then (g.v64 q.a.toNat l).toNat else (g.vel q.a.toNat l).val.toNat)
      (y.1, y.2, g.vpois q.a.toNat (Claims.laneN src) l)) c none) ∧
  packs .vpack2 10 1 16 ∧ packs .vpack4 12 2 8

/-- What VQSCL gives lane l of a group h that has written the lanes below it (R271, R331): the element's value, the scale byte,
the poison and the exceptions, and the group after the lane's draw.  The block is the active lanes of l's 32. -/
def Claims.scaled (g h : Group) (x : Pfx) (a l : Nat) : Word × Word × Bool × Exc × Group :=
  let t := Claims.typ x 12
  let blk := (lanesOf g.width (g.active x)).filter fun j => j / 32 = l / 32
  let sc := mxScale t (blk.map fun j => g.flval .f32 a j)
  let dr := h.takeDraw x
  let y : Nat × Exc := if sc.2 then (0, Exc.nv) else mxElem t x.m.round.toNat dr.1 sc.1 (g.flval .f32 a l)
  (if sc.2 then 0 else BitVec.ofNat 32 (convert ⟨0, 0, false, false⟩ ((Ty.ofCode t).getD .mxi8) (.flt .f32) y.1).1,
    if sc.2 then 0xFF else BitVec.ofInt 32 (sc.1 + 127),
    blk.any (fun j => (g.vel a j).pois) || (g.trapen.getLsbD 0 && y.2.getLsbD 0), y.2, dr.2)

/-- R234, R271, R330, R331: the unpacking forms convert elements of a word of a, exactly, to consecutive registers from d; VQSCL
gives each active lane of a block of 32 its scaled element in v(d), decoded as F32, and the block's scale byte in v(d+1),
both with the block's poison, and sets the exceptions; nothing else of the group changes but the draws of code 5. -/
def Claims.UnpackingAndScaling : Prop :=
  let unpacks (i : Pfx → RRR → Instr) (dflt n bits lo : Nat) : Prop :=
    ∀ (x : Pfx) (r : RRR) (s : State) (g : Group) (c : Code), Issues (i x r) c s g →
      let q := rrrAt r x g.repIdx
      let t := Claims.typ x dflt
      let act := g.active x
      Ready g x [.v q.a.toNat 1 act, .v q.d.toNat n act] →
      Completes (i x r) s s g ((lanesOf g.width act).foldl (fun h l => (List.range n).foldl (fun h k =>
        let y := vcvtElem ⟨0, 0, false, g.ftz⟩ t (if t ≤ 4 then 5 else 11)
          (((g.vel q.a.toNat l).val.toNat >>> (lo + bits * k)) % 2 ^ bits)
        (h.writeV (q.d.toNat + k) l (BitVec.ofNat 32 y.1)
          ((g.vel q.a.toNat l).pois || (g.trapen.getLsbD 0 && y.2.getLsbD 0))).raise y.2) h) g) c none
  unpacks .vunpk2lo 10 1 16 0 ∧ unpacks .vunpk2hi 10 1 16 16 ∧ unpacks .vunpk4 12 4 8 0 ∧
  (∀ (x : Pfx) (r : RRR) s g c, Issues (.vqscl x r) c s g →
    let q := rrrAt r x g.repIdx
    let act := g.active x
    Ready g x [.v q.a.toNat 1 act, .v q.d.toNat 2 act] →
    Completes (.vqscl x r) s s g ((lanesOf g.width act).foldl (fun h l =>
      let y := Claims.scaled g h x q.a.toNat l
      ((y.2.2.2.2.writeV q.d.toNat l y.1 y.2.2.1).writeV (q.d.toNat + 1) l y.2.1 y.2.2.1).raise y.2.2.2.1) g) c none)

/-- R234, R271, R328 to R331: conversions, packing and scaling.  Under its conditions `exec` answers a next state for:
VCVT, VPACK2, VPACK4, VUNPK2LO, VUNPK2HI, VUNPK4, VQSCL. -/
def Obligations.Conversions : Prop :=
  Claims.ConversionsAndPacking ∧ Claims.UnpackingAndScaling

/-! ### Cross-lane and predicate instructions -/

/-- R332: a shuffle gives each active lane the element of a lane of its tile: the one that the index names when it is in
range and active, else its own; a poisoned index or source poisons it. -/
def Claims.Shuffles : Prop :=
  let moves (x : Pfx) (g : Group) (d a : Nat) (idx : Nat → Option Nat) (pz : Nat → Bool) : Group :=
    let t := Claims.typ x 5
    let act := g.active x
    g.writeLanes act d t fun l =>
      let base := l / g.tileSize * g.tileSize
      let k := match idx l with
        | some j => if act.getLsbD (base + j) then base + j else l
        | none => l
      (g.velem a k t (Claims.laneW t), 0, g.vpois a (Claims.laneN t) k || pz l)
  let byCount (i : Pfx → RRR → Instr) (idx : Nat → Nat → Nat → Option Nat) : Prop :=
    ∀ (x : Pfx) (r : RRR) (s : State) (g : Group) (c : Code), Issues (i x r) c s g →
      let q := rrrAt r x g.repIdx
      let n := Claims.laneN (Claims.typ x 5)
      Ready g x [.v q.a.toNat n (g.active x), .s q.b.toNat 1, .v q.d.toNat n (g.active x)] →
      Completes (i x r) s s g (moves x g q.d.toNat q.a.toNat
        (fun l => idx g.tileSize (l % g.tileSize) (g.sv q.b.toNat).toNat) fun _ => (g.sel q.b.toNat).pois) c none
  (∀ (x : Pfx) (r : RRR) s g c, Issues (.vshfl x r) c s g →
    let q := rrrAt r x g.repIdx
    let n := Claims.laneN (Claims.typ x 5)
    Ready g x [.v q.a.toNat n (g.active x), .v q.b.toNat 1 (g.active x), .v q.d.toNat n (g.active x)] →
    Completes (.vshfl x r) s s g (moves x g q.d.toNat q.a.toNat
      (fun l => some ((g.vel q.b.toNat l).val.toNat % g.tileSize)) fun l => (g.vel q.b.toNat l).pois) c none) ∧
  (byCount .vshflup fun _ i n => if n ≤ i then some (i - n) else none) ∧
  (byCount .vshfldn fun ts i n => if i + n < ts then some (i + n) else none) ∧
  (byCount .vshflx fun ts i n => some ((i ^^^ n) % ts))

/-- R181, R333, R337: the votes write a scalar from the bits of p(a) in the active lanes of the tile that holds the lowest
active lane (VBALLOT each at its place in the tile), 0 or, for VALL, 1 with no active lane; PCNT counts the active lanes
of the group whose bit is set. -/
def Claims.Votes : Prop :=
  let voting (g : Group) (act : BitVec 64) (l : Nat) : Bool :=
    decide (l < g.width) && act.getLsbD l &&
      (List.range g.width).any fun f => act.getLsbD f && (List.range f).all (fun j => !act.getLsbD j) &&
        decide (l / g.tileSize = f / g.tileSize)
  let vote (i : Pfx → RRR → Instr) (f : Group → (Nat → Bool) → (Nat → Bool) → BitVec 64 → Prop) : Prop :=
    ∀ (x : Pfx) (r : RRR) (s : State) (g : Group) (c : Code), Issues (i x r) c s g →
      let q := rrrAt r x g.repIdx
      Ready g x [.p q.a.toNat, .s q.d.toNat 1] → g.width ≤ 64 →
      ∃ v : BitVec 64, f g (voting g (g.active x)) (fun l => (g.pel q.a.toNat).bits.getLsbD l) v ∧
        Completes (i x r) s s g (g.writeS q.d.toNat v false) c none
  (vote .vballot fun g tile bit v => ∀ k, k < 64 → (v.getLsbD k = true ↔
    ∃ l, l < g.width ∧ tile l = true ∧ bit l = true ∧ l % g.tileSize = k)) ∧
  (vote .vany fun g tile bit v => v = BitVec.ofNat 64 ((List.range g.width).any fun l => tile l && bit l).toNat) ∧
  (vote .vall fun g tile bit v => v = BitVec.ofNat 64 ((List.range g.width).all fun l => !tile l || bit l).toNat) ∧
  (∀ (x : Pfx) (r : RRR) s g c, Issues (.pcnt x r) c s g →
    let q := rrrAt r x g.repIdx
    Ready g x [.p q.a.toNat, .s q.d.toNat 1] →
    Completes (.pcnt x r) s s g (g.writeS q.d.toNat (BitVec.ofNat 64 ((List.range g.width).countP fun l =>
      (g.active x).getLsbD l && (g.pel q.a.toNat).bits.getLsbD l)) false) c none)

/-- A partial result of a tree (R273): absent in an inactive lane. -/
abbrev Claims.Part : Type := Option (Nat × Bool)

/-- A node of a tree (R273): two present values combine, poison with them; an absent one gives the other. -/
def Claims.node (op : Nat → Nat → LRes) : Claims.Part → Claims.Part → Claims.Part × Exc
  | some x, some y => (some ((op x.1 y.1).1, x.2 || y.2 || (op x.1 y.1).2.2), (op x.1 y.1).2.1)
  | some x, none => (some x, 0)
  | none, y => (y, 0)

/-- The reduction tree of R273 over the 2^n lanes from one on: each half's, then the node of the two. -/
def Claims.reduce (op : Nat → Nat → LRes) (at_ : Nat → Claims.Part) : Nat → Nat → Claims.Part × Exc
  | 0, l => (at_ l, 0)
  | n + 1, l =>
    let a := Claims.reduce op at_ n l
    let b := Claims.reduce op at_ n (l + 2 ^ n)
    let y := Claims.node op a.1 b.1
    (y.1, a.2 ||| b.2 ||| y.2)

/-- The scan of R274: after n levels the value of lane l of a tile that starts at lane 0. -/
def Claims.scan (op : Nat → Nat → LRes) (at_ : Nat → Claims.Part) : Nat → Nat → Claims.Part
  | 0, l => at_ l
  | n + 1, l =>
    let y := Claims.scan op at_ n l
    if 2 ^ n ≤ l ∧ (Claims.scan op at_ n (l - 2 ^ n)).isSome
    then (Claims.node op (Claims.scan op at_ n (l - 2 ^ n)) y).1 else y

/-- The exceptions of n levels of a scan over a tile of m lanes (R274, R335). -/
def Claims.scanExc (op : Nat → Nat → LRes) (at_ : Nat → Claims.Part) (m : Nat) : Nat → Exc
  | 0 => 0
  | n + 1 => (List.range m).foldl (fun e l => e ||| if 2 ^ n ≤ l
      then (Claims.node op (Claims.scan op at_ n (l - 2 ^ n)) (Claims.scan op at_ n l)).2 else 0) (Claims.scanExc op at_ m n)

/-- A result as it is written: a NaN is the canonical one (R257). -/
def Claims.canonical (t v : Nat) : Nat := if 9 ≤ t ∧ ((fmtOf t).decode v).isNan = true then (fmtOf t).qnan else v

/-- R234, R257, R273, R274, R335: a reduction gives every active lane of a tile the root of the tile's tree, a scan each active
lane its own prefix, a NaN as the canonical one; FLAGS gains the exceptions of the nodes of every tile; the inactive lanes
and every other register keep their elements, and only v(d), FLAGS and the count of zero writes (R195) change. -/
def Claims.ReductionsAndScans : Prop :=
  let tree (i : Pfx → RRR → Instr) (kind : Nat) (scan : Bool) : Prop :=
    ∀ (x : Pfx) (r : RRR) (s : State) (g : Group) (c : Code), Issues (i x r) c s g →
      let q := rrrAt r x g.repIdx
      let t := Claims.typ x 5
      let n := Claims.laneN t
      let act := g.active x
      Ready g x [.v q.a.toNat n act, .v q.d.toNat n act] →
      let lane (l : Nat) : Claims.Part := if act.getLsbD l then
        some (if 9 ≤ t then (g.vel q.a.toNat l).val.toNat % 2 ^ (fmtOf t).bits
          else g.velem q.a.toNat l t (Claims.laneW t), g.vpois q.a.toNat n l) else none
      ∀ k, g.tileSize = 2 ^ k → k ≤ 6 → g.width % 2 ^ k = 0 → g.width ≤ 64 →
      let op := treeOp g x t kind
      let raised : Exc := (List.range (g.width / 2 ^ k)).foldl (fun e b => e ||| (if scan
        then Claims.scanExc op (fun j => lane (b * 2 ^ k + j)) (2 ^ k) k else (Claims.reduce op lane k (b * 2 ^ k)).2)) 0
      ∃ h, Completes (i x r) s s g h c none ∧
        h = { g with v := h.v, flags := g.flags ||| raised.zeroExtend 64, zeroWrites := h.zeroWrites } ∧
        (∀ l, l < g.width → act.getLsbD l = true →
          let base := l / 2 ^ k * 2 ^ k
          let y := if scan then Claims.scan op (fun j => lane (base + j)) k (l - base) else (Claims.reduce op lane k base).1
          ∃ v p, y = some (v, p) ∧ ∀ j, j < n →
            h.vel (q.d.toNat + j) l = ((g.writeElem q.d.toNat l t (Claims.canonical t v) p).vel (q.d.toNat + j) l)) ∧
        ∀ j m, m < 64 → (act.getLsbD m = false ∨ g.width ≤ m ∨ ∀ i, i < n → j ≠ g.vreg (q.d.toNat + i)) →
          h.vblk j m = g.vblk j m
  tree .vredadd 0 false ∧ tree .vredmin 1 false ∧ tree .vredmax 2 false ∧ tree .vredand 3 false ∧
  tree .vredor 4 false ∧ tree .vscanadd 0 true ∧ tree .vscanmax 2 true

/-- R195, R234, R257, R273, R274, R332, R335: shuffles, reductions and scans. The model's own choices in it: VSHFL's
index is one register (log 27), a lone active lane sets no NV, and a vote with no active lane (log 66).  Under its
conditions `exec` answers a next state for: VSHFL, VSHFLUP, VSHFLDN, VSHFLX, VREDADD, VREDMIN, VREDMAX, VREDAND, VREDOR,
VSCANADD, VSCANMAX. -/
def Obligations.LaneExchange : Prop :=
  Claims.Shuffles ∧ Claims.ReductionsAndScans

/-- R181, R336, R337: PART sets the tile size of the instructions that follow; the predicate instructions write p(d) in the
active lanes and leave its other lanes, PFIRST setting the lowest active lane whose bit is set. -/
def Claims.Predicates : Prop :=
  let two (i : Pfx → RRR → Instr) (f : Bool → Bool → Bool) : Prop :=
    ∀ (x : Pfx) (r : RRR) (s : State) (g : Group) (c : Code), Issues (i x r) c s g →
      let q := rrrAt r x g.repIdx
      Ready g x [.p q.a.toNat, .p q.b.toNat, .p q.d.toNat] →
      ∃ v : BitVec 64, Completes (i x r) s s g (g.putP q.d.toNat ⟨v, true⟩) c none ∧
        ∀ l, l < 64 → v.getLsbD l = if (g.active x).getLsbD l
          then f ((g.pel q.a.toNat).bits.getLsbD l) ((g.pel q.b.toNat).bits.getLsbD l)
          else (g.pel q.d.toNat).bits.getLsbD l
  let one (i : Pfx → RRR → Instr) (f : (Nat → Bool) → (Nat → Bool) → Nat → Bool) : Prop :=
    ∀ (x : Pfx) (r : RRR) (s : State) (g : Group) (c : Code), Issues (i x r) c s g →
      let q := rrrAt r x g.repIdx
      Ready g x [.p q.a.toNat, .p q.d.toNat] → g.width ≤ 64 →
      ∃ v : BitVec 64, Completes (i x r) s s g (g.putP q.d.toNat ⟨v, true⟩) c none ∧
        ∀ l, l < 64 → v.getLsbD l = if (g.active x).getLsbD l
          then f (fun j => (g.active x).getLsbD j) (fun j => (g.pel q.a.toNat).bits.getLsbD j) l
          else (g.pel q.d.toNat).bits.getLsbD l
  (∀ (x : Pfx) (r : RRR) s g c, Issues (.part x r) c s g →
    Completes (.part x r) s s g { g with part := BitVec.ofNat 64 r.b.toNat } c none) ∧
  two .pand (fun a b => a && b) ∧ two .por (fun a b => a || b) ∧ two .pxor (fun a b => a != b) ∧
  two .pandn (fun a b => a && !b) ∧ one .pnot (fun _ a l => !a l) ∧ one .pmov (fun _ a l => a l) ∧
  one .pfirst (fun act a l => a l && (List.range l).all fun j => !(act j && a j))

/-- R181, R319, R325, R333, R334, R336, R337: compares, votes and predicate instructions. The model's own choices in it:
votes and counts with no active lane (log 66).  Under its conditions `exec` answers a next state for: VCMP, VFCMP,
VBALLOT, VANY, VALL, VMATCH, PART, PAND, POR, PXOR, PANDN, PNOT, PMOV, PCNT, PFIRST. -/
def Obligations.ComparesPredicatesVotes : Prop :=
  Claims.VectorCompares ∧ Claims.Votes ∧ Claims.Predicates

/-! ### The copy engine -/

/-- The operands of CPY (form 0), CPY2D (1) and CPYFILL (5) that R358 allows: the control word in S(b), the destination,
the source or pattern and the strides in registers from S(a). -/
def Claims.copyOk (form : Nat) (g : Group) (a b : Nat) : Prop :=
  let c := g.sv b
  fld c 0 32 % 4 = 0 ∧ fld c 32 3 ∈ [0, 2, 3, 4] ∧ fld c 38 2 = 0 ∧ fld c 56 8 = 0 ∧
    (if form = 1 then fld c 40 16 ≠ 0 else fld c 40 16 = 0) ∧
    (if form = 5 then fld c 35 3 = 0 else fld c 35 3 ∈ [0, 2, 3, 4]) ∧
    (g.sv a).toNat % 4 = 0 ∧ (if form = 5 then fld (g.sv (a + 1)) 32 32 = 0 else (g.sv (a + 1)).toNat % 4 = 0) ∧
    (form = 1 → fld (g.sv (a + 2)) 0 2 = 0 ∧ fld (g.sv (a + 2)) 32 2 = 0 ∧
      (1 < fld c 40 16 → fld c 0 32 ≤ fld (g.sv (a + 2)) 0 32))

/-- R88, R140, R357 to R359: CPY, CPY2D and CPYFILL with no bytes write 0 to their token at once; else, with the ranges
free and the token full, they mark the token empty, lock their ranges in 64-byte granules and start an operation of the
engine with the operands captured. -/
def Claims.CopiesStart : Prop :=
  let copies (form n : Nat) (i : Pfx → RRR → Instr) : Prop :=
    ∀ (x : Pfx) (r : RRR) (s : State) (g : Group) (c : Code) (t : Team), Issues (i x r) c s g →
      let a := r.a.toNat
      let ctl := g.sv r.b.toNat
      Ready g x [.s a n, .s r.b.toNat 1, .s r.d.toNat 1] → (∀ k, k < n → (g.sel (a + k)).pois = false) →
      (g.sel r.b.toNat).pois = false → Claims.copyOk form g a r.b.toNat → s.team g.team = some t →
      let len := fld ctl 0 32
      let rows := if form = 1 then fld ctl 40 16 else 1
      let dst : Span := ⟨fld ctl 32 3, (g.sv a).toNat,
        (g.sv a).toNat + ((rows - 1) * fld (g.sv (a + 2)) 0 32 + len), true⟩
      let src : Span := ⟨fld ctl 35 3, (g.sv (a + 1)).toNat,
        (g.sv (a + 1)).toNat + ((rows - 1) * fld (g.sv (a + 2)) 32 32 + len), false⟩
      let rs := if form = 5 then [dst] else [dst, src]
      (∀ e ∈ rs, s.rangeBad g.asid t e.space (BitVec.ofNat 64 e.lo) (e.hi - e.lo) (if e.write then 1 else 0) = none) →
      (rows * len = 0 → ∃ u, Completes (i x r) s u g (g.writeS r.d.toNat 0 false) c none ∧
        u = { s with teams := u.teams, traces := u.traces }) ∧
      (rows * len ≠ 0 → selfOverlap rs = false → s.locksFree g.core rs.length = true →
        s.lockedOut g.core g.asid rs = false →
        ∃ u p, Completes (i x r) s u g (g.emptyS r.d.toNat) c none ∧
          u = { s with nextId := s.nextId + 1, copies := Tab.put s.copies s.nextId p, cores := u.cores, teams := u.teams } ∧
          p.form = form ∧ p.core = g.core ∧ p.slot = g.slot ∧ p.token = r.d.toNat ∧ p.ctl = ctl ∧
          p.regs = ((List.range n).map fun k => g.sv (a + k)) ∧ p.bytes = rows * len ∧ p.chunk = 0 ∧ p.cancel = false ∧
          p.stopped = false ∧
          ∀ q ∈ rs, ∃ e ∈ (u.core g.core).locks, e.2.op = s.nextId ∧ e.2.space = q.space ∧ e.2.asid = g.asid ∧
            e.2.lo = q.lo / 64 * 64 ∧ e.2.hi = (q.hi + 63) / 64 * 64 ∧ e.2.write = q.write)
  copies 0 2 .cpy ∧ copies 1 3 .cpy2d ∧ copies 5 2 .cpyfill

/-- R149, R359, R361: GATH, SCAT and KVSEND, once the group's accesses are performed, read their block table, check the tile
that they transfer, mark their token empty, lock the tile's range and arrive at the page-store unit. -/
def Claims.PageCopiesArrive : Prop :=
  let pages (form : Nat) (i : Pfx → RRR → Instr) : Prop :=
    ∀ (x : Pfx) (r : RRR) (s v : State) (g : Group) (c : Code) (t : Team) (b : BTab), Issues (i x r) c s g →
      let a := r.a.toNat
      Ready g x [.s a 4, .s r.d.toNat 1] → (∀ k, k < 4 → (g.sel (a + k)).pois = false) →
      s.quiet g.core g.slot = true → s.readTable g.asid (g.sv a) = .ok (v, b) → v.team g.team = some t →
      let o := (g.sv (a + 1)).toNat
      let bytes := if form = 4 then 0 else b.fmt.tile (fld (g.sv (a + 2)) 32 32) (fld (g.sv (a + 3)) 16 8)
      let rs : List Span := if form = 4 then [⟨6, (g.sv a).toNat, (g.sv a).toNat + 64, false⟩]
        else if bytes = 0 then [] else [⟨2, o, o + bytes, form = 2⟩]
      (form = 4 ∨ (o % 16 = 0 ∧ v.rangeBad g.asid t 2 (BitVec.ofNat 64 o) bytes (if form = 2 then 1 else 0) = none)) →
      v.locksFree g.core rs.length = true → v.lockedOut g.core g.asid rs = false →
      ∃ u p, Completes (i x r) s u g (g.emptyS r.d.toNat) c none ∧ Tab.find u.copies v.nextId = some p ∧
        p.form = form ∧ p.token = r.d.toNat ∧ p.bytes = bytes ∧ p.phase = 0 ∧ p.cancel = false ∧
        p.regs = ((List.range 4).map fun k => g.sv (a + k)) ∧ (∃ e ∈ u.psq, e.2.copy = some v.nextId) ∧ u.mem = v.mem
  pages 2 .gath ∧ pages 3 .scat ∧ pages 4 .kvsend

/-- R360, R362: a chunk of a copy or fill in package-local storage moves its words from their sources, or the pattern, to
their destinations and changes no other byte; the last chunk ends the operation and fills its token with the byte
count, any other is followed by the next.  CPYCAN marks an operation pending on its token cancelled, and without one
has no effect. -/
def Claims.CopyChunksAndCancel : Prop :=
  (∀ (s v w : State) (id : Nat) (c : CopyOp) (ws : List (BitVec 32 × Bool)) (ks : List Nat),
    Tab.find s.copies id = some c → c.stopped = false → c.wait = none → c.cancel = false → c.detached = none →
    s.follows c.core c.slot id (s.spansOf c.core id) = false →
    ((c.form = 5 ∧ v = s ∧ ws = c.positions.map fun _ => ((c.r 1).extractLsb' 0 32, false)) ∨
      ((c.form = 0 ∨ c.form = 1) ∧ ¬(c.ssp = 0 ∧ isFabric (c.srcAddr 0) = true) ∧
        s.readWords c c.positions = .ok (v, ws))) →
    ¬(c.dsp = 0 ∧ isFabric (c.dstAddr 0) = true) → v.dstPlaces c c.positions = .ok (w, ks) →
    ks.Pairwise (fun k j => k + 4 ≤ j ∨ j + 4 ≤ k) →
    ∃ t, exec (.copyChunk id) s = .next t ∧
      (∀ (j k : Nat) (x : BitVec 32 × Bool), ks[j]? = some k → ws[j]? = some x → t.readLE k 4 = x.1.toNat) ∧
      (∀ a, (∀ k ∈ ks, a < k ∨ k + 4 ≤ a) → t.byte a = w.byte a) ∧
      (4096 * (c.chunk + 1) < c.bytes →
        Tab.find t.copies id = some { c with chunk := c.chunk + 1, wait := none, buf := [] }) ∧
      (c.bytes ≤ 4096 * (c.chunk + 1) → Tab.find t.copies id = none ∧
        ∀ g, w.group c.core c.slot = some g → g.spec = none →
          t.group c.core c.slot = some { g.writeS c.token (BitVec.ofNat 64 c.bytes) false with
            tokens := g.tokens ||| 1#128 <<< c.token })) ∧
  (∀ (x : Pfx) (r : RRR) (s : State) (g : Group) (c : Code), Issues (.cpycan x r) c s g →
    let mine (e : Nat × CopyOp) : Prop := e.2.core = g.core ∧ e.2.slot = g.slot ∧ e.2.token = r.d.toNat ∧
      e.2.detached = none ∧ e.2.form ≠ 3 ∧ e.2.form ≠ 4
    ((∀ e ∈ s.copies, ¬mine e) → Completes (.cpycan x r) s s g g c none) ∧
    (∀ id p, s.copies = [(id, p)] → mine (id, p) → p.form ≠ 2 ∨ p.phase ≠ 0 →
      Completes (.cpycan x r) s { s with copies := [(id, { p with cancel := true })] } g g c none) ∧
    (∀ id p, s.copies = [(id, p)] → mine (id, p) → p.form = 2 → p.phase = 0 → g.spec = none →
      ∃ u, Completes (.cpycan x r) s u g
          { g.writeS r.d.toNat 0 false with tokens := g.tokens ||| 1#128 <<< r.d.toNat } c none ∧ u.copies = [] ∧
        ∀ e ∈ u.psq, e.2.copy ≠ some id))

/-- R88, R140, R149, R357 to R362: copies start, arrive at the page-store unit, move their chunks and are cancelled. The
model's own choices in it: a chunk is read whole before it is written (log 37).  Under its conditions `exec` answers a
next state for: CPY, CPY2D, GATH, SCAT, KVSEND, CPYFILL, CPYCAN, COPY_CHUNK. -/
def Obligations.Copies : Prop :=
  Claims.CopiesStart ∧ Claims.PageCopiesArrive ∧ Claims.CopyChunksAndCancel

/-! ### Barriers, stages, events, launch and exit -/

/-- A barrier of a team (R364), as launch leaves it where nothing has arrived. -/
def Claims.bar (t : Team) (n : Nat) : Bar := (Tab.find t.bars n).getD ⟨[], t.nGroups, false⟩

/-- A barrier after one more arrival: the last that it expects inverts the phase and clears it (R364). -/
def Claims.arrived (b : Bar) (gid : Nat) : Bar :=
  if b.arrived.length + 1 = b.expected then ⟨[], b.expected, !b.phase⟩ else { b with arrived := b.arrived ++ [gid] }

/-- The state after an acquire at the team's point (R79, R84, R148): the L1 of a paired team's core is invalidated, and no
later request of the core joins one that it has sent. -/
def Claims.acquired (s : State) (t : Team) (core : Nat) : State := if t.paired then s.l1Drop core else s.entriesOld core

/-- R364: BAR arrives, and completes at once where it is the last arrival; else it waits, seen by the barrier, and
completes once the phase has changed.  BARARR writes the phase before its arrival; BARWAIT completes when the phase
differs from S(a)[0]. -/
def Claims.Barriers : Prop :=
  (∀ (r : RRR) s g c t, Issues (.bar r) c s g → s.team g.team = some t →
    let n := r.b.toNat
    let b := Claims.bar t n
    let put (b : Bar) (s : State) : State := s.modTeam g.team fun t => { t with bars := Tab.put t.bars n b }
    (Tab.find g.barSeen n = none → s.quiet g.core g.slot = true → g.gid ∉ b.arrived →
      (b.arrived.length + 1 = b.expected →
        Completes (.bar r) s (Claims.acquired (put (Claims.arrived b g.gid) s) t g.core) g g c none) ∧
      (b.arrived.length + 1 ≠ b.expected → ∃ u, exec (.bar r) s = .next u ∧
        u.team g.team = some { t with bars := Tab.put t.bars n (Claims.arrived b g.gid) } ∧
        ∃ h, u.group g.core g.slot = some h ∧ h.waiting = true ∧ h.pc = g.pc ∧ Tab.find h.barSeen n = some b.phase)) ∧
    (∀ ph, Tab.find g.barSeen n = some ph → b.phase ≠ ph →
      Completes (.bar r) s (Claims.acquired s t g.core) g { g with barSeen := Tab.drop g.barSeen n } c none)) ∧
  (∀ (r : RRR) s g c t, Issues (.bararr r) c s g → s.team g.team = some t → Ready g Pfx.none [.s r.d.toNat 1] →
    s.quiet g.core g.slot = true →
    let n := r.b.toNat
    let b := Claims.bar t n
    g.gid ∉ b.arrived →
    Completes (.bararr r) s
      (s.modTeam g.team fun t => { t with bars := Tab.put t.bars n (Claims.arrived b g.gid) }) g
      (g.writeS r.d.toNat (BitVec.ofNat 64 b.phase.toNat) false) c none) ∧
  (∀ (r : RRR) s g c t, Issues (.barwait r) c s g → s.team g.team = some t → Ready g Pfx.none [.s r.a.toNat 1] →
    (g.sel r.a.toNat).pois = false → s.quiet g.core g.slot = true →
    (Claims.bar t r.b.toNat).phase ≠ (g.sv r.a.toNat).getLsbD 0 →
    Completes (.barwait r) s (Claims.acquired s t g.core) g g c none)

/-- R128, R201, R366, R231: of a ring of n stages, STAGEACQ completes when the group's acquires are performed and the phase of
stage S(a) mod n equals b[2], STAGEREL
inverts it; a ring with no stages stops both, before their operand is looked at. -/
def Claims.Stages : Prop :=
  let stages (t : Team) (r : RRR) : Nat := t.rings.toNat / 16 ^ (r.b.toNat % 4) % 16
  let stage (t : Team) (r : RRR) (g : Group) : Nat := 8 * (r.b.toNat % 4) + (g.sv r.a.toNat).toNat % stages t r
  (∀ (r : RRR) s g c t, Issues (.stageacq r) c s g → s.team g.team = some t → stages t r ≠ 0 →
    Ready g Pfx.none [.s r.a.toNat 1] → (g.sel r.a.toNat).pois = false → s.acquired g.core g.slot = true →
    t.phases.getLsbD (stage t r g) = r.b.getLsbD 2 →
    Completes (.stageacq r) s (Claims.acquired s t g.core) g g c none) ∧
  (∀ (r : RRR) s g c t, Issues (.stagerel r) c s g → s.team g.team = some t → stages t r ≠ 0 →
    Ready g Pfx.none [.s r.a.toNat 1] → (g.sel r.a.toNat).pois = false → s.quiet g.core g.slot = true →
    Completes (.stagerel r) s
      (s.modTeam g.team fun t => { t with phases := t.phases ^^^ (1#32 <<< stage t r g) }) g g c none) ∧
  (∀ (r : RRR) s g c t, s.team g.team = some t → stages t r = 0 →
    (Issues (.stageacq r) c s g → ∃ u, exec (.stageacq r) s = .next u ∧ Stops s u g (dieOf g.core) 0x45 (0#32 ++ c.word) 0 0) ∧
    (Issues (.stagerel r) c s g → ∃ u, exec (.stagerel r) s = .next u ∧ Stops s u g (dieOf g.core) 0x45 (0#32 ++ c.word) 0 0))

/-- R128, R201, R231, R364, R366: barriers and stages.  Under its conditions `exec` answers a next state for: BAR,
BARARR, BARWAIT, STAGEACQ, STAGEREL. -/
def Obligations.BarriersAndStages : Prop :=
  Claims.Barriers ∧ Claims.Stages

/-- What an examination after an event's signal makes of grid p, in the state v that holds the new count (R206): a dependence
in use is met once its count has passed its threshold and stays met, and the grid is ready when all in use are. -/
def Claims.examined (v : State) (p q : Grid) : Prop :=
  let place (e : Nat) : Nat :=
    let t := (v.ctx p.asid).evt
    (fld t 52 1) * 2 ^ 64 + (fld t 12 40 * 2 ^ 12 + 8 * e)
  let met (j : Nat) : Prop := p.depMet.getLsbD j = true ∨ p.fld (7 + j) 16 1 = 0 ∨
    (BitVec.ofNat 32 (v.readLE (place (p.fld (7 + j) 0 16)) 4) - BitVec.ofNat 32 (p.fld (7 + j) 32 32)).toNat < 2 ^ 31
  q = { p with depMet := q.depMet, readyAt := q.readyAt } ∧ (∀ j, j < 4 → (q.depMet.getLsbD j = true ↔ met j)) ∧
    (p.readyAt = none → (∀ j, j < 4 → met j) → q.readyAt = some v.now.toNat) ∧
    (p.readyAt ≠ none ∨ (∃ j, j < 4 ∧ ¬met j) → q.readyAt = p.readyAt)

/-- R206, R207, R220, R367: EVSIG adds 1, modulo 2^32, to the count of the event S(a) of its context's table, and the grids of
the context that wait on it are examined; where the event is Carillon's DEV the frame under way has ended, and nothing else
changes while no grid is over by it.  EVWAIT completes once the group's acquires are performed (R128) and
the count has met the threshold S(b), its core's L1 empty. -/
def Claims.Events : Prop :=
  let place (s : State) (g : Group) (e : Nat) : Nat :=
    let t := (s.ctx g.asid).evt
    (fld t 52 1) * 2 ^ 64 + (fld t 12 40 * 2 ^ 12 + 8 * e)
  let inTable (s : State) (g : Group) (r : RRR) : Prop :=
    (g.sv r.a.toNat).toNat < 2 ^ 16 ∧ (g.sv r.a.toNat).toNat < fld (s.ctx g.asid).evn 0 17
  (∀ (r : RRR) s g c, Issues (.evsig r) c s g → Ready g Pfx.none [.s r.a.toNat 1] → (g.sel r.a.toNat).pois = false →
    s.quiet g.core g.slot = true → inTable s g r →
    let k := place s g (g.sv r.a.toNat).toNat
    ∃ u, Completes (.evsig r) s u g g c none ∧
      let v := s.writeLE k 4 (s.readLE k 4 + 1)
      let e := (g.sv r.a.toNat).toNat
      let waits (p : Grid) : Prop := p.asid = g.asid ∧ p.readyAt = none ∧ p.discarded = false ∧
        ∃ j, j < 4 ∧ p.fld (7 + j) 16 1 = 1 ∧ p.fld (7 + j) 0 16 = e
      ((∀ q ∈ s.grids, ¬(q.2.next = q.2.teams ∧ q.2.endedTeams = q.2.teams)) →
        u = { v with grids := u.grids, carillon := u.carillon } ∧
        u.carillon = { s.carillon with frameEnded := s.carillon.frameEnded || ((s.reg 0x4000).getLsbD 1 &&
          s.carillon.inFrame && g.asid = BitVec.ofNat 16 (fld (s.reg 0x4000) 11 16) && fld (s.reg 0x4028) 16 16 = e) } ∧
        ∀ n, (Tab.find s.grids n = none → Tab.find u.grids n = none) ∧ ∀ p, Tab.find s.grids n = some p →
          (¬waits p → Tab.find u.grids n = some p) ∧
          (waits p → ∃ q, Tab.find u.grids n = some q ∧ Claims.examined v p q))) ∧
  (∀ (r : RRR) s g c, Issues (.evwait r) c s g → Ready g Pfx.none [.s r.a.toNat 1, .s r.b.toNat 1] →
    (g.sel r.a.toNat).pois = false → (g.sel r.b.toNat).pois = false → inTable s g r → (g.sv r.b.toNat).toNat < 2 ^ 32 →
    s.acquired g.core g.slot = true →
    (BitVec.ofNat 32 (s.readLE (place s g (g.sv r.a.toNat).toNat) 4) - (g.sv r.b.toNat).extractLsb' 0 32).toNat < 2 ^ 31 →
    Completes (.evwait r) s (s.l1Drop g.core) g g c none)

/-- R178, R205, R368: LAUNCH reads its descriptor, which passes the checks, submits a grid of the group's context with the
context's next launch number, and writes that number; an unreadable or faulty descriptor stops the group with 0x50, the
marks of the descriptor's read made (R26). -/
def Claims.Launches : Prop :=
  ∀ (r : RRR) s v g c, Issues (.launch r) c s g → Ready g Pfx.none [.s r.a.toNat 1, .s r.d.toNat 1] →
    (g.sel r.a.toNat).pois = false → s.quiet g.core g.slot = true → s.descHeld g.asid (g.sv r.a.toNat) = none →
    (∀ desc, s.readDesc g.asid (g.sv r.a.toNat) = (v, some desc) →
      let id := (v.ctx g.asid).nextGrid
      let n := newGrid desc (g.sv r.a.toNat) g.asid 1 0 id 0
      (s.descBad n = false → teamsOf desc ≠ 0 → (∀ e ∈ v.grids, e.2.isOver = false) → s.grids.length < 256 →
        ∃ u p, Completes (.launch r) s u g (g.writeS r.d.toNat id false) c none ∧
          (u.ctx g.asid).nextGrid = id + 1 ∧ Tab.find u.grids v.nextId = some p ∧ p.desc = desc ∧ p.gridId = id ∧
          p.asid = g.asid ∧ p.source = 1 ∧ p.next = 0 ∧ p.teams = teamsOf desc ∧ u.mem = v.mem) ∧
      (s.descBad n = true →
        ∃ u, exec (.launch r) s = .next u ∧ Stops (s.adoptMarks v) u g (dieOf g.core) 0x50 (0#32 ++ c.word) 0 0)) ∧
    (s.readDesc g.asid (g.sv r.a.toNat) = (v, none) →
      ∃ u, exec (.launch r) s = .next u ∧ Stops (s.adoptMarks v) u g (dieOf g.core) 0x50 (0#32 ++ c.word) 0 0)

/-- R26, R128, R178, R205 to R207, R220, R367, R368: events and launches. The model's own choices in it: launch numbers
(log 17).  Under its conditions `exec` answers a next state for: EVSIG, EVWAIT, LAUNCH. -/
def Obligations.EventsAndLaunches : Prop :=
  Claims.Events ∧ Claims.Launches

/-- R306, R364: EXIT, once every register is full, no access or engine operation is pending and no speculative region is
open, ends the group: its slot is free, its team counts it, forgets its slot and frees its accumulators, and with the
last group the team is gone.  Under its conditions `exec` answers a next state for: EXIT. -/
def Obligations.ExitEndsTheGroup : Prop :=
  ∀ (s : State) (g : Group) (c : Code) (t : Team), Issues .exit c s g → s.team g.team = some t → (∀ e ∈ g.v, e.2.full = true) → (∀ e ∈ g.s, e.2.full = true) →
    (∀ e ∈ g.p, e.2.full = true) → s.engineBusy g.core g.slot = false → g.spec = none →
    s.accessesOf g.core g.slot = [] →
    ∃ u, exec .exit s = .next u ∧ u.group g.core g.slot = none ∧
      (∀ k, k ≠ gkey g.core g.slot → Tab.find u.groups k = Tab.find s.groups k) ∧
      ((∀ x ∈ t.slots, x.1 = g.gid) → u.team g.team = none) ∧
      ((∃ x ∈ t.slots, x.1 ≠ g.gid) → ∃ m, u.team g.team = some m ∧ m.ended = t.ended + 1 ∧
        m.slots = t.slots.filter (fun (x : Nat × Nat × Nat) => decide (x.1 ≠ g.gid)) ∧
        ∀ n a, Tab.find t.accs n = some a → Tab.find m.accs n =
          some (if a.owner = some (gkey g.core g.slot) then { a with owner := none, full := true } else a))

/-! ### Tiles -/

/-- The moves of a tile slice (R391): for each register and active lane, the register's number after the first, the
lane, and the row and column of the tile element that element q of the slice at K0 reaches. -/
def Claims.moves (g : Group) (r : TS) (act : BitVec 64) : List (Nat × Nat × Nat × Nat) :=
  (List.range (if g.width = 16 then 2 else 1)).flatMap fun i => (lanesOf g.width act).map fun l =>
    let q := i * g.width + l
    let k := ((g.sv r.s.toNat).toNat + r.imm.toNat + q / 32) % 32
    if r.rc then (i, l, q % 32, k) else (i, l, k, q % 32)

/-- R389, R391: TSWR copies the active lanes of one or two vector registers, with their poison, into a row or column of a
tile, TSRD the other way; nothing else of the tile or the registers changes. -/
def Claims.TileSlices : Prop :=
  (∀ (x : Pfx) (r : TS) (s : State) (g : Group) (c : Code) (t : Team), Issues (.tswr x r) c s g →
    let act := g.active x
    let ms := Claims.moves g r act
    Ready g x [.v r.d.toNat (if g.width = 16 then 2 else 1) act, .s r.s.toNat 1] → (g.sel r.s.toNat).pois = false →
    s.team g.team = some t → (∀ m ∈ ms, t.rowIsEmpty r.t.toNat m.2.2.1 = false) → g.width ≤ 64 →
    ∃ u m, Completes (.tswr x r) s { s with teams := u } g g c none ∧ Tab.find u g.team = some m ∧
      (∀ j, j ≠ g.team → Tab.find u j = Tab.find s.teams j) ∧
      (∀ q ∈ ms, m.tile r.t.toNat q.2.2.1 q.2.2.2 =
        ⟨(g.vel (r.d.toNat + q.1) q.2.1).val, (g.vel (r.d.toNat + q.1) q.2.1).pois⟩) ∧
      ∀ n i j, i < 32 → j < 32 → (n ≠ r.t.toNat ∨ ∀ q ∈ ms, q.2.2 ≠ (i, j)) → m.tile n i j = t.tile n i j) ∧
  (∀ (x : Pfx) (r : TS) (s : State) (g : Group) (c : Code) (t : Team), Issues (.tsrd x r) c s g →
    let act := g.active x
    let ms := Claims.moves g r act
    Ready g x [.s r.s.toNat 1, .v r.d.toNat (if g.width = 16 then 2 else 1) act] → (g.sel r.s.toNat).pois = false →
    s.team g.team = some t → (∀ m ∈ ms, t.rowIsEmpty r.t.toNat m.2.2.1 = false) →
    ∃ h, Completes (.tsrd x r) s s g h c none ∧ h = { g with v := h.v, zeroWrites := h.zeroWrites } ∧
      (∀ q ∈ ms, q.2.1 < 64 →
        let e := t.tile r.t.toNat q.2.2.1 q.2.2.2
        h.vel (r.d.toNat + q.1) q.2.1 = ⟨e.val, true, e.pois, decide (e.val = 0) && !e.pois⟩) ∧
      ∀ k l, l < 64 → (∀ q ∈ ms, (g.vreg (r.d.toNat + q.1), q.2.1) ≠ (k, l)) → h.vblk k l = g.vblk k l)

/-- R389: TMOV copies a tile, TTRANS its transpose, TZERO writes zeros; each waits for full rows and touches no other tile. -/
def Claims.WholeTiles : Prop :=
  let full (t : Team) (n : Nat) : Prop := ∀ i, i < 32 → t.rowIsEmpty n i = false
  let writes (i : Instr) (s : State) (g : Group) (c : Code) (t : Team) (d : Nat) (f : Nat → Nat → AEl) : Prop :=
    ∃ u m, Completes i s { s with teams := u } g g c none ∧ Tab.find u g.team = some m ∧
      (∀ j, j ≠ g.team → Tab.find u j = Tab.find s.teams j) ∧ m = { t with tiles := m.tiles } ∧
      ∀ n i j, i < 32 → j < 32 → m.tile n i j = if n = d then f i j else t.tile n i j
  (∀ (x : Pfx) (r : RRR) (s : State) (g : Group) (c : Code) (t : Team), s.team g.team = some t → full t r.d.toNat →
    (Issues (.tzero x r) c s g → writes (.tzero x r) s g c t r.d.toNat fun _ _ => AEl.zero) ∧
    (Issues (.tmov x r) c s g → full t r.a.toNat → writes (.tmov x r) s g c t r.d.toNat fun i j => t.tile r.a.toNat i j) ∧
    (Issues (.ttrans x r) c s g → full t r.a.toNat →
      writes (.ttrans x r) s g c t r.d.toNat fun i j => t.tile r.a.toNat j i))

/-- R192, R390: TLD and TST access element j of row i of a tile at S(a) + i × S(b) + 4j, rows standing for lanes; TLD marks
the rows empty, TST stores the elements. -/
def Claims.TilesAndMemory : Prop :=
  let rows (g : Group) : List Nat := match g.reissue with
    | some m => lanesOf 32 m
    | none => List.range 32
  let at_ (g : Group) (r : RRR) (i j : Nat) : BitVec 64 :=
    g.sv r.a.toNat + BitVec.ofNat 64 i * g.sv r.b.toNat + BitVec.ofNat 64 (4 * j)
  let lanes (g : Group) (f : Nat → Nat → LaneAcc) : List LaneAcc :=
    (rows g).flatMap fun i => (List.range 32).map fun j => f i j
  let ready (x : Pfx) (r : RRR) (s : State) (g : Group) (t : Team) : Prop :=
    Ready g x [.s r.a.toNat 1, .s r.b.toNat 1] ∧ (g.sel r.a.toNat).pois = false ∧ (g.sel r.b.toNat).pois = false ∧
      (g.sv r.a.toNat).toNat % 4 = 0 ∧ (g.sv r.b.toNat).toNat % 4 = 0 ∧ s.team g.team = some t ∧
      ∀ i ∈ rows g, t.rowIsEmpty r.d.toNat i = false
  (∀ (x : Pfx) (r : RRR) (s : State) (g : Group) (c : Code) (t : Team), Issues (.tld x r) c s g → ready x r s g t →
    let o := { Claims.op g x c .load 6 4 with
      dstKind := .t, dst := r.d.toNat, per := 32, mask := maskOf (rows g)
      lanes := lanes g fun i j => Claims.lane (32 * i + j) (at_ g r i j) 0 0 }
    Claims.passes s g t o → Claims.accesses (.tld x r) s g g c t o ∧
      ∀ u, exec (.tld x r) s = .next u →
        ∃ m, u.team g.team = some m ∧ ∀ i ∈ rows g, m.rowIsEmpty r.d.toNat i = true) ∧
  (∀ (x : Pfx) (r : RRR) (s : State) (g : Group) (c : Code) (t : Team), Issues (.tst x r) c s g → ready x r s g t →
    (∀ i ∈ rows g, ∀ j, j < 32 → (t.tile r.d.toNat i j).pois = false) →
    let o := { Claims.op g x c .store 6 4 with
      dst := r.d.toNat, per := 32, mask := maskOf (rows g)
      lanes := lanes g fun i j => Claims.lane (32 * i + j) (at_ g r i j) (t.tile r.d.toNat i j).val.toNat 0 }
    Claims.passes s g t o → Claims.accesses (.tst x r) s g g c t o)

/-- R192, R389 to R391: tile slices, whole tiles, and tiles and memory.  Under its conditions `exec` answers a next
state for: TSWR, TSRD, TLD, TST, TMOV, TZERO, TTRANS. -/
def Obligations.Tiles : Prop :=
  Claims.TileSlices ∧ Claims.WholeTiles ∧ Claims.TilesAndMemory

/-! ### The matrix unit -/

/-- The accumulator n that a matrix instruction naming a(i) acts on (R184, R388): itself, or its shadow in an open region
that is not decided. -/
def Claims.acts (g : Group) (i n : Nat) : Prop :=
  g.accOwned.getLsbD i = true ∧
    match g.spec with
    | none => n = i
    | some p => i < 8 ∧ if p.shadowed.getLsbD i = true then p.decided = none ∧ n = i + 8 else n = i

/-- State u is state s but for its teams, and of the group's accumulators only those that f names change. -/
def Claims.accs (s u : State) (g : Group) (f : Nat → Acc → Acc) : Prop :=
  u = { s with teams := u.teams } ∧ ∀ i, i < 16 → u.accOf g i = f i (s.accOf g i)

/-- R187, R376 to R379, R384: MTILE takes the accumulators of its mask when each is free or the group's own, giving up the
others, and writes the old mask; MZERO zeroes its accumulator; MWAIT completes when no operation of the group is pending;
MSTAT writes the owned and shadowed accumulators and the number pending. -/
def Claims.AccumulatorsAndStatus : Prop :=
  (∀ (x : Pfx) (r : RRR) (s : State) (g : Group) (c : Code) (t : Team), Issues (.mtile x r) c s g → s.team g.team = some t →
    Ready g Pfx.none [.s r.a.toNat 1, .s r.d.toNat 1] → (g.sel r.a.toNat).pois = false →
    let m := (g.sv r.a.toNat).extractLsb' 0 16
    (g.sv r.a.toNat).toNat < 2 ^ 16 → m.toNat < 2 ^ t.aregs → g.spec = none → g.tileOld = none →
    (∀ i, i < 16 → g.accOwned.getLsbD i = true → m.getLsbD i = false → (s.accOf g i).full = true) →
    (∀ i, i < 16 → m.getLsbD i = true → (s.accOf g i).owner = none ∨ (s.accOf g i).owner = some (gkey g.core g.slot)) →
    ∃ u, Completes (.mtile x r) s u g ({ g with accOwned := m }.writeS r.d.toNat (g.accOwned.zeroExtend 64) false) c none ∧
      Claims.accs s u g fun i a =>
        let o := if m.getLsbD i then some (gkey g.core g.slot) else if g.accOwned.getLsbD i then none else a.owner
        { a with owner := o }) ∧
  (∀ (x : Pfx) (r : RRR) (s : State) (g : Group) (c : Code) (t : Team) (n : Nat), Issues (.mzero x r) c s g →
    s.team g.team = some t → Claims.acts g r.d.toNat n → n < 16 → (s.accOf g n).full = true →
    s.accBusy g.team (t.accKey g n) s.nextId = false →
    ∃ u, Completes (.mzero x r) s u g g c none ∧ Claims.accs s u g fun i a => if i = n then { a with els := [] } else a) ∧
  (∀ x s g c, Issues (.mwait x) c s g → (∀ m ∈ s.matops, ¬(m.2.core = g.core ∧ m.2.slot = g.slot)) →
    Completes (.mwait x) s s g g c none) ∧
  (∀ (x : Pfx) (r : RRR) (s : State) (g : Group) (c : Code), Issues (.mstat x r) c s g → Ready g x [.s r.d.toNat 1] →
    let n := s.matOf g.core g.slot
    let v : Nat := match g.spec with
      | some p => g.accOwned.toNat + p.shadowed.toNat * 2 ^ 16 + 2 ^ 24 + n * 2 ^ 25
      | none => g.accOwned.toNat + n * 2 ^ 25
    Completes (.mstat x r) s s g (g.writeS r.d.toNat (BitVec.ofNat 64 v) false) c none)

/-- Whether nothing holds back the resolution of a decided region p (R376, R388): every shadow is full and, on a commit,
no operation in flight still reads an accumulator that takes its shadow. -/
def Claims.resolvable (s : State) (g : Group) (t : Team) (p : Spec) (commit : Bool) : Prop :=
  ∀ k, k < 8 → p.shadowed.getLsbD k = true → (s.accOf g (k + 8)).full = true ∧
    (commit = true → s.accBusy g.team (t.accKey g k) s.nextId = false)

/-- What the resolution of a region p leaves of the accumulators (R185): on a commit each shadowed one holds its shadow's
elements, on a discard its own. -/
def Claims.resolved (s u : State) (g : Group) (p : Spec) (commit : Bool) : Prop :=
  ∀ i, i < 8 → (u.accOf g i).els =
    if commit = true ∧ p.shadowed.getLsbD i = true then (s.accOf g (i + 8)).els else (s.accOf g i).els

/-- R184, R185, R388: MSPEC, with no open region and a shadow owned for every owned a(i), copies each a(i) to its shadow and
opens a region on its condition, or resolves it at once where the condition is full; MCOMMIT and MDISCARD decide an
open region, whose resolution waits for its shadows and, on a commit, for earlier reads of what it overwrites; a decided one they leave, and with none they are speculation misuse.
The resolution of a decided region closes it. -/
def Claims.SpeculativeRegions : Prop :=
  (∀ (x : Pfx) (r : RRR) (s : State) (g : Group) (c : Code) (t : Team), Issues (.mspec x r) c s g → s.team g.team = some t →
    g.spec = none → Ready g x [.s r.b.toNat 1] → (g.sel r.b.toNat).pois = false →
    (∀ i, i < 8 → g.accOwned.getLsbD i = true → g.accOwned.getLsbD (i + 8) = true ∧ (s.accOf g i).full = true ∧
      (s.accOf g (i + 8)).full = true ∧ s.accBusy g.team (t.accKey g (i + 8)) s.nextId = false) →
    ((g.sel r.a.toNat).full = false →
      ∃ u p, Completes (.mspec x r) s u g { g with spec := some p } c none ∧ p.cond = r.a ∧ p.pred = g.sv r.b.toNat ∧
        p.decided = none ∧ (∀ i, i < 8 → p.shadowed.getLsbD i = g.accOwned.getLsbD i) ∧
        Claims.accs s u g fun i a =>
          if 8 ≤ i ∧ g.accOwned.getLsbD (i - 8) = true then { a with els := (s.accOf g (i - 8)).els } else a) ∧
    ((g.sel r.a.toNat).full = true → ∃ u h, Completes (.mspec x r) s u g h c none ∧ h.spec = none ∧
      h.accOwned = g.accOwned ∧ ∀ i, i < 8 → (u.accOf g i).els = (s.accOf g i).els)) ∧
  (∀ (commit : Bool) (x : Pfx) (s : State) (g : Group) (c : Code) (t : Team), s.team g.team = some t →
    let i : Instr := if commit then .mcommit x else .mdiscard x
    Issues i c s g →
    (g.spec = none → ∃ u, exec i s = .next u ∧ Stops s u g (dieOf g.core) 0x44 (0#32 ++ c.word) 0 0) ∧
    ∀ p, g.spec = some p →
      (p.decided.isSome = true → Completes i s s g g c none) ∧
      (p.decided = none → Claims.resolvable s g t p commit →
        ∃ u h, Completes i s u g h c none ∧ h.spec = none ∧ Claims.resolved s u g p commit) ∧
      (p.decided = none → ¬Claims.resolvable s g t p commit →
        Completes i s s g { g with spec := some { p with decided := some commit } } c none)) ∧
  (∀ (s : State) (core slot : Nat) (g : Group) (t : Team) (p : Spec) (commit : Bool), s.group core slot = some g →
    s.team g.team = some t → g.core = core → g.slot = slot → g.spec = some p → p.decided = some commit →
    Claims.resolvable s g t p commit →
    ∃ u h, exec (.specResolution core slot) s = .next u ∧ u.group core slot = some h ∧ h.spec = none ∧
      Claims.resolved s u g p commit)

/-- R184, R185, R187, R376 to R379, R384, R388: accumulators, their status, and speculative regions. The model's own
choices in it: an undefined accumulator is free (log 4).  Under its conditions `exec` answers a next state for: MTILE,
MZERO, MSPEC, MCOMMIT, MDISCARD, MWAIT, MSTAT, SPEC_RESOLUTION. -/
def Obligations.AccumulatorsAndRegions : Prop :=
  Claims.AccumulatorsAndStatus ∧ Claims.SpeculativeRegions

/-- The operands of a loop that R380 allows, q for MLOOPQ. -/
def Claims.loopOk (q : Bool) (g : Group) (a b : Nat) : Prop :=
  let c := g.sv b
  let ta := fld c 18 5
  let tb := fld c 23 5
  let mx (t : Nat) : Prop := t ∈ [12, 13, 14, 15, 16, 18]
  fld c 43 21 = 0 ∧ (q = false → fld c 35 8 = 0) ∧ fld c 4 7 ≤ 63 ∧ fld c 28 3 ∈ [0, 2, 3, 4] ∧
    fld c 31 3 ∈ [0, 2, 3, 4] ∧ ((mx ta ∧ mx tb) ∨ (ta = tb ∧ ta ∈ [9, 10, 11])) ∧
    (g.sv a).toNat % 4 = 0 ∧ (g.sv (a + 1)).toNat % 4 = 0 ∧ fld (g.sv (a + 2)) 0 2 = 0 ∧ fld (g.sv (a + 2)) 32 2 = 0 ∧
    fld (g.sv (a + 3)) 32 32 = 0 ∧ 0 < fld (g.sv (a + 3)) 0 32 ∧ fld (g.sv (a + 3)) 0 32 ≤ 2 ^ 31 ∧
    (mx ta → fld (g.sv (a + 3)) 0 32 % 32 = 0)

/-- Whether the core's matrix unit and range-lock table take one more operation of group g over the ranges rs (R142,
R376), each range within its space (R359). -/
def Claims.unitTakes (s : State) (g : Group) (rs : List Span) : Prop :=
  s.checkSpans g rs = .ok () ∧ (s.matops.filter fun (e : Nat × MatOp) => decide (e.2.core = g.core)).length < 16 ∧
    s.locksFree g.core rs.length = true ∧ s.lockedOut g.core g.asid rs = false

/-- R192, R376, R380, R381, R383: MLOOP and MLOOPQ, their operands read and their accumulator and status full, mark both
empty and put a loop of the unit in flight with no K-block done; under ZERO the loop's M × N region is +0 at once, unless
an earlier operation still reads it.  An MLOOPQ may form a share group, which other loops of it then note. -/
def Claims.MatrixLoopsStart : Prop :=
  ∀ (q : Bool) (x : Pfx) (r : RRR) (s : State) (g : Group) (c : Code) (t : Team) (n : Nat),
    let i : Instr := if q then .mloopq x r else .mloop x r
    Issues i c s g → s.team g.team = some t →
    let k := if fld (g.sv r.b.toNat) 18 5 ∈ [12, 13, 14, 15, 16, 18] then 6 else 4
    Ready g x [.s r.a.toNat k, .s r.b.toNat 1, .s r.d.toNat 1] → (∀ j, j < k → (g.sel (r.a.toNat + j)).pois = false) →
    (g.sel r.b.toNat).pois = false → Claims.loopOk q g r.a.toNat r.b.toNat →
    Claims.acts g (fld (g.sv r.b.toNat) 0 4) n → (s.accOf g n).full = true →
    let m := { newMat g i x (if q then 6 else 5) r.d.toNat n (fld (g.sv r.b.toNat) 0 4)
        ((List.range k).map fun j => g.sv (r.a.toNat + j)) (g.sv r.b.toNat) with issuedAt := some s.clk }
    Claims.unitTakes s g m.loopSpans →
    ∃ u, Completes i s u g (g.emptyS r.d.toNat) c none ∧
      u = { s with nextId := s.nextId + 1, matops := u.matops, cores := u.cores, teams := u.teams } ∧
      (q = false → u.matops = Tab.put s.matops s.nextId m) ∧
      (∀ j, (Tab.find u.matops j).map (fun e => { e with mates := [], fetched := [] }) =
        (Tab.find (Tab.put s.matops s.nextId m) j).map fun e => { e with mates := [], fetched := [] }) ∧
      (∀ j, j < 16 → j ≠ n → u.accOf g j = s.accOf g j) ∧
      (u.accOf g n).full = false ∧ (u.accOf g n).owner = (s.accOf g n).owner ∧
      ∀ i j, j < 128 → (u.accOf g n).el i j =
        if (g.sv r.b.toNat).getLsbD 34 = true ∧ s.accBusy g.team (t.accKey g n) s.nextId = false ∧ i < m.mm ∧ j < m.nn
        then AEl.zero else (s.accOf g n).el i j

/-- R234, R272, R381, R383, R388: the next K-block of a loop adds to every element of its M × N region, +0 before the first
block under ZERO, the block's sum of products, rounded once to F32, and leaves every other element; an element is poisoned
with its operands, or by an invalid operation where TRAPEN.NV was set at issue.  What its share group has read of A stands
for the loop's own read.  A step but the last keeps the loop in flight with one more block done. -/
def Claims.MatrixStepAccumulates : Prop :=
  ∀ (s v : State) (id : Nat) (m : MatOp) (t : Team) (ws : List (Nat × Bool)),
    Tab.find s.matops id = some m → m.op = 5 ∨ m.op = 6 → m.stopped = false → m.finished = false → m.shadow = false →
    m.wait = none → m.kdone < m.nb → s.team m.team = some t → s.matReady id m = true →
    (∀ w ∈ m.words m.kdone, isFabricWord w = false) → (s.zeroAcc m).matWords m none 0 (m.words m.kdone) = .ok (v, ws) →
    let na := m.mm * m.rowWords true m.kdone
    let nb := m.nn * m.rowWords false m.kdone
    let wa := match m.fetched.find? fun f => f.1 = m.kdone with
      | some f => f.2
      | none => ws.take na ++ (ws.drop (na + nb)).take m.mm
    let ra := m.rowsOf true m.kdone wa (wa.drop na)
    let rb := m.rowsOf false m.kdone (ws.drop na) ((ws.drop (na + nb)).drop m.mm)
    ∃ u, exec (.matrixKStep id) s = .next u ∧
      (∀ i j, i < m.mm → j < m.nn → j < 128 →
        let old := if m.ctl.getLsbD 34 = true ∧ m.kdone = 0 then AEl.zero else (v.opAcc m).el i j
        let x := ra.getD i ([], false)
        let y := rb.getD j ([], false)
        let b := blockSum x.1 y.1
        let z := Fmt.f32.add Rnd.rne (Fmt.f32.decode old.val.toNat) (Fmt.f32.decode b.1)
        (u.opAcc m).el i j =
          ⟨BitVec.ofNat 32 z.1, old.pois || x.2 || y.2 || (m.trapNv && (b.2 ||| z.2).getLsbD 0)⟩) ∧
      (∀ i j, i < 64 → j < 128 → m.mm ≤ i ∨ m.nn ≤ j → (u.opAcc m).el i j = (v.opAcc m).el i j) ∧
      (m.kdone + 1 < m.nb → ∃ e f, Tab.find u.matops id = some { m with kdone := m.kdone + 1, exc := e, fetched := f } ∧
        (m.op = 5 → f = m.fetched)) ∧
      (m.kdone + 1 = m.nb → Tab.find u.matops id = none ∧ (u.opAcc m).full = true)

/-- R192, R234, R272, R376, R380, R381, R383, R388: matrix loops start, and a step accumulates. The model's own choices
in it: the share group (log 59), TRAPEN.NV at issue (log 28).  Under its conditions `exec` answers a next state for:
MLOOP, MLOOPQ, MATRIX_K_STEP. -/
def Obligations.MatrixLoops : Prop :=
  Claims.MatrixLoopsStart ∧ Claims.MatrixStepAccumulates

/-- R192, R376, R385, R387: MDRAIN and ACCSAVE read a full accumulator and mark their token empty, ACCLOAD marks its
accumulator empty; each puts one operation of the unit in flight over its ranges. -/
def Claims.AccumulatorTransfersStart : Prop :=
  let reads (g : Group) (i : Nat) : Prop := g.accOwned.getLsbD i = true ∧
    ∀ p, g.spec = some p → i < 8 ∧ p.shadowed.getLsbD i = false
  (∀ (x : Pfx) (r : RRR) (s : State) (g : Group) (c : Code) (t : Team), Issues (.mdrain x r) c s g → s.team g.team = some t →
    let b := r.b.toNat
    let ty := Claims.typ x 11
    let mx := decide (ty ∈ [12, 13, 14, 15, 16, 18])
    let al := if ty = 7 ∨ ty = 8 then 8 else 4
    let rect := g.sv (b + 3)
    reads g r.a.toNat → (s.accOf g r.a.toNat).full = true →
    Ready g x ([.s b 2, .s (b + 3) 1, .s r.d.toNat 1] ++ if mx then [.s (b + 2) 1] else []) →
    (∀ k, k < 4 → k ≠ 2 ∨ mx = true → (g.sel (b + k)).pois = false) →
    (g.sv b).toNat % al = 0 → fld (g.sv (b + 1)) 0 32 % al = 0 → fld (g.sv (b + 1)) 48 16 = 0 →
    0 < fld rect 0 7 → fld rect 0 7 ≤ 64 → fld rect 7 1 = 0 → fld rect 15 1 = 0 → fld rect 31 33 = 0 →
    0 < fld rect 16 8 → fld rect 16 8 ≤ 128 → fld rect 8 7 + fld rect 0 7 ≤ 64 → fld rect 24 7 + fld rect 16 8 ≤ 128 →
    (mx = true → fld rect 16 8 % 32 = 0 ∧ fld rect 24 7 % 32 = 0) →
    let m := newMat g (.mdrain x r) x 7 r.d.toNat r.a.toNat r.a.toNat ((List.range 4).map fun k => g.sv (b + k)) 0
    Claims.unitTakes s g m.drainSpans →
    ∃ u h, Completes (.mdrain x r) s u g h c none ∧ h = { g.emptyS r.d.toNat with rstream := h.rstream } ∧
      (x.m.round ≠ 5 → h.rstream = g.rstream) ∧
      u = { s with nextId := s.nextId + 1, matops := Tab.put s.matops s.nextId m, cores := u.cores, teams := u.teams }) ∧
  (∀ (x : Pfx) (r : RRR) (s : State) (g : Group) (c : Code) (t : Team), Issues (.accsave x r) c s g → s.team g.team = some t →
    reads g r.a.toNat → (s.accOf g r.a.toNat).full = true → Ready g x [.s r.b.toNat 1, .s r.d.toNat 1] →
    (g.sel r.b.toNat).pois = false → (g.sv r.b.toNat).toNat % 64 = 0 →
    let a := (g.sv r.b.toNat).toNat
    Claims.unitTakes s g [⟨x.m.space.toNat, a, a + 33856, true⟩] →
    ∃ u, Completes (.accsave x r) s u g (g.emptyS r.d.toNat) c none ∧
      let m := newMat g (.accsave x r) x 8 r.d.toNat r.a.toNat r.a.toNat [g.sv r.b.toNat] 0
      u = { s with nextId := s.nextId + 1, matops := Tab.put s.matops s.nextId m, cores := u.cores, teams := u.teams }) ∧
  (∀ (x : Pfx) (r : RRR) (s : State) (g : Group) (c : Code) (t : Team) (n : Nat), Issues (.accload x r) c s g →
    s.team g.team = some t → Claims.acts g r.d.toNat n → (s.accOf g n).full = true → Ready g x [.s r.a.toNat 1] →
    (g.sel r.a.toNat).pois = false → (g.sv r.a.toNat).toNat % 64 = 0 →
    let a := (g.sv r.a.toNat).toNat
    Claims.unitTakes s g [⟨x.m.space.toNat, a, a + 0x8400, false⟩] →
    ∃ u, Completes (.accload x r) s u g g c none ∧
      let m := newMat g (.accload x r) x 9 0 n r.d.toNat [g.sv r.a.toNat] 0
      u = { s with nextId := s.nextId + 1, matops := Tab.put s.matops s.nextId m, cores := u.cores, teams := u.teams } ∧
      ∀ j, j < 16 → u.accOf g j = if j = n then { s.accOf g n with full := false } else s.accOf g j)

/-- R376, R385 to R387: a drain or save completes by writing its units to their places, releasing its ranges and filling
its token with its byte count, its exceptions raised; a load by giving its accumulator the elements of its image and
marking it full. -/
def Claims.AccumulatorTransfersComplete : Prop :=
  (∀ (s v : State) (id : Nat) (m : MatOp) (t : Team) (g : Group) (ks : List (Nat × Nat × Bool)),
    Tab.find s.matops id = some m → m.op = 7 ∨ m.op = 8 → m.stopped = false → m.finished = false → m.wait = none →
    s.team m.team = some t → s.matReady id m = true →
    (∀ u ∈ (s.matUnits m).2.1, isFabricWord (m.mod.space.toNat, u.1) = false) →
    let n := (s.matUnits m).1
    s.unitPlaces m m.mod.space.toNat (s.matUnits m).2.1 = .ok (v, ks) → v.group m.core m.slot = some g → g.spec = none →
    (ks.map (·.1)).Pairwise (fun k j => k + n ≤ j ∨ j + n ≤ k) →
    ∃ u, exec (.matrixOpComplete id) s = .next u ∧ Tab.find u.matops id = none ∧
      (∀ k ∈ ks, u.readLE k.1 n = k.2.1 % 256 ^ n) ∧ (∀ a, (∀ k ∈ ks, a < k.1 ∨ k.1 + n ≤ a) → u.byte a = v.byte a) ∧
      u.group m.core m.slot = some { (g.raise (s.matUnits m).2.2.1).writeS m.dst
        (BitVec.ofNat 64 (s.matUnits m).2.2.2) false with tokens := g.tokens ||| 1#128 <<< m.dst }) ∧
  (∀ (s v : State) (id : Nat) (m : MatOp) (t : Team) (ws : List (Nat × Bool)),
    Tab.find s.matops id = some m → m.op = 9 → m.stopped = false → m.finished = false → m.shadow = false →
    m.wait = none → s.team m.team = some t → s.matReady id m = true →
    isFabricWord (m.mod.space.toNat, m.r 0) = false → s.matWords m none 0 m.imageWords = .ok (v, ws) →
    v.team m.team = some t →
    ∃ u, exec (.matrixOpComplete id) s = .next u ∧ Tab.find u.matops id = none ∧ (u.opAcc m).full = true ∧
      u.mem = v.mem ∧ ∀ i j, i < 64 → j < 128 → (u.opAcc m).el i j =
        let w := ws.getD (128 * i + j) (0, false)
        let p := ws.getD (8192 + (128 * i + j) / 32) (0, false)
        ⟨BitVec.ofNat 32 w.1, w.2 || p.2 || p.1.testBit ((128 * i + j) % 32)⟩)

/-- R192, R376, R385 to R387: drains, saves and loads of accumulators start and complete.  Under its conditions `exec`
answers a next state for: MDRAIN, ACCSAVE, ACCLOAD, MATRIX_OP_COMPLETE. -/
def Obligations.AccumulatorTransfers : Prop :=
  Claims.AccumulatorTransfersStart ∧ Claims.AccumulatorTransfersComplete

/-! ### Sequence generators and the batch table -/

/-- The operands of an instruction of Carillon's context that name a slot (R373): Carillon is on, the group is of its
context, and S(a), full and clean, holds a slot in use, in its low 13 bits, and nothing from bit n on; and the group's acquires are performed (R128). -/
def Claims.slotOk (s : State) (g : Group) (a n : Nat) : Prop :=
  (s.reg 0x4000).getLsbD 0 = true ∧ g.asid = (s.reg 0x4000).extractLsb' 11 16 ∧ (g.sel a).full = true ∧
    (g.sel a).pois = false ∧ fld (g.sv a) 0 13 < fld (s.reg 0x4000) 27 14 ∧ (g.sv a).toNat < 2 ^ n ∧
    s.acquired g.core g.slot = true

/-- A generator with increment c after n steps from a state (R276). -/
def Claims.steps (c st : BitVec 128) : Nat → BitVec 128
  | 0 => st
  | n + 1 => lcgNext c (Claims.steps c st n)

/-- R277: advancing a generator by n draws is n steps of it. -/
def Claims.JumpIsRepeatedSteps : Prop :=
  ∀ (c st : BitVec 128) (n : Nat), n < 2 ^ 128 → lcgJump c (BitVec.ofNat 128 n) st = Claims.steps c st n

/-- R276 to R278, R392, R393: RNGDRAW takes one draw of the slot's generator for each active lane, in ascending order,
which arrive late; RNGJUMP advances it by S(b) draws; RNGGET reads a field late; RNGSET writes the state, an odd
increment or the checkpoint, checkpoints and rewinds, and sends a slot that is not free to error for an even increment; RNGFLT turns a draw into the F32 value of its high 24 bits. -/
def Claims.SequenceGenerators : Prop :=
  (∀ (x : Pfx) (r : RRR) (s v w z : State) (g : Group) (c : Code) (st inc : BitVec 128), Issues (.rngdraw x r) c s g →
    let act := g.active x
    let ls := lanesOf g.width act
    Ready g x [.s r.a.toNat 1, .v r.d.toNat 1 act] → Claims.slotOk s g r.a.toNat 13 →
    (ls = [] → Completes (.rngdraw x r) s s g g c none) ∧
    (ls ≠ [] → s.slotRng (fld (g.sv r.a.toNat) 0 13) 0 = .ok (v, st) → v.slotRng (fld (g.sv r.a.toNat) 0 13) 1 = .ok (w, inc) →
      w.setSlotRng (fld (g.sv r.a.toNat) 0 13) 0 (Claims.steps inc st ls.length) = .ok z →
      ∃ u p h, Completes (.rngdraw x r) s u g h c none ∧ u = { z with nextId := z.nextId + 1, memops := u.memops } ∧
        Tab.find u.memops z.nextId = some p ∧ p.kind = .result ∧ p.dstKind = .v ∧ p.dst = g.vreg r.d.toNat ∧
        p.lanes.map LaneAcc.lane = ls ∧
        (∀ (k : Nat) (l : LaneAcc), p.lanes[k]? = some l →
          l.data = ((lcgOut (Claims.steps inc st (k + 1))).extractLsb' 0 32).zeroExtend 128) ∧
        ∀ l ∈ ls, l < 64 → (h.vel r.d.toNat l).full = false)) ∧
  (∀ (x : Pfx) (r : RRR) (s v w z : State) (g : Group) (c : Code) (st inc : BitVec 128), Issues (.rngjump x r) c s g →
    Ready g x [.s r.a.toNat 1, .s r.b.toNat 1] → Claims.slotOk s g r.a.toNat 13 → (g.sel r.b.toNat).pois = false →
    s.slotRng (fld (g.sv r.a.toNat) 0 13) 0 = .ok (v, st) → v.slotRng (fld (g.sv r.a.toNat) 0 13) 1 = .ok (w, inc) →
    w.setSlotRng (fld (g.sv r.a.toNat) 0 13) 0 (Claims.steps inc st (g.sv r.b.toNat).toNat) = .ok z →
    Completes (.rngjump x r) s z g g c none) ∧
  (∀ (x : Pfx) (r : RRR) (s v : State) (g : Group) (c : Code) (k : Nat), Issues (.rngget x r) c s g →
    Ready g x [.s r.a.toNat 1, .s r.d.toNat 2] → Claims.slotOk s g r.a.toNat 13 →
    s.slotPlace (fld (g.sv r.a.toNat) 0 13) 0 = .ok (v, k) →
    ∃ u p l, Completes (.rngget x r) s u g ((g.emptyS r.d.toNat).emptyS (r.d.toNat + 1)) c none ∧
      u = { v with nextId := v.nextId + 1, memops := u.memops } ∧ Tab.find u.memops v.nextId = some p ∧
      p.kind = .result ∧ p.dstKind = .s ∧ p.dst = r.d.toNat ∧ p.nreg = 2 ∧ p.lanes = [l] ∧
      l.data = BitVec.ofNat 128 (v.readLE (k + 112 + 16 * r.b.toNat) 16) ∧
      l.pois = v.isPoisoned (k + 112 + 16 * r.b.toNat) 16) ∧
  (∀ (x : Pfx) (r : RRR) (s v w : State) (g : Group) (c : Code) (st : BitVec 128), Issues (.rngset x r) c s g →
    let k := r.b.toNat
    let slot := fld (g.sv r.a.toNat) 0 13
    let val : BitVec 128 := g.sv (r.d.toNat + 1) ++ g.sv r.d.toNat
    Ready g x [.s r.a.toNat 1] → Claims.slotOk s g r.a.toNat 13 →
    (k ≤ 2 → ∀ j, j < 2 → (g.sel (r.d.toNat + j)).full = true ∧ (g.sel (r.d.toNat + j)).pois = false) →
    ((k = 0 ∨ k = 2 ∨ (k = 1 ∧ val.getLsbD 0 = true)) → s.setSlotRng slot k val = .ok w →
      Completes (.rngset x r) s w g g c none) ∧
    (k = 1 → val.getLsbD 0 = false → ∀ d, s.slotDw slot 0 = .ok (v, d) →
      (fld d 0 4 = 0 → Completes (.rngset x r) s v g g c none) ∧
      (fld d 0 4 ≠ 0 → v.slotError slot 3 = .ok w → Completes (.rngset x r) s w g g c none)) ∧
    (k = 3 → s.slotRng slot 0 = .ok (v, st) → v.setSlotRng slot 2 st = .ok w → Completes (.rngset x r) s w g g c none) ∧
    (k = 4 → s.slotRng slot 2 = .ok (v, st) → v.setSlotRng slot 0 st = .ok w → Completes (.rngset x r) s w g g c none)) ∧
  (∀ (x : Pfx) (r : RRR) s g c, Issues (.rngflt x r) c s g →
    let act := g.active x
    Ready g x [.v r.a.toNat 1 act, .v r.d.toNat 1 act] →
    Completes (.rngflt x r) s s g ((lanesOf g.width act).foldl (fun h l =>
      let e := g.vel r.a.toNat l
      h.writeV r.d.toNat l (BitVec.ofNat 32 (Fmt.f32.round Rnd.rne false (e.val.toNat / 256) (-24) false).1) e.pois) g) c none)

/-- R395, R396: BTLD stores the slot's entry to memory at S(b) as one access of the group, marking S(d) empty, which
receives the entry's first dword, with its poison, once the store is performed; BTST, its buffer read, writes the dwords of its mask into the entry; SEQSTAT writes the slot's state, error code and
length.  Each but BTLD leaves the core's L1 empty, as an acquire at K. -/
def Claims.BatchEntries : Prop :=
  (∀ (x : Pfx) (r : RRR) (s : State) (g : Group) (c : Code) (t : Team) (k : Nat), Issues (.btld x r) c s g →
    Ready g x [.s r.a.toNat 1, .s r.b.toNat 1, .s r.d.toNat 1] → Claims.slotOk s g r.a.toNat 13 →
    (g.sel r.b.toNat).pois = false → (g.sv r.b.toNat).toNat % 8 = 0 → s.quiet g.core g.slot = true →
    s.slotPlace (fld (g.sv r.a.toNat) 0 13) 0 = .ok (s, k) →
    let n := if (g.sv r.b.toNat).toNat % 16 = 0 then 16 else 8
    let o := { Claims.op g x c .store 8 n with
      order := 1, scope := 4, mask := 1, per := 32, dstKind := .s, dst := r.d.toNat
      lanes := (List.range (256 / n)).map fun j =>
        { Claims.lane j (g.sv r.b.toNat + BitVec.ofNat 64 (n * j)) (s.readLE (k + n * j) n) 0 with
          pois := s.isPoisoned (k + n * j) n } }
    Claims.passes s g t o →
    Claims.accesses (.btld x r) s g (g.emptyS r.d.toNat) c t o) ∧
  (∀ (s : State) (k : Nat) (o : MemOp) (g : Group) (l : LaneAcc) (ls : List LaneAcc), Tab.find s.memops k = some o →
    o.kind = .store → o.dstKind = .s → o.nreg = 1 → o.type = 8 → o.lanes = l :: ls → o.isDone = true →
    o.engine = none → o.writesP = none → s.group o.core o.slot = some g → g.core = o.core → g.slot = o.slot →
    g.spec = none →
    Tab.find (s.finishOp k).memops k = none ∧ ∃ h, (s.finishOp k).group o.core o.slot = some h ∧
      h.sel o.dst = ⟨l.data.extractLsb' 0 64, true, l.pois⟩) ∧
  (∀ (x : Pfx) (r : RRR) (s v : State) (g : Group) (c : Code) (n p : Nat) (o : MemOp), Issues (.btst x r) c s g →
    Ready g x [.s r.a.toNat 1, .s r.b.toNat 1, .s r.d.toNat 1] → Claims.slotOk s g r.a.toNat 13 →
    (g.sel r.b.toNat).pois = false → (g.sv r.b.toNat).toNat % 8 = 0 → (g.sel r.d.toNat).pois = false →
    let m := g.sv r.d.toNat
    m.toNat < 2 ^ 32 → m &&& 0x3015 = 0 → s.quiet g.core g.slot = true → s.pulled g.core g.slot = some (n, o) →
    o.lanes.length = 32 → (∀ l ∈ o.lanes, l.at_ = .done ∧ l.pois = false) →
    State.slotPlace { s with memops := Tab.drop s.memops n } (fld (g.sv r.a.toNat) 0 13) 1 = .ok (v, p) →
    let el (k : Nat) : BitVec 64 := (o.lanes.getD k (Claims.lane 0 0 0 0)).data.extractLsb' 0 64
    ((m.getLsbD 16 = true ∨ m.getLsbD 17 = true) →
      (if m.getLsbD 16 = true then el 16 else BitVec.ofNat 64 (v.readLE (p + 128) 8)).getLsbD 0 = true) →
    ∃ u, Completes (.btst x r) s u g g c none ∧
      (∀ k, k < 32 → u.readLE (p + 8 * k) 8 = if m.getLsbD k = true then (el k).toNat else v.readLE (p + 8 * k) 8) ∧
      (∀ a, a < p ∨ p + 256 ≤ a → u.byte a = v.byte a) ∧ ∀ q, Tab.find u.l1 (g.core * 2 ^ 72 + q) = none ∨ 2 ^ 72 ≤ q) ∧
  (∀ (x : Pfx) (r : RRR) (s v : State) (g : Group) (c : Code) (k : Nat), Issues (.seqstat x r) c s g →
    Ready g x [.s r.a.toNat 1, .s r.d.toNat 1] → Claims.slotOk s g r.a.toNat 13 → s.quiet g.core g.slot = true →
    s.slotPlace (fld (g.sv r.a.toNat) 0 13) 0 = .ok (v, k) →
    let d := BitVec.ofNat 64 (v.readLE k 8)
    Completes (.seqstat x r) s (v.l1Drop g.core) g (g.writeS r.d.toNat
      ((d.extractLsb' 32 32) ++ (d.extractLsb' 16 16) ++ 0#12 ++ (d.extractLsb' 0 4)) (v.isPoisoned k 8)) c none)

/-- R221, R395 to R399, R418: SEQPARK notes a park for the next boundary; SEQWAKE cancels the parks pending for its slot,
notes a wake and triggers a frame; SEQDONE sets a slot that is neither free nor in error done; SEQEMIT gives 3 where its
tests stop it, and else stores the token, through a window as a store of the group released at F, looks it up in a stop set
of the package and gives the code of its end; MASKLD writes the mask's bits, or none with status 0. -/
def Claims.SequenceRequests : Prop :=
  let slot (g : Group) (r : RRR) : Nat := fld (g.sv r.a.toNat) 0 13
  let ready (s : State) (g : Group) (x : Pfx) (r : RRR) (n : Nat) (os : List Opd) : Prop :=
    Ready g x (.s r.a.toNat 1 :: os) ∧ Claims.slotOk s g r.a.toNat n ∧ s.quiet g.core g.slot = true
  (∀ (x : Pfx) (r : RRR) (s v : State) (g : Group) (c : Code) (k : Nat), Issues (.seqpark x r) c s g → ready s g x r 13 [] →
    s.slotPlace (slot g r) 0 = .ok (v, k) →
    Completes (.seqpark x r) s (State.l1Drop { v with carillon := { v.carillon with
      reqs := v.carillon.reqs ++ [(r.b.toNat % 2, slot g r)] } } g.core) g g c none) ∧
  (∀ (x : Pfx) (r : RRR) (s v : State) (g : Group) (c : Code) (k : Nat), Issues (.seqwake x r) c s g → ready s g x r 13 [] →
    s.slotPlace (slot g r) 0 = .ok (v, k) →
    let w := v.requestWake (slot g r)
    Completes (.seqwake x r) s (w.l1Drop g.core) g g c none ∧ w = { v with carillon := w.carillon } ∧
      w.carillon.trigger = true ∧
      (2, slot g r) ∈ w.carillon.reqs ∧ ∀ q ∈ w.carillon.reqs, q.2 = slot g r → 2 ≤ q.1) ∧
  (∀ (x : Pfx) (r : RRR) (s v w : State) (g : Group) (c : Code) (d : BitVec 64), Issues (.seqdone x r) c s g →
    ready s g x r 13 [] → s.slotDw (slot g r) 0 = .ok (v, d) →
    (fld d 0 4 = 0 ∨ fld d 0 4 = 8 → Completes (.seqdone x r) s (v.l1Drop g.core) g g c none) ∧
    (fld d 0 4 ≠ 0 → fld d 0 4 ≠ 8 → v.setSlotState (slot g r) 7 = .ok w →
      Completes (.seqdone x r) s (w.l1Drop g.core) g g c none)) ∧
  (∀ (x : Pfx) (r : RRR) (s v : State) (g : Group) (c : Code) (n : Nat), Issues (.seqemit x r) c s g →
    ready s g x r 13 [.s r.b.toNat 1, .s r.d.toNat 1] → (g.sel r.b.toNat).pois = false → (g.sv r.b.toNat).toNat < 2 ^ 32 →
    let tok := (g.sv r.b.toNat).toNat
    (s.emitTests (slot g r) tok = .ok (v, none) →
      Completes (.seqemit x r) s (v.l1Drop g.core) g (g.writeS r.d.toNat 3 false) c none) ∧
    ∀ (e : Emission) (w y z : State) (h : Group) (stop : Bool), s.emitTests (slot g r) tok = .ok (v, some e) →
      (if isFabric e.out = true then
          v.access g { Claims.op g x c .store 6 4 with
            space := 0, order := 2, scope := 5, mask := 1, lanes := [Claims.lane 0 e.out tok 0] } true = .ok (w, h)
        else v.vwrite v.carAsid e.out 4 tok = .ok w ∧ h = g) →
      isFabric e.stops = false ∨ e.nstop = 0 → w.isStop e.stops tok e.nstop = .ok (y, stop) →
      y.emitEnd (slot g r) tok stop = .ok (z, n) →
      Completes (.seqemit x r) s (z.l1Drop g.core) g (h.writeS r.d.toNat (BitVec.ofNat 64 n) false) c none) ∧
  (∀ (x : Pfx) (r : RRR) (s v : State) (g : Group) (c : Code) (m : Option Nat), Issues (.maskld x r) c s g →
    ready s g x r 20 [.s r.b.toNat 1, .p r.d.toNat, .p 14] → (g.sel r.b.toNat).pois = false →
    (g.sv r.b.toNat).toNat < 2 ^ 32 →
    s.grammarMask (slot g r) (fld (g.sv r.a.toNat) 13 6) ((g.sv r.a.toNat).getLsbD 19) (g.sv r.b.toNat).toNat g.width =
      .ok (v, m) →
    Completes (.maskld x r) s (v.l1Drop g.core) g ((g.writeP r.d.toNat (g.active x) (BitVec.ofNat 64 (m.getD 0))).writeP 14
      g.allLanes (if m.isSome then g.allLanes else 0)) c none)

/-- R279, R411, R412, R415, R416, R418: the tests that SEQEMIT begins with: a slot that does not run emits nothing, a token
past the vocabulary, a temperature or a top-p in an error class sends it to error with the code, and any other emits to
OUT + 4 × NEMIT; an error sets the slot's state and code and writes a record of KIND 2; a token is a stop if it is one of
the set; the end counts the token, notes it as the last, and makes the slot done at a stop or when a limit is reached. -/
def Claims.Emission : Prop :=
  (∀ (s v : State) (slot tok : Nat) (d : BitVec 64), s.slotDw slot 0 = .ok (v, d) →
    ((fld d 0 4 < 2 ∨ 4 < fld d 0 4) → s.emitTests slot tok = .ok (v, none)) ∧
    (2 ≤ fld d 0 4 → fld d 0 4 ≤ 4 → ∀ (w : State) (e : BitVec 64), v.slotDw slot 6 = .ok (w, e) →
      (fld e 32 32 ≤ tok → ∀ u, w.slotError slot (if tok = 0xFFFFFFFE then 8 else 7) = .ok u →
        s.emitTests slot tok = .ok (u, none)) ∧
      (tok < fld e 32 32 → ∀ (y : State) (f : BitVec 64), w.slotDw slot 5 = .ok (y, f) →
        let temp := f.extractLsb' 0 32
        let topp := f.extractLsb' 32 32
        let badTemp : Prop := Claims.isNan temp = true ∨ (temp.msb = true ∧ temp.extractLsb' 23 8 ≠ 0#8)
        let badTopp : Prop := Claims.isNan topp = true ∨ (topp.msb = true ∧ topp ≠ 0x80000000#32)
        (badTemp → ∀ u, y.slotError slot 4 = .ok u → s.emitTests slot tok = .ok (u, none)) ∧
        (¬badTemp → badTopp → ∀ u, y.slotError slot 5 = .ok u → s.emitTests slot tok = .ok (u, none)) ∧
        (¬badTemp → ¬badTopp → ∀ (a b c z : State) (d4 d7 d8 d11 : BitVec 64), y.slotDw slot 4 = .ok (a, d4) →
          a.slotDw slot 7 = .ok (b, d7) → b.slotDw slot 8 = .ok (c, d8) → c.slotDw slot 11 = .ok (z, d11) →
          s.emitTests slot tok = .ok (z, some ⟨d11 + 4 * (d4.extractLsb' 0 32).zeroExtend 64, d7, fld d8 0 11⟩))))) ∧
  (∀ (s v w : State) (slot code : Nat) (d : BitVec 64), code < 2 ^ 16 → s.slotDw slot 0 = .ok (v, d) →
    v.setSlotDw slot 0 (d.extractLsb' 32 32 ++ BitVec.ofNat 16 code ++ d.extractLsb' 4 12 ++ 8#4) = .ok w →
    s.slotError slot code = .ok ((w.emit 0 (record2 (w.slotVa slot 0) slot 0 2 code w.now 0x61 0 w.carAsid 643)).leaveOrder
      slot)) ∧
  (∀ (s : State) (va : BitVec 64) (tok : Nat), s.isStop va tok 0 = .ok (s, false)) ∧
  (∀ (s v w : State) (va : BitVec 64) (tok n x : Nat) (b : Bool), s.vread s.carAsid va 4 = .ok (v, x) →
    v.isStop (va + 4) tok n = .ok (w, b) → s.isStop va tok (n + 1) = .ok (w, decide (x = tok) || b)) ∧
  ∀ (s a b c w : State) (slot tok : Nat) (stop : Bool) (d2 d3 d4 : BitVec 64), s.slotDw slot 2 = .ok (a, d2) →
    a.slotDw slot 3 = .ok (b, d3) → b.slotDw slot 4 = .ok (c, d4) → tok < 2 ^ 32 →
    c.setSlotDw slot 4 (BitVec.ofNat 32 tok ++ (d4.extractLsb' 0 32 + 1)) = .ok w →
    let n := fld d4 0 32 + 1
    let full : Prop := fld d3 0 32 ≤ fld d2 0 32 + n ∨ fld d3 32 32 ≤ n
    (stop = false → ¬full → s.emitEnd slot tok stop = .ok (w, 0)) ∧
    ((stop = true ∨ full) → ∀ u, w.setSlotState slot 7 = .ok u →
      s.emitEnd slot tok stop = .ok (u, if stop then 1 else 2))

/-- R399, R420: no grammar table allows every token; a node beyond those of the slot, or without a mask, has none; the mask
of a node, or its beyond-leaf mask, lies behind the table's header, and lane l takes the bit of token base + l, or 0 past
the vocabulary. -/
def Claims.GrammarMasks : Prop :=
  (∀ (s v : State) (slot node base n : Nat) (beyond : Bool) (mt : BitVec 64), s.slotDw slot 9 = .ok (v, mt) →
    (mt = 0 → s.grammarMask slot node beyond base n = .ok (v, some (2 ^ n - 1))) ∧
    (mt ≠ 0 → ∀ (w y z : State) (d6 d8 : BitVec 64) (h : Nat), v.slotDw slot 6 = .ok (w, d6) →
      w.slotDw slot 8 = .ok (y, d8) → y.vread y.carAsid mt 64 = .ok (z, h) → h < 2 ^ 128 →
      let present : Bool := h.testBit (node + if beyond then 64 else 0)
      let there : Prop := (node = 0 ∨ node < fld d8 16 7) ∧ node < 64 ∧ present = true
      (¬there → node < 64 → s.grammarMask slot node beyond base n = .ok (z, none)) ∧
      (there → ∀ (u : State) (m : Nat),
        z.maskBits (mt + BitVec.ofNat 64 (64 + (fld d6 32 32 + 511) / 512 * 64 * (node + if beyond then 64 else 0)))
          (fld d6 32 32) base n = .ok (u, m) →
        s.grammarMask slot node beyond base n = .ok (u, some m)))) ∧
  (∀ (s v : State) (va : BitVec 64) (vocab base n m : Nat), s.maskBits va vocab base n = .ok (v, m) →
    m < 2 ^ n ∧ ∀ k, k < n → vocab ≤ base + k → m.testBit k = false) ∧
  ∀ (s v : State) (va : BitVec 64) (vocab base n m : Nat), s.maskBits va vocab base n = .ok (v, m) →
    (vocab ≤ base + n → s.maskBits va vocab base (n + 1) = .ok (v, m)) ∧
    (base + n < vocab → ∀ (w : State) (x : Nat), v.vread v.carAsid (va + BitVec.ofNat 64 ((base + n) / 8)) 1 = .ok (w, x) →
      ∃ q, s.maskBits va vocab base (n + 1) = .ok (w, q) ∧ q.testBit n = x.testBit ((base + n) % 8) ∧
        ∀ k, k < n → q.testBit k = m.testBit k)

/-- R221, R279, R395 to R399, R411, R412, R415, R416, R418, R420: batch-table entries, the requests of sequences,
emission and grammar masks. The model's own choices in it: poison of entries (log 55), MASKLD with no active lane (log
66), where a token and its stop list lie (log 52).  Under its conditions `exec` answers a next state for: BTLD, BTST,
SEQPARK, SEQWAKE, SEQDONE, SEQEMIT, MASKLD, SEQSTAT. -/
def Obligations.BatchTable : Prop :=
  Claims.BatchEntries ∧ Claims.SequenceRequests ∧ Claims.Emission ∧ Claims.GrammarMasks

/-- R85, R192, R392: the draws of an RNGDRAW, and the field that RNGGET reads, arrive: each lane's register, or the pair of
scalar registers, is full with its value and poison, and nothing else of the group changes. -/
def Claims.GeneratorResultsArrive : Prop :=
  ∀ (s : State) (k : Nat) (o : MemOp) (g : Group), Tab.find s.memops k = some o → o.kind = .result → o.per = 1 →
    o.engine = none → o.writesP = none → (o.lanes.map LaneAcc.lane).Pairwise (· < ·) →
    (∀ l ∈ o.lanes, l.lane < 64 ∧ l.at_ = .placed 0) → s.opReady k o = true → (∀ e ∈ s.memops, e.2.lines = []) →
    s.group o.core o.slot = some g → g.spec = none →
    ∃ t h, exec (.loadDataArrival k (BitVec.allOnes 64) false) s = .next t ∧ t.group o.core o.slot = some h ∧
      Tab.find t.memops k = none ∧ t.mem = s.mem ∧
      (∀ j, j ≠ gkey o.core o.slot → Tab.find t.groups j = Tab.find s.groups j) ∧
      (o.dstKind = .v → o.nreg = 1 → o.type = 6 →
        (∀ l ∈ o.lanes, h.vblk o.dst l.lane = Claims.lane32 (l.data.extractLsb' 0 32) l.pois) ∧
        (∀ j m, m < 64 → (∀ l ∈ o.lanes, ¬(m = l.lane ∧ j = o.dst)) → h.vblk j m = g.vblk j m) ∧
        h.s = g.s ∧ h.p = g.p ∧ h.flags = g.flags) ∧
      (o.dstKind = .s → o.nreg = 2 → ∀ l, o.lanes = [l] →
        h = (g.writeS o.dst (l.data.extractLsb' 0 64) l.pois).writeS (o.dst + 1) (l.data.extractLsb' 64 64) l.pois)

/-- R85, R192, R276 to R278, R392, R393: the sequence generators, whose jump is repeated steps, and the arrival of what
they give.  Under its conditions `exec` answers a next state for: RNGDRAW, RNGJUMP, RNGGET, RNGSET, RNGFLT,
LOAD_DATA_ARRIVAL. -/
def Obligations.Generators : Prop :=
  Claims.JumpIsRepeatedSteps ∧ Claims.SequenceGenerators ∧ Claims.GeneratorResultsArrive

/-! ### Bitmaps, tapes, dependence counters and weight slots -/

/-- R401 to R403: BRANK, BSEL and BCNT read the whole bitmap that their selector sizes, marking their destination empty;
BSET and BCLR change the bit of each active lane that lies in the bitmap by an atomic on its word, the status of
the others 0 at once. -/
def Claims.BitmapInstructions : Prop :=
  let size (r : RRR) : Nat := 1024 * 2 ^ (r.b.toNat % 4)
  let words (g : Group) (r : RRR) : List LaneAcc := (List.range (size r / 32)).map fun j =>
    Claims.lane j (g.sv r.a.toNat + BitVec.ofNat 64 (4 * j)) 0 0
  let base (g : Group) (r : RRR) : Prop := (g.sel r.a.toNat).pois = false ∧ (g.sv r.a.toNat).toNat % 64 = 0
  (∀ (k : Bool) (x : Pfx) (r : RRR) s g c t,
    let i : Instr := if k then .bsel x r else .brank x r
    Issues i c s g →
    let act := g.active x
    Ready g x [.s r.a.toNat 1, .v r.d.toNat 1 act] → base g r →
    (act = 0 → Completes i s s g g c none) ∧
    (act ≠ 0 →
      let o := { Claims.op g x c .bitmap 6 4 with
        aop := if k then 1 else 0, dstKind := .v, dst := g.vreg r.d.toNat, mask := act, per := 4, lanes := words g r }
      Claims.passes s g t o →
      ∃ h, Claims.accesses i s g h c t o ∧ h.s = g.s ∧ h.p = g.p ∧
        ∀ j l, l < 64 → h.vblk j l =
          { g.vblk j l with full := (g.vblk j l).full && !(decide (j = g.vreg r.d.toNat) && act.getLsbD l) })) ∧
  (∀ (x : Pfx) (r : RRR) s g c t, Issues (.bcnt x r) c s g → Ready g x [.s r.a.toNat 1, .s r.d.toNat 1] → base g r →
    let o := { Claims.op g x c .bitmap 6 4 with
      aop := 4, dstKind := .s, dst := r.d.toNat, mask := 0, per := 4, lanes := words g r }
    Claims.passes s g t o → Claims.accesses (.bcnt x r) s g (g.emptyS r.d.toNat) c t o) ∧
  (∀ (set : Bool) (x : Pfx) (r : RRR) s g c t,
    let i : Instr := if set then .bset x r else .bclr x r
    Issues i c s g →
    let act := g.reissue.getD (g.active x)
    let pos (l : Nat) : Nat := (g.vel r.d.toNat l).val.toNat
    Ready g x [.s r.a.toNat 1, .v r.d.toNat 1 act, .p 14] → base g r → Claims.dataClean g r.d.toNat 1 act → act ≠ 0 →
    let ins := (lanesOf g.width act).filter fun l => decide (pos l < size r)
    (ins = [] → Completes i s s g (g.writeP 14 act 0) c none) ∧
    (ins ≠ [] →
      let o := { Claims.op g x c .atomic 6 4 with
        aop := if set then 4 else 3, mask := act, writesP := some 14
        lanes := ins.map fun l => Claims.lane l (g.sv r.a.toNat + BitVec.ofNat 64 (4 * (pos l / 32)))
          (if set then 2 ^ (pos l % 32) else 2 ^ 32 - 1 - 2 ^ (pos l % 32)) 0 }
      Claims.passes s g t o →
      Claims.accesses i s g ((g.writeP 14 (act &&& ~~~maskOf ins) 0).emptyP 14) c t o))

/-- Bit i of a bitmap whose word j lies at P j (R401). -/
def Claims.bit (s : State) (P : Nat → Nat) (i : Nat) : Bool := (s.readLE (P (i / 32)) 4).testBit (i % 32)

/-- The set bits of a bitmap below a position. -/
def Claims.below (s : State) (P : Nat → Nat) (pos : Nat) : Nat := ((List.range pos).filter (Claims.bit s P)).length

/-- Whether one of the first n words of a bitmap is poisoned. -/
def Claims.poisonedWords (s : State) (P : Nat → Nat) (n : Nat) : Bool := (List.range n).any fun j => s.isPoisoned (P j) 4

/-- R401, R402: when the words of a bitmap arrive together, BRANK's lanes receive the number of set bits below their position,
BSEL's the position of the set bit of their rank, or the size where there is none, and BCNT's register the number
of set bits, each poisoned by a poisoned word that it uses; no other register and no byte of storage changes. -/
def Claims.BitmapResults : Prop :=
  ∀ (s : State) (k n : Nat) (P : Nat → Nat) (o : MemOp) (g : Group), Tab.find s.memops k = some o → o.kind = .bitmap →
    o.per = 4 → o.bytes = 4 → o.type = 6 → o.engine = none → o.writesP = none → 0 < n → n ≤ 256 → o.lanes.length = n →
    (∀ (j : Nat) (l : LaneAcc), o.lanes[j]? = some l → l.lane = j ∧ l.at_ = .placed (P j)) →
    s.opReady k o = true → (∀ e ∈ s.memops, e.2.lines = []) → Claims.alone s k o → s.group o.core o.slot = some g →
    g.spec = none →
    let size := 32 * n
    ∃ t h, exec (.loadDataArrival k (BitVec.allOnes 64) false) s = .next t ∧ t.group o.core o.slot = some h ∧
      Tab.find t.memops k = none ∧ t.mem = s.mem ∧
      (∀ j, j ≠ gkey o.core o.slot → Tab.find t.groups j = Tab.find s.groups j) ∧
      (o.aop = 0 ∨ o.aop = 1 → h.s = g.s ∧ h.p = g.p ∧ h.flags = g.flags ∧
        ∀ j m, m < 64 → ¬(j = o.dst ∧ m ∈ lanesOf g.width o.mask) → h.vblk j m = g.vblk j m) ∧
      (∀ m ∈ lanesOf g.width o.mask, m < 64 →
        let e := g.vblk o.dst m
        let x := e.val.toNat
        (o.aop = 0 → h.vblk o.dst m = Claims.lane32 (BitVec.ofNat 32 (Claims.below s P (min x size)))
          (Claims.poisonedWords s P ((min x size + 31) / 32) || e.pois)) ∧
        (o.aop = 1 → x < Claims.below s P size → ∃ q, q < size ∧ Claims.bit s P q = true ∧ Claims.below s P q = x ∧
          h.vblk o.dst m = Claims.lane32 (BitVec.ofNat 32 q) (Claims.poisonedWords s P (q / 32 + 1) || e.pois)) ∧
        (o.aop = 1 → Claims.below s P size ≤ x →
          h.vblk o.dst m = Claims.lane32 (BitVec.ofNat 32 size) (Claims.poisonedWords s P n || e.pois))) ∧
      (o.aop = 4 → h = g.writeS o.dst (BitVec.ofNat 64 (Claims.below s P size)) (Claims.poisonedWords s P n))

/-- R401 to R403: the bitmap instructions, and the values that they give.  Under its conditions `exec` answers a next
state for: BRANK, BSEL, BSET, BCLR, BCNT, LOAD_DATA_ARRIVAL. -/
def Obligations.Bitmaps : Prop :=
  Claims.BitmapInstructions ∧ Claims.BitmapResults

/-- n bytes of a structure of R404 that a group reads or writes: in the package's own space and aligned, in no locked range
(R141), and no acquire or overlapping access of the group is still to be performed (R127, R128). -/
def Claims.placed (s : State) (g : Group) (va : BitVec 64) (align n : Nat) (write : Bool) : Prop :=
  addrOk va = true ∧ isFabric va = false ∧ va.toNat % align = 0 ∧
    s.lockHit g.core 0 g.asid va.toNat n write = none ∧ s.inOrder g va n = true

/-- A group with p14's bits all b (R406, R410). -/
def Claims.status (g : Group) (b : Bool) : Group := g.writeP 14 g.allLanes (if b then g.allLanes else 0)

/-- R404 to R406: TAPEGET takes the next entry into four registers with status 1 and counts it, or from an empty closed tape
zeros with status 0 (one whose GET is past its PUT counts as empty); TAPEPUT closes a tape, copies an entry, whose reserved bits are zero as
TAPEGET's are, into one that has room and counts it, or does nothing to
a closed one with status 0. -/
def Claims.Tapes : Prop :=
  (∀ (r : RRR) (s v : State) (g : Group) (c : Code) (b : TapeBlock), Issues (.tapeget r) c s g →
    let va := g.sv r.a.toNat
    let d := r.d.toNat
    Ready g Pfx.none [.s r.a.toNat 1, .s d 4, .p 14] → (g.sel r.a.toNat).pois = false → Claims.placed s g va 64 64 true →
    s.readTape g.asid va = .ok (v, b) →
    (b.puts.toNat ≤ b.gets.toNat → b.gets ≠ b.puts ∨ b.closed = true → Completes (.tapeget r) s (v.l1Drop g.core) g
      (Claims.status ((((g.writeS d 0 false).writeS (d + 1) 0 false).writeS (d + 2) 0 false).writeS (d + 3) 0 false) false) c
      none) ∧
    (b.gets.toNat < b.puts.toNat → ∀ (w z : State) (k : Nat),
      let e := b.base + BitVec.ofNat 64 (32 * (b.gets.toNat % b.size))
      Claims.placed v g e 32 32 false → v.unitPlace g.asid e 0 = .ok (w, k) → fld (w.read64 k) 8 8 = 0 →
      w.cwrite g.core g.asid (va + 24) 8 (b.gets + 1).toNat = .ok z →
      let put (i : Nat) (h : Group) : Group :=
        h.writeS (d + i) (BitVec.ofNat 64 (z.readLE (k + 8 * i) 8)) (z.isPoisoned (k + 8 * i) 8)
      Completes (.tapeget r) s (z.l1Drop g.core) g
        { Claims.status (put 3 (put 2 (put 1 (put 0 g)))) true with lastTape := some e } c none)) ∧
  (∀ (r : RRR) (s v : State) (g : Group) (c : Code) (b : TapeBlock), Issues (.tapeput r) c s g →
    let va := g.sv r.a.toNat
    let src := g.sv r.b.toNat
    Ready g Pfx.none [.s r.a.toNat 1, .s r.b.toNat 1, .p 14] → (g.sel r.a.toNat).pois = false →
    (g.sel r.b.toNat).pois = false → Claims.placed s g va 64 64 true → s.quiet g.core g.slot = true →
    (src ≠ 0 → Claims.placed s g src 32 32 false) → s.readTape g.asid va = .ok (v, b) →
    (src = 0 → ∀ (w z : State) (ctl : Nat), v.vread g.asid (va + 8) 8 = .ok (w, ctl) →
      w.cwrite g.core g.asid (va + 8) 8 (BitVec.ofNat 64 ctl ||| 0x20).toNat = .ok z →
      Completes (.tapeput r) s z g (Claims.status g true) c none) ∧
    (src ≠ 0 → b.closed = true → Completes (.tapeput r) s v g (Claims.status g false) c none) ∧
    (src ≠ 0 → b.closed = false → (b.puts - b.gets).toNat ≠ b.size → ∀ (w z u : State) (k j : Nat),
      let e := b.base + BitVec.ofNat 64 (32 * (b.puts.toNat % b.size))
      Claims.placed v g e 32 32 true → v.unitPlace g.asid src 0 = .ok (w, k) → fld (w.read64 k) 8 8 = 0 → w.unitPlace g.asid e 1 = .ok (z, j) → j ≠ k →
      ((z.copyBlock j k 32).l1Renew g.core j 32).cwrite g.core g.asid (va + 16) 8 (b.puts + 1).toNat = .ok u →
      Completes (.tapeput r) s u g (Claims.status g true) c none))

/-- R77, R145, R206, R407: DEPSIGNAL adds 1, modulo 2^32, to an unpoisoned counter, and to the core's copy of it, and
leaves a poisoned one; DEPWAIT completes
when its counter meets the threshold S(b). -/
def Claims.DependenceCounters : Prop :=
  (∀ (r : RRR) (s v : State) (g : Group) (c : Code) (k : Nat), Issues (.depsignal r) c s g →
    Ready g Pfx.none [.s r.a.toNat 1] → (g.sel r.a.toNat).pois = false →
    Claims.placed s g (g.sv r.a.toNat) 4 4 true →
    s.quiet g.core g.slot = true → s.unitPlace g.asid (g.sv r.a.toNat) 2 = .ok (v, k) →
    let n := (v.readLE k 4 + 1) % 2 ^ 32
    Completes (.depsignal r) s (if v.isPoisoned k 4 then v else (v.writeLE k 4 n).l1Update g.core k 4 n) g g c none) ∧
  (∀ (r : RRR) (s v : State) (g : Group) (c : Code) (k : Nat), Issues (.depwait r) c s g →
    Ready g Pfx.none [.s r.a.toNat 1, .s r.b.toNat 1] → (g.sel r.a.toNat).pois = false → (g.sel r.b.toNat).pois = false →
    (g.sv r.b.toNat).toNat < 2 ^ 32 → Claims.placed s g (g.sv r.a.toNat) 4 4 false →
    s.unitPlace g.asid (g.sv r.a.toNat) 0 = .ok (v, k) → v.isPoisoned k 4 = false →
    (BitVec.ofNat 32 (v.readLE k 4) - (g.sv r.b.toNat).extractLsb' 0 32).toNat < 2 ^ 31 →
    Completes (.depwait r) s (v.l1Drop g.core) g g c none)

/-- R77, R145, R206, R404 to R407: tapes and dependence counters. The model's own choices in it: alignments of
structures (log 52).  Under its conditions `exec` answers a next state for: TAPEGET, TAPEPUT, DEPSIGNAL, DEPWAIT. -/
def Obligations.TapesAndCounters : Prop :=
  Claims.Tapes ∧ Claims.DependenceCounters

/-- R408 to R410: WSLOT counts a holder of a loaded expert and gives its slot, takes the idle slot least recently used
for one to load with bit 16 set, or gives 2^17 with a record, its core's L1 empty in each case; WREL marks a slot's
weights loaded or counts a holder less, its status telling whether it did. The model's own choices in it: the table's
alignment (log 52).  Under its conditions `exec` answers a next state for: WSLOT, WREL. -/
def Obligations.WeightSlots : Prop :=
  let ready (g : Group) (r : RRR) (os : List Opd) : Prop :=
    Ready g Pfx.none ([.s r.a.toNat 1, .s r.b.toNat 1] ++ os) ∧ (g.sel r.a.toNat).pois = false ∧
      (g.sel r.b.toNat).pois = false
  let idle (e : WEntry) : Prop := e.uses = 0 ∧ e.pinned = false ∧ e.loading = false
  (∀ (r : RRR) (s v w z : State) (g : Group) (c : Code) (es : List WEntry) (e : WEntry), Issues (.wslot r) c s g →
    let va := g.sv r.a.toNat
    let x := (g.sv r.b.toNat).toNat
    let touch (u z : State) : Prop := u.cwrite g.core g.asid (va + BitVec.ofNat 64 (72 + 16 * e.1)) 8 u.now.toNat = .ok z
    ready g r [.s r.d.toNat 1] → x < 512 → s.openTable g va = .ok (v, es) → e ∈ es →
    (e.expert = x → e.valid = true → (∀ f ∈ es, f.1 < e.1 → f.expert ≠ x) → es.Pairwise (fun a b => a.1 < b.1) →
      e.uses < 65535 → v.putSlotW g va e.1 (setFld e.2.1 16 16 (e.uses + 1)) = .ok w → touch w z →
      Completes (.wslot r) s (z.l1Drop g.core) g (g.writeS r.d.toNat (BitVec.ofNat 64 e.1) false) c none) ∧
    ((∀ f ∈ es, f.expert = x → f.valid = false ∧ f.loading = false) → idle e → es.Pairwise (fun a b => a.1 < b.1) →
      (∀ f ∈ es, idle f → e.2.2.toNat < f.2.2.toNat ∨ (e.2.2 = f.2.2 ∧ e.1 ≤ f.1)) →
      v.putSlotW g va e.1 (BitVec.ofNat 64 (x + 2 ^ 16 + 2 ^ 33)) = .ok w → touch w z →
      Completes (.wslot r) s (z.l1Drop g.core) g (g.writeS r.d.toNat (BitVec.ofNat 64 (e.1 + 2 ^ 16)) false) c none) ∧
    ((∀ f ∈ es, f.expert = x → f.valid = false ∧ f.loading = false) → (∀ f ∈ es, ¬idle f) →
      Completes (.wslot r) s ((v.emit (dieOf g.core) (record2 (g.lastTape.getD 0) (fld g.seqSlot 0 13) 0 3 0 v.now 0x60 0
        g.asid g.core)).l1Drop g.core) g (g.writeS r.d.toNat (2 ^ 17) false) c none)) ∧
  (∀ (r : RRR) (s v w : State) (g : Group) (c : Code) (es : List WEntry) (e : WEntry), Issues (.wrel r) c s g →
    let va := g.sv r.a.toNat
    let b := g.sv r.b.toNat
    ready g r [.p 14] → b.toNat < 2 ^ 13 → s.openTable g va = .ok (v, es) → es[fld b 0 12]? = some e →
    (b.getLsbD 12 = true → e.loading = false → Completes (.wrel r) s (v.l1Drop g.core) g (Claims.status g false) c none) ∧
    (b.getLsbD 12 = true → e.loading = true → v.putSlotW g va e.1 (setFld e.2.1 32 2 1) = .ok w →
      Completes (.wrel r) s (w.l1Drop g.core) g (Claims.status g true) c none) ∧
    (b.getLsbD 12 = false → e.uses = 0 → Completes (.wrel r) s (v.l1Drop g.core) g (Claims.status g false) c none) ∧
    (b.getLsbD 12 = false → e.uses ≠ 0 → v.putSlotW g va e.1 (setFld e.2.1 16 16 (e.uses - 1)) = .ok w →
      Completes (.wrel r) s (w.l1Drop g.core) g (Claims.status g true) c none))

/-! ### The page store -/

/-- R149, R373, R400: a page-store instruction arrives at the unit, its group waiting, once its operands are read and the
group's accesses performed; when the unit has performed it, it completes with the unit's result in S(d) and the core's
L1 empty. -/
def Claims.PageStoreInstructions : Prop :=
  ∀ p ∈ [((Instr.kvalloc : Pfx → RRR → Instr), 0), (.kvtrunc, 1), (.kvshare, 2), (.kvref, 3), (.kvcow, 4), (.kvpin, 5),
      (.kvunpin, 6), (.kvwhere, 7)],
  ∀ (x : Pfx) (r : RRR) (s : State) (g : Group) (c : Code), Issues (p.1 x r) c s g →
    let fn : Nat := p.2
    let n := if fn = 2 then 2 else 1
    let b := (g.sv r.b.toNat).toNat
    Ready g x [.s r.a.toNat n, .s r.b.toNat 1, .s r.d.toNat 1] → (∀ k, k < n → (g.sel (r.a.toNat + k)).pois = false) →
    (g.sel r.b.toNat).pois = false → (fn = 0 → 0 < b ∧ b ≤ 65535) → (fn ∈ [1, 2, 3, 7] → b < 2 ^ 32) →
    s.quiet g.core g.slot = true →
    (s.psOf g.core g.slot = none → ∃ u h, exec (p.1 x r) s = .next u ∧ u.group g.core g.slot = some h ∧ h.pc = g.pc ∧
      h.waiting = true ∧ ∃ q, Tab.find u.psq s.nextId = some q ∧ q.kind = fn ∧ q.core = g.core ∧ q.slot = g.slot ∧
        q.done = false ∧ q.a = [g.sv r.a.toNat, if fn = 2 then g.sv (r.a.toNat + 1) else 0, g.sv r.b.toNat]) ∧
    ∀ k q, s.psOf g.core g.slot = some (k, q) → q.done = true →
      Completes (p.1 x r) s (State.l1Drop { s with psq := Tab.drop s.psq k } g.core) g (g.writeS r.d.toNat q.b false) c none

/-- R96, R104 to R107, R120: an operation that may take effect is performed by the unit and its result kept for its group, or its
fate parks the group precisely at the instruction, or for poison that the unit reads at the boundary before it (R236).  An append's result is the pages held after it, and it takes as many
free descriptors and frames as it adds; a read gives the descriptor's counts. -/
def Claims.PageStorePerforms : Prop :=
  (∀ (s v : State) (id n : Nat) (q : PsOp), Tab.find s.psq id = some q → s.psReady id q = true → q.copy = none →
    q.slot ≠ 16 → s.kvPerform q = .ok (v, some n) →
    exec (.pageStoreOperation id) s = .next { v with psq := Tab.put v.psq id { q with done := true, b := BitVec.ofNat 64 n } }) ∧
  (∀ (s : State) (id : Nat) (q : PsOp) (f : UnitFate) (g : Group), Tab.find s.psq id = some q → s.psReady id q = true →
    q.copy = none → s.kvPerform q = .error f → f.cause ≠ 0 → f.die = 2 → s.group q.core q.slot = some g → g.core = q.core →
    g.slot = q.slot → ∃ u, exec (.pageStoreOperation id) s = .next u ∧ Tab.find u.psq id = none ∧
      (f.cause ≠ 0x05 →
        Stops { s.afterFate f with psq := Tab.drop s.psq id } u g (dieOf g.core) f.cause (f.d0 q.word) 0 f.access) ∧
      (f.cause = 0x05 → ∃ h, u.group g.core g.slot = some h ∧ h.pc = g.pc ∧ h.stop = some ⟨0x05, .boundary, 0, []⟩)) ∧
  (∀ (s v : State) (b : BTab) (k n : Nat), s.kvAppend b k = .ok (v, n) →
    n = b.ntp + k ∧ k * b.fmt.lg ≤ fld (s.reg 0x5018) 27 27 ∧
      fld (v.reg 0x5018) 27 27 + k * b.fmt.lg = fld (s.reg 0x5018) 27 27 ∧
      fld (v.reg 0x5028) 0 27 + k * b.fmt.lg = fld (s.reg 0x5028) 0 27) ∧
  (∀ (s v : State) (b : BTab) (e i : Nat) (d : PageDesc), e < b.entries → s.resolve b e = .ok (v, i, d) →
    s.kvRead b e false = .ok (v, d.ref + d.pin * 2 ^ 16 + (if d.cw then 2 ^ 24 else 0)) ∧
    s.kvRead b e true = .ok (v, d.tier + d.die * 2 + (if d.busy then 4 else 0)))

/-- Releasing the entries of a list, in order (R110): each names a page, which is released, and its V is cleared. -/
def Claims.released (b : BTab) : List Nat → State → State → Prop
  | [], s, u => u = s
  | e :: es, s, u => ∃ v i p w x, s.resolve b e = .ok (v, i, p) ∧ v.releasePd i = .ok w ∧
      w.vwrite b.asid (b.entryVa e) 8 (i + p.gen * 2 ^ 26) = .ok x ∧ Claims.released b es x u

/-- Sharing the pages that entries of another table name (R108): each counts one reference more and CW, and stands in the
same entry of b. -/
def Claims.shared (b : BTab) : List (Nat × Nat × PageDesc) → State → State → Prop
  | [], s, u => u = s
  | (e, i, _) :: ps, s, u => ∃ x, (s.pd i).ref < 65535 ∧
      (s.setPd i { s.pd i with ref := (s.pd i).ref + 1, cw := true }).vwrite b.asid (b.entryVa e) 8
        (entryWord i (s.pd i).gen) = .ok x ∧ Claims.shared b ps x u

/-- Copying the shared pages of a list of entries, n of them (R109): a page of one reference stays; one of more is copied
into a page taken for it, which the entry names and which keeps its LASTG, and is released. -/
def Claims.copied (b : BTab) : List Nat → State → Nat → State → Prop
  | [], s, n, u => u = s ∧ n = 0
  | e :: es, s, n, u => ∃ v i p, s.resolve b e = .ok (v, i, p) ∧
      ((p.ref ≤ 1 ∧ Claims.copied b es v n u) ∨
        (1 < p.ref ∧ p.busy = false ∧ ∃ w j d x y m, v.takePage b = .ok (w, j, d) ∧
          let q := { d with lastg := (v.pd i).lastg }
          ((w.copyBlock q.place (v.pd i).place (2 ^ 16)).setPd j q).vwrite b.asid (b.entryVa e) 8 (entryWord j d.gen) =
            .ok x ∧
          x.releasePd i = .ok y ∧ n = m + 1 ∧ Claims.copied b es y m u))

/-- The pages at which a list of entries stand, each named once, and their descriptors' indexes in range. -/
def Claims.apart (ps : List (Nat × Nat × PageDesc)) : Prop := (ps.map fun p => p.2.1).Nodup ∧ ∀ p ∈ ps, p.2.1 < 2 ^ 26

/-- R108 to R112, R400: what KVTRUNC, KVSHARE, KVCOW, KVPIN and KVUNPIN do to the block table and the descriptors that its
entries name, with the results that they give; a range outside the table is operand invalid, a pin at 255 an overflow and an
unpin at 0 an underflow. -/
def Claims.PageStoreActions : Prop :=
  (∀ (s v u w : State) (q : PsOp) (b : BTab), s.readTable q.asid (q.a.getD 0 0) = .ok (v, b) → q.kind = 1 →
    let l := fld (q.a.getD 2 0) 0 32
    let kept := (l + 2 ^ b.fmt.ltpp - 1) / 2 ^ b.fmt.ltpp * b.fmt.lg
    let n := b.ntp * b.fmt.lg - kept
    (b.length < l → ∃ f, s.kvPerform q = .error f ∧ f.cause = 0x37 ∧ f.va = b.va) ∧
    (l ≤ b.length → Claims.released b ((List.range n).map fun j => kept + (n - 1 - j)) v u →
      u.writeCounts b l ((l + 2 ^ b.fmt.ltpp - 1) / 2 ^ b.fmt.ltpp) = .ok w → s.kvPerform q = .ok (w, some n))) ∧
  (∀ (s v w x y z u : State) (q : PsOp) (a b : BTab) (ps : List (Nat × Nat × PageDesc)),
    s.readTable q.asid (q.a.getD 0 0) = .ok (v, a) → v.readTable q.asid (q.a.getD 1 0) = .ok (w, b) → q.kind = 2 →
    let l := fld (q.a.getD 2 0) 0 32
    let k := (l + 2 ^ a.fmt.ltpp - 1) / 2 ^ a.fmt.ltpp
    ((b.ntp ≠ 0 ∨ a.length < l ∨ a.fmt.raw ≠ b.fmt.raw) → ∃ f, s.kvPerform q = .error f ∧ f.cause = 0x37 ∧ f.va = a.va) ∧
    (b.ntp = 0 → l ≤ a.length → a.fmt.raw = b.fmt.raw →
      (b.cap < k → ∃ f, s.kvPerform q = .error f ∧ f.cause = 0x32 ∧ f.va = a.va) ∧
      (k ≤ b.cap → w.refFull a (List.range (k * a.fmt.lg)) = .ok (x, true) →
        ∃ f, s.kvPerform q = .error f ∧ f.cause = 0x33 ∧ f.va = a.va) ∧
      (k ≤ b.cap → w.refFull a (List.range (k * a.fmt.lg)) = .ok (x, false) →
        x.resolveAll a (List.range (k * a.fmt.lg)) = .ok (y, ps) → Claims.shared b ps y z →
        z.writeCounts b l k = .ok u → s.kvPerform q = .ok (u, some k)))) ∧
  (∀ (s v u : State) (q : PsOp) (b : BTab) (n : Nat), s.readTable q.asid (q.a.getD 0 0) = .ok (v, b) → q.kind = 4 →
    let e0 := fld (q.a.getD 2 0) 0 32
    let k := fld (q.a.getD 2 0) 32 32
    0 < k → e0 + k ≤ b.entries → Claims.copied b ((List.range k).map (e0 + ·)) v n u →
    s.kvPerform q = .ok (u, some n)) ∧
  (∀ (s v w : State) (q : PsOp) (b : BTab) (ps : List (Nat × Nat × PageDesc)),
    s.readTable q.asid (q.a.getD 0 0) = .ok (v, b) → q.kind = 5 ∨ q.kind = 6 →
    let e0 := fld (q.a.getD 2 0) 0 32
    let k := fld (q.a.getD 2 0) 32 32
    0 < k → e0 + k ≤ b.entries → v.resolveAll b ((List.range k).map (e0 + ·)) = .ok (w, ps) →
    Memory.wf w.mem = true → Claims.apart ps →
    let up : Bool := q.kind = 5
    ((∀ p ∈ ps, if up then (w.pd p.2.1).pin < 255 else 0 < (w.pd p.2.1).pin) →
      (up = true → ∀ p ∈ ps, (w.pd p.2.1).busy = false ∧ (w.pd p.2.1).tier = 0) →
      ∃ u, s.kvPerform q = .ok (u, some k) ∧
        (∀ p ∈ ps, let d := w.pd p.2.1; u.pd p.2.1 = { d with pin := if up then d.pin + 1 else d.pin - 1 }) ∧
        ∀ a, (∀ p ∈ ps, a < w.pdKey p.2.1 ∨ w.pdKey p.2.1 + 16 ≤ a) → u.byte a = w.byte a) ∧
    ((∃ p ∈ ps, (w.pd p.2.1).pin = if up then 255 else 0) →
      ∃ f, s.kvPerform q = .error f ∧ f.cause = (if up then 0x33 else 0x34) ∧ f.va = b.va)) ∧
  (∀ (s v : State) (q : PsOp) (b : BTab), s.readTable q.asid (q.a.getD 0 0) = .ok (v, b) →
    q.kind = 4 ∨ q.kind = 5 ∨ q.kind = 6 →
    fld (q.a.getD 2 0) 32 32 = 0 ∨ b.entries < fld (q.a.getD 2 0) 0 32 + fld (q.a.getD 2 0) 32 32 →
    ∃ f, s.kvPerform q = .error f ∧ f.cause = 0x37 ∧ f.va = b.va)

/-- R96, R107, R111: a page taken for a table is described afresh, at the head of the free list and the top of the HBM4
stack; releasing a page that others still name counts one reference less; releasing its last gives its frame to
its tier's stack, or where that is full drops it and sets OVF, and its descriptor, one generation on, to the free list. -/
def Claims.PagesTakenAndReleased : Prop :=
  (∀ (s w : State) (b : BTab) (j : Nat) (d : PageDesc), s.takePage b = .ok (w, j, d) →
    j = fld (s.reg 0x5018) 0 27 ∧ w.mem = s.mem ∧
    d = { v := true, tier := 0, cw := false, busy := false, pin := 0, ref := 1, lastg := s.now.toNat / 2 ^ 10 % 2 ^ 32,
          frame := d.frame, die := d.die, owner := b.owner, gen := (s.pd j).gen } ∧
    let top := s.baseOf 0x5020 12 + 8 * (fld (s.reg 0x5028) 0 27 - 1)
    d.frame + d.die * 2 ^ 36 = s.readLE top 8 % 2 ^ 37 ∧ d.frame < 2 ^ 36 ∧
    fld (w.reg 0x5018) 0 27 = s.readLE (s.pdKey j + 4) 4 % 2 ^ 27 ∧
    fld (w.reg 0x5018) 27 27 + 1 = fld (s.reg 0x5018) 27 27 ∧ fld (w.reg 0x5028) 0 27 + 1 = fld (s.reg 0x5028) 0 27) ∧
  (∀ (s : State) (i : Nat) (p : PageDesc), Memory.wf s.mem = true → s.readPd i = .ok p →
    (1 < p.ref → ∃ u, s.releasePd i = .ok u ∧ u.pd i = { p with ref := p.ref - 1, cw := decide (1 < p.ref - 1) } ∧
      ∀ a, a < s.pdKey i ∨ s.pdKey i + 16 ≤ a → u.byte a = s.byte a) ∧
    (p.ref ≤ 1 → p.busy = false → i < 2 ^ 26 → fld (s.reg 0x5018) 27 27 < 2 ^ 27 - 1 →
      let stk := if p.tier = 0 then 0x5020 else 0x5030
      let top := if p.tier = 0 then 0x5028 else 0x5038
      let n := fld (s.reg top) 0 27
      let k := s.baseOf stk 12 + 8 * n
      (k + 8 ≤ s.pdKey i ∨ s.pdKey i + 16 ≤ k) →
      ∃ u, s.releasePd i = .ok u ∧
        u.pd i = { p with
          v := false, cw := false, busy := false, pin := 0, ref := 0, lastg := fld (s.reg 0x5018) 0 27
          gen := (p.gen + 1) % 256 } ∧
        fld (u.reg 0x5018) 0 27 = i ∧ fld (u.reg 0x5018) 27 27 = fld (s.reg 0x5018) 27 27 + 1 ∧
        (n < fld (s.reg top) 27 27 → u.readLE k 8 = p.frame + p.die * 2 ^ 36 ∧ fld (u.reg top) 0 27 = n + 1) ∧
        (fld (s.reg top) 27 27 ≤ n → u.reg top = s.reg top ∧ (u.reg 0x5000).getLsbD 1 = true)))

/-- R96, R104 to R112, R120, R149, R236, R373, R400: page-store instructions and what the unit performs. The model's own
choices in it: a page being moved is released later (log 12), a reserved bit of a page descriptor (log 65).  Under its
conditions `exec` answers a next state for: KVALLOC, KVTRUNC, KVSHARE, KVREF, KVCOW, KVPIN, KVUNPIN, KVWHERE,
PAGE_STORE_OPERATION. -/
def Obligations.PageStore : Prop :=
  Claims.PageStoreInstructions ∧ Claims.PageStorePerforms ∧ Claims.PageStoreActions ∧ Claims.PagesTakenAndReleased

/-- R114, R118: when a page's copy is done its descriptor names its new tier and frame and is no longer busy, its bytes
stand there, and no move of it remains; a handoff's completion fills its token with its bytes and a refusal is the
late fault 0x36. -/
def Claims.MovesAndHandoffsComplete : Prop :=
  (∀ (s : State) (i : Nat) (m : PsMove), Memory.wf s.mem = true → (s.moves.find? fun m => m.pdi = i) = some m →
    let p := s.pd i
    let q := { p with
      busy := false, tier := if m.toLpddr then 1 else 0, frame := m.frame % 2 ^ 36, die := m.frame / 2 ^ 36 % 2 }
    let stk := s.baseOf (if p.tier = 0 then 0x5020 else 0x5030) 12 +
      8 * fld (s.reg (if p.tier = 0 then 0x5028 else 0x5038)) 0 27
    let apart (a n b k : Nat) : Prop := a + n ≤ b ∨ b + k ≤ a
    apart p.place (2 ^ 16) q.place (2 ^ 16) → apart q.place (2 ^ 16) (s.pdKey i) 16 → apart stk 8 (s.pdKey i) 16 →
    apart q.place (2 ^ 16) stk 8 →
    ∃ u, exec (.pageMove i) s = .next u ∧ (∀ x ∈ u.moves, x.pdi ≠ i) ∧ u.pd i = q ∧
      ∀ j, j < 2 ^ 16 → u.byte (q.place + j) = s.byte (p.place + j)) ∧
  (∀ (s : State) (id : Nat) (c : CopyOp) (g : Group), Tab.find s.copies id = some c → c.form = 4 → c.phase = 1 →
    c.detached = none → s.group c.core c.slot = some g → g.core = c.core → g.slot = c.slot →
    (g.spec = none → ∃ u, exec (.handoffCompletion id true) s = .next u ∧ Tab.find u.copies id = none ∧
      u.group c.core c.slot = some { g.writeS c.token (BitVec.ofNat 64 c.bytes) false with
        tokens := g.tokens ||| 1#128 <<< c.token }) ∧
    (c.slot ≠ 16 → ∃ u l, exec (.handoffCompletion id false) s = .next u ∧
      u.group c.core c.slot = some { g with late := g.late ++ [l] } ∧ l.cause = 0x36 ∧ l.kind = .boundary ∧ id ∈ l.ops ∧
      ∃ d, Tab.find u.copies id = some d ∧ d.stopped = true ∧ d.phase = 0))

/-- R96, R117: at an own port with the unit on, and no handoff that is under way complete, data of a handoff that has not
been opened is kept for it; an opening takes the posted entry of its tag, its pages allocated, and one without a posted
entry is refused, its data messages to be dropped as they come.  While the unit is off the messages wait (log 42). -/
def Claims.HandoffsArrive : Prop :=
  ∀ (s : State) (m : HandoffMsg), s.isOwnPort m = true → s.handoffs = [] →
    ((s.reg 0x5000).getLsbD 0 = false → exec (.handoffReceive m) s = .next { s with handoffs := [m] }) ∧
    ((s.reg 0x5000).getLsbD 0 = true → s.receiveOf m.sender m.tag = none →
      (∀ r ∈ s.receives, r.entry = none ∨ r.got.length ≠ 8 * r.pages.length) →
      (m.opening = false → exec (.handoffReceive m) s = .next { s with
        receives := s.receives ++ [⟨m.sender, m.tag, none, 0, 0, 0, 0, 0, [], [], [m], []⟩] }) ∧
      (m.opening = true → s.rxMatch m.tag = none →
        let n := 8 * m.k.toNat * ((pageFmt m.format).map PageFmt.lg).getD 0
        exec (.handoffReceive m) s = .next { s with
          ueOut := s.ueOut ++ [.refusal m.sender m.tag]
          receives := s.receives ++ if n = 0 then [] else
            [⟨m.sender, m.tag, none, 0, 0, 0, 0, 0, [], [], [], List.range n⟩] }) ∧
      ∀ (v : State) (i : Nat) (r : Receive), m.opening = true → s.rxMatch m.tag = some i →
        State.openHandoff { s with handoffs := [m] } m i = .ok (v, r) → r.pages ≠ [] →
        r.pages.length = m.k.toNat * r.lg ∧
          exec (.handoffReceive m) s = .next { v with receives := v.receives ++ [r], handoffs := [] })

/-- R96, R114, R117, R118: page moves and handoffs. The model's own choices in it: what refuses a handoff, and messages
that wait while the unit is off (log 42).  Under its conditions `exec` answers a next state for: PAGE_MOVE,
HANDOFF_RECEIVE, HANDOFF_COMPLETION. -/
def Obligations.PageMovesAndHandoffs : Prop :=
  Claims.MovesAndHandoffsComplete ∧ Claims.HandoffsArrive

/-! ### Power, trace and counters -/

/-- How many of the first k clk in which the part that counter n of a core watches could be busy it was (R449, log 4). -/
def Claims.busy (core n k : Nat) : BitVec 64 := BitVec.ofNat 64 ((List.range k).filter fun i => Config.partBusy core n i).length

/-- The value of counter n of a core now, as CNTRD reads it (R195, R449): 0 counts clk, 15 adds the suppressed writes of the
groups on the core; 13 is the number of ticket-table entries that its accesses keep; 2 to 7 count busy clk, 9 the ballast cycles
of BALLAST and of Damper. -/
def Claims.counter (s : State) (core n : Nat) : BitVec 64 :=
  if 17 < n then 0
  else if n = 0 then BitVec.ofNat 64 (s.clk / 10)
  else if n = 13 then BitVec.ofNat 64 (s.ticketLevel core)
  else if n = 15 then
    Tab.get 0 (s.core core).counters 15 + BitVec.ofNat 64 (((s.groupsOf core).map Group.zeroWrites).sum)
  else if n = 9 then Tab.get 0 (s.core core).counters 9 + Tab.get 0 s.damper.ran core
  else if 2 ≤ n ∧ n ≤ 7 then Claims.busy core n (Tab.get 0 (s.core core).counters n).toNat
  else Tab.get 0 (s.core core).counters n

/-- The value of counter n of a core as the last tick latched it (R369, R451). -/
def Claims.latched (s : State) (core n : Nat) : BitVec 64 :=
  if 17 < n then 0
  else if n = 0 then BitVec.ofNat 64 (s.tatClk / 10)
  else if 2 ≤ n ∧ n ≤ 7 then Claims.busy core n (Tab.get 0 (s.core core).latched n).toNat
  else Tab.get 0 (s.core core).latched n

/-- R369 to R371: RAMPHINT completes when it asks for 0 mW, in a pinned grid, or with its grant, and else waits, its
request noted once; BALLAST replaces the count of its core; TRACEON and TRACEOFF set the group's trace classes where its
context may trace; CNTRD and TATRD write a counter, or the time-stamp of the last tick, and zero before the first. The
model's own choices in it: the busy clk of parts of a core are free numbers, counted as time passes (log 4).  Under its
conditions `exec` answers a next state for: RAMPHINT, BALLAST, TRACEON, TRACEOFF, CNTRD, TATRD. -/
def Obligations.PowerAndTraceInstructions : Prop :=
  let ready (g : Group) (k bound : Nat) (d : List Opd) : Prop :=
    Ready g Pfx.none (.s k 1 :: d) ∧ (g.sel k).pois = false ∧ (g.sv k).toNat < bound
  (∀ (r : RRR) (s : State) (g : Group) (c : Code), Issues (.ramphint r) c s g → ready g r.a.toNat 50001 [] →
    let may : Prop := g.sv r.a.toNat = 0 ∨ (∃ q, Tab.find s.grids g.grid = some q ∧ q.pinned = true) ∨
      ∃ o, g.rampWait = some (o, 0)
    (may → Completes (.ramphint r) s s g { g with rampWait := none } c none) ∧
    (¬may → ∃ t h, exec (.ramphint r) s = .next t ∧ t.group g.core g.slot = some h ∧ h.pc = g.pc ∧ h.waiting = true ∧
      h.rampWait = if g.rampWait = none then some (s.nextId, (g.sv r.a.toNat).toNat) else g.rampWait)) ∧
  (∀ (r : RRR) (s : State) (g : Group) (c : Code), Issues (.ballast r) c s g → ready g r.a.toNat (2 ^ 24) [] →
    Completes (.ballast r) s (s.setCore g.core { s.core g.core with ballast := (g.sv r.a.toNat).extractLsb' 0 24 }) g g c
      none) ∧
  (∀ (r : RRR) (s : State) (g : Group) (c : Code), Issues (.traceon r) c s g →
    Completes (.traceon r) s s g { g with traceMask := if (s.ctx g.asid).trcCtl.getLsbD 0 then r.b else g.traceMask } c
      none) ∧
  (∀ (s : State) (g : Group) (c : Code), Issues .traceoff c s g →
    Completes .traceoff s s g { g with traceMask := if (s.ctx g.asid).trcCtl.getLsbD 0 then 0 else g.traceMask } c none) ∧
  (∀ (r : RRR) (s : State) (g : Group) (c : Code), Issues (.cntrd r) c s g → ready g r.a.toNat 4096 [.s r.d.toNat 1] →
    Completes (.cntrd r) s s g (g.writeS r.d.toNat
      (if s.tatAt = none then 0 else Claims.counter s g.core (g.sv r.a.toNat).toNat) false) c none) ∧
  (∀ (r : RRR) (s : State) (g : Group) (c : Code), Issues (.tatrd r) c s g → ready g r.a.toNat 4096 [.s r.d.toNat 1] →
    Completes (.tatrd r) s s g (g.writeS r.d.toNat (match s.tatAt with
      | none => 0
      | some t => if (g.sv r.a.toNat).toNat = 4095 then t else Claims.latched s g.core (g.sv r.a.toNat).toNat) false) c none)

/-- R225, R252, R371, R466, R467: a sample of a Damper that works, 100 tk or more after the last, sets the floor to the
greater of the estimate P and the floor before less 100 FALL, and asks idle matrix units for the ballast between (log
60); before then it takes none; a die at its limit is hot until it is 40 units below; the standby takes over from a
failed unit, once, with its record. A limit of power that is written takes effect at the next ramp slot. The model's own
choices in it: ballast's power and units (log 60), the phase of Damper's samples (log 64).  Under its conditions `exec`
answers a next state for: DAMPER_SAMPLE, DAMPER_TAKEOVER, THERMAL_HOT. -/
def Obligations.DamperAndHeat : Prop :=
  (∀ (s : State) (w : BitVec 24), s.damper.failed = false →
    let p := (w.toNat + s.askedUnits.length * fld (s.dmp 0x7008) 16 16) % 2 ^ 24
    let f := max p (s.damper.floor - fld (s.dmp 0x7000) 16 10 * 100)
    ((∀ t, s.damper.sampleAt = some t → 100 ≤ (s.now - BitVec.ofNat 64 t).toNat) →
      ∃ t, exec (.damperSample w) s = .next t ∧
        t = { s with units := t.units, damper := t.damper, freeCount := s.freeCount + 1 } ∧
        t.readReg 0x7010 = BitVec.ofNat 64 (p + f * 2 ^ 24) ∧
        t.damper = { s.damper with est := p, floor := f, ballast := f - p, sampleAt := some s.now.toNat, units := t.damper.units } ∧
        (f = p → t.damper.units = []) ∧ ∀ c ∈ t.damper.units, s.matrixIdle c = true ∧ c ∉ s.askedUnits) ∧
    (∀ t, s.damper.sampleAt = some t → (s.now - BitVec.ofNat 64 t).toNat < 100 → exec (.damperSample w) s = .next s)) ∧
  (∀ (s : State) (die : Nat) (m : BitVec 12), die < 2 →
    let lim := fld (s.dmp (0x7020 + 8 * die)) 12 12
    ∃ t, exec (.thermalHot die m) s = .next t ∧ t = { s with regs := t.regs, damper := { s.damper with hot := t.damper.hot } } ∧
      fld (t.reg (0x7020 + 8 * die)) 0 12 = m.toNat ∧ (∀ o, o ≠ 0x7020 + 8 * die → t.reg o = s.reg o) ∧
      (t.reg (0x7020 + 8 * die)).getLsbD 24 = (decide (lim ≤ m.toNat) || (s.reg (0x7020 + 8 * die)).getLsbD 24) ∧
      ∀ d, d < 2 → t.damper.hot.getLsbD d =
        if d = die ∧ lim ≤ m.toNat then true else if d = die ∧ m.toNat + 40 ≤ lim then false else s.damper.hot.getLsbD d) ∧
  (∀ (s : State), s.damper.failed = true → s.damper.standby = false →
    exec .damperTakeover s = .next ({ s with damper := { s.damper with failed := false, standby := true } }.emit 1
      (record3 0 644 4 false s.now 0x09 0 644))) ∧
  ∀ (s : State) (src : Bool) (off : Nat) (m v : BitVec 64), off = 0x7000 ∨ off = 0x7008 →
    let t := s.writeReg src off m v
    t.dmp off = s.dmp off ∧
      (t.reg off ≠ s.reg off → ∀ n : BitVec 64, n.toNat / 1000 ≠ s.now.toNat / 1000 → { t with now := n }.dmp off = t.reg off)

/-- R446 to R448, R451: at a tick every counter is latched and a sample, or with a full ring one more drop, goes to the
ring, whose TAIL then passes it; a PC sample notes its time and writes no more than a trace record; the oldest record of
a cluster's buffer goes to its context's ring where that has room, a pending loss count then taking the free entry in a
TYPE 0 record; and a cluster with no group is gated once its buffer is empty or 20 µs have passed, its loss count taking
what is left. The clause on a drain is of contexts that are not confidential. The model's own choices in it: clk at 2.7
a tk of time that passes (log 36), a dropped sample takes its index too (log 13), the phase of samples (log 64).  Under
its conditions `exec` answers a next state for: TATTOO_TICK, PC_SAMPLE, TRACE_DRAIN, CLUSTER_POWER_GATE. -/
def Obligations.SamplesAndDrains : Prop :=
  (∀ (s : State), (s.reg 0x8000).getLsbD 0 = true → s.now.toNat % 2 ^ fld (s.reg 0x8000) 1 5 = 0 → s.tatAt ≠ some s.now →
    let n := 2 ^ fld (s.reg 0x8000) 6 5
    let tail := fld (s.reg 0x8018) 0 16
    let k := s.baseOf 0x8008 6 + 164416 * tail
    ∃ t, exec .tattooTick s = .next t ∧ t.tatAt = some s.now ∧ t.tatIndex = s.tatIndex + 1 ∧ t.groups = s.groups ∧
      (∀ c m, (s.core c).counters = (t.core c).counters ∧ (m ≠ 13 → (Tab.find s.cores c).isSome = true →
        Tab.get 0 (t.core c).latched m = if m = 15
          then Tab.get 0 (s.core c).counters 15 + BitVec.ofNat 64 (((s.groupsOf c).map Group.zeroWrites).sum)
          else Tab.get 0 (s.core c).counters m)) ∧ t.tatClk = s.clk ∧
      ((tail + 1) % n = fld (s.reg 0x8010) 0 16 % n →
        t.mem = s.mem ∧ t.regs = s.regs ∧ t.tatDrops = min 65535 (s.tatDrops + 1)) ∧
      ((tail + 1) % n ≠ fld (s.reg 0x8010) 0 16 % n → t.tatDrops = 0 ∧ fld (t.reg 0x8018) 0 16 = (tail + 1) % n % 2 ^ 16 ∧
        t.readLE k 8 = s.now.toNat ∧ t.readLE (k + 8) 8 = s.tatIndex.toNat)) ∧
  (∀ (s : State) (g : Group), s.group g.core g.slot = some g → g.quiesce = false → g.saved = false →
    let n := fld (s.ctx g.asid).trcCtl 8 5
    n ≠ 0 → 2 ^ n * 10 ≤ s.clk - g.sampleAt →
    ∃ t, exec (.pcSample g.core g.slot) s = .next t ∧ t.group g.core g.slot = some { g with sampleAt := s.clk } ∧
      t = { s with groups := t.groups, traces := t.traces } ∧
      ∀ k, k ≠ gkey g.core g.slot → Tab.find t.groups k = Tab.find s.groups k) ∧
  (∀ (s : State) (cl : Nat) (r : BitVec 256) (rs : List (BitVec 256)),
    (Tab.get TraceBuf.zero s.traces cl).recs = r :: rs →
    let c := s.ctx (recAsid r)
    c.cfg.getLsbD 1 = false → c.trcRoom 1 = true →
    let b := Tab.get TraceBuf.zero s.traces cl
    ∃ t, exec (.traceDrain cl) s = .next t ∧
      (b.lost = 0 ∨ b.gated = true → (Tab.get TraceBuf.zero t.traces cl).recs = rs) ∧
      (b.lost ≠ 0 → b.gated = false → rs.length < 2048 → (Tab.get TraceBuf.zero t.traces cl).lost = 0 ∧
        ∃ c, (Tab.get TraceBuf.zero t.traces cl).recs = rs ++ [c] ∧ c.extractLsb' 0 54 = s.now.extractLsb' 0 54 ∧
          c.extractLsb' 54 4 = 0 ∧ c.extractLsb' 192 16 = BitVec.ofNat 16 (min b.lost 65535)) ∧
      t.readLE (c.trcPlace 0) 32 = r.toNat ∧
      (∀ a, a < c.trcPlace 0 ∨ c.trcPlace 0 + 32 ≤ a → t.byte a = s.byte a) ∧
      t.ctx (recAsid r) = { c with trcTail := BitVec.ofNat 64 ((fld c.trcTail 0 24 + 1) % 2 ^ fld c.trcCtl 13 5) }) ∧
  (∀ (s : State) (cl at_ : Nat), let b := Tab.get TraceBuf.zero s.traces cl
    b.gated = false → (s.groups.any fun e => e.2.core / 8 = cl) = false → b.gateAt = some at_ →
    (b.recs = [] ∨ 20000 ≤ (s.now - BitVec.ofNat 64 at_).toNat) →
    ∃ t, exec (.clusterPowerGate cl) s = .next t ∧ t = { s with traces := t.traces } ∧
      let c := Tab.get TraceBuf.zero t.traces cl
      c.recs = [] ∧ c.lost = b.lost + b.recs.length ∧ c.gated = true ∧ c.gateAt = none)

/-! ### What the driver does at an MTU -/

/-- What starting an invalidation of a range by value w of MTU_INVCTL does at a die (R30): GO reads 1 with the fields
written, no translation of the range and no walk-cache entry of its ASIDs remains and no other translation goes, and no
core's filter holds a tag of it. -/
def Claims.invalidates (s t : State) (die : Nat) (w : BitVec 64) (r : InvRange) : Prop :=
  t.reg (mtuReg die 8) = BitVec.ofNat 64 (w.toNat % 2 ^ 21 + 2 ^ 63) ∧ (t.mtu die).inval = some r ∧
    (∀ l ∈ (t.mtu die).tlb, l ∈ (s.mtu die).tlb ∧
      ∀ x, l.base ≤ x → x < l.base + pageSize l.level → r.covers l.asid x = false) ∧
    (∀ l ∈ (s.mtu die).tlb, (∀ x, l.base ≤ x → x < l.base + pageSize l.level → r.covers l.asid x = false) →
      l ∈ (t.mtu die).tlb) ∧
    (∀ c ∈ (t.mtu die).walkCache, r.allAsid = false ∧ c.asid ≠ r.asid) ∧
    (∀ e ∈ t.cores, ∀ q ∈ e.2.filter, q.2 / 2 ^ 39 % 2 = die → r.covers q.1 (q.2 % 2 ^ 39 * 2 ^ 16) = false) ∧
    t.groups = s.groups ∧ t.mem = s.mem

/-- R29, R30: DROP, CLOSE and OPEN invalidate a range that is aligned to its SIZE; CLOSE also closes it, where fewer than
16 are, and OPEN ends the closed range it matches; once no switch holds a line of the range, GO clears.  A range that is
not aligned, and a 17th CLOSE, are write errors that change nothing else. -/
def Claims.Invalidations : Prop :=
  (∀ (s : State) (die : Nat) (w : BitVec 64), die < 2 →
    let r := s.invRange die w
    let closed (t : State) : List InvRange := (t.mtu die).closed
    (r.aligned = true →
      (∃ t, exec (.mtuInvctlDrop die w) s = .next t ∧ Claims.invalidates s t die w r ∧ closed t = closed s) ∧
      ((closed s).length < 16 → ∃ t, exec (.mtuInvctlClose die w) s = .next t ∧ Claims.invalidates s t die w r ∧
        closed t = closed s ++ [r]) ∧
      (∃ t, exec (.mtuInvctlOpen die w) s = .next t ∧ Claims.invalidates s t die w r ∧
        closed t = (closed s).filter fun c => !c.same r)) ∧
    (r.aligned = false → ∀ i ∈ [Instr.mtuInvctlDrop die w, .mtuInvctlClose die w, .mtuInvctlOpen die w],
      exec i s = .next (s.writeError false (mtuReg die 8))) ∧
    (16 ≤ (closed s).length → exec (.mtuInvctlClose die w) s = .next (s.writeError false (mtuReg die 8)))) ∧
  (∀ (s : State) (die : Nat) (r : InvRange), die < 2 → (s.mtu die).inval = some r → s.lentIn die r = [] →
    ∃ t, exec (.mtuInvalidateComplete die) s = .next t ∧ t = { s with regs := t.regs, mtus := t.mtus } ∧
      t.mtu die = { s.mtu die with inval := none } ∧ (t.reg (mtuReg die 8)).getLsbD 63 = false ∧
      ∀ o, o ≠ mtuReg die 8 → t.reg o = s.reg o)

/-- R40, R41: a record that waits for ring space is written at TAIL, which then passes it, once the ring has room, and one
that waits behind the full buffer takes its place; a legal size for an empty queue is taken and resets HEAD and TAIL;
any other write of it is an error that changes nothing else. -/
def Claims.FaultQueue : Prop :=
  (∀ (s : State) (die : Nat) (r : BitVec 256) (rs : List (BitVec 256)), die < 2 → (s.mtu die).pend = r :: rs →
    s.fqFull die = false →
    let tail := fld (s.reg (mtuReg die 0x30)) 0 20
    let k := die * 2 ^ 64 + ((s.reg (mtuReg die 0x18)).toNat + 32 * tail)
    ∃ t, exec (.faultRecordDrain die) s = .next t ∧ 
        t = { s with mem := t.mem, poisoned := t.poisoned, regs := t.regs, mtus := t.mtus } ∧ t.readLE k 32 = r.toNat ∧ (∀ a, a < k ∨ k + 32 ≤ a → t.byte a = s.byte a) ∧
      fld (t.reg (mtuReg die 0x30)) 0 20 = (tail + 1) % 2 ^ fld (s.reg (mtuReg die 0x20)) 0 5 % 2 ^ 20 ∧
      (t.mtu die).pend = rs ++ (s.mtu die).behind.take 1 ∧ (t.mtu die).behind = (s.mtu die).behind.drop 1) ∧
  (∀ (s : State) (die : Nat) (src : Bool) (w : BitVec 64), die < 2 →
    let legal := 7 ≤ fld w 0 5 ∧ fld w 0 5 ≤ 20 ∧
      fld (s.reg (mtuReg die 0x28)) 0 20 = fld (s.reg (mtuReg die 0x30)) 0 20 ∧ (s.mtu die).pend = []
    (legal → ∃ t, exec (.fqSizeWrite die src w) s = .next t ∧ t = { s with regs := t.regs } ∧
      fld (t.reg (mtuReg die 0x20)) 0 5 = fld w 0 5 ∧ t.reg (mtuReg die 0x28) = 0 ∧ t.reg (mtuReg die 0x30) = 0 ∧
      ∀ o, o ≠ mtuReg die 0x20 → o ≠ mtuReg die 0x28 → o ≠ mtuReg die 0x30 → t.reg o = s.reg o) ∧
    (¬legal → exec (.fqSizeWrite die src w) s = .next (s.writeError src (mtuReg die 0x20))))

/-- R29, R30, R40, R41: invalidation and the fault queue. The model's own choices in it: a repeated CLOSE (log 38).
Under its conditions `exec` answers a next state for: FAULT_RECORD_DRAIN, MTU_INVCTL_DROP, MTU_INVCTL_CLOSE,
MTU_INVCTL_OPEN, MTU_INVALIDATE_COMPLETE, FQ_SIZE_WRITE. -/
def Obligations.MtuService : Prop :=
  Claims.Invalidations ∧ Claims.FaultQueue

/-- R42, R50, R227, R246, R281: OP 0 of MTU_REPLAY lets a stopped group issue again, with the lanes of its mask alone to
reissue after a precise stop on CAUSE 0x11 to 0x13; OP 1 ends it; for a group that is not stopped each is a write error.
Late faults, recorded when they were met, stop their group once at the boundary it has reached, for the first of them. A
fetch buffers the words of an instruction, or stops the group precisely at one that breaks a check, with the word that
DETAIL names. The model's own choices in it: the order of several late faults (log 58), the lane mask and DETAIL of an
illegal word that is fetched (logs 19, 5), the source of a write error (log 31).  Under its conditions `exec` answers a
next state for: INSTRUCTION_FETCH, BOUNDARY_STOP, REPLAY_GROUP, KILL_GROUP. -/
def Obligations.ReplayKillAndBoundary : Prop :=
  (∀ (s : State) (die : Nat) (g : Group) (st : Stop), die < 2 → s.group g.core g.slot = some g → g.stop = some st → st.ops = [] →
    (∃ t, exec (.replayGroup die g.core g.slot) s = .next t ∧ (t.core g.core).filter = [] ∧
      t.group g.core g.slot = some { g with
        stop := none, waiting := false, ibuf := none
        lastRetire := if g.saved || g.quiesce || (g.waitsIn.any fun w => w.1 = 3) then g.lastRetire else s.clk - g.lastRetire
        reissue := if st.kind = .precise ∧ 0x11#8 ≤ st.cause ∧ st.cause ≤ 0x13#8 ∧ st.mask ≠ 0 then some st.mask else none } ∧
      (∀ k, k ≠ gkey g.core g.slot → Tab.find t.groups k = Tab.find s.groups k) ∧ t.mem = s.mem) ∧
    ∃ t, exec (.killGroup die g.core g.slot) s = .next t ∧ t.group g.core g.slot = none ∧
      ∀ k, k ≠ gkey g.core g.slot → Tab.find t.groups k = Tab.find s.groups k) ∧
  (∀ (s : State) (die core slot : Nat), die < 2 → (∀ g, s.group core slot = some g → g.stop = none) →
    exec (.replayGroup die core slot) s = .next (s.writeError false (mtuReg die 0x40)) ∧
    exec (.killGroup die core slot) s = .next (s.writeError false (mtuReg die 0x40))) ∧
  (∀ (s : State) (g : Group) (l : Stop) (ls : List Stop), s.group g.core g.slot = some g → g.late = l :: ls → g.stop = none →
    g.holds = [] → g.ibufWait = none →
    ∃ t, exec (.boundaryStop g.core g.slot) s = .next t ∧ t.group g.core g.slot = some { g with
        late := [], stop := some { l with ops := l.ops ++ ls.flatMap Stop.ops }, waiting := false, waitsIn := none
        reissue := none, growSince := none, lastRetire := g.wdCount s.clk } ∧
      (∀ k, k ≠ gkey g.core g.slot → Tab.find t.groups k = Tab.find s.groups k) ∧
      t = { s with groups := t.groups, cores := t.cores, traces := t.traces }) ∧
  (∀ (s u : State) (g : Group) (ws : List Word) (i : Instr), s.group g.core g.slot = some g → g.canIssue = true →
    g.buffered = [] → Claims.fetches g.asid s g.pc ws u →
    (decode ws = .ok i ws.length →
      exec (.instructionFetch g.core g.slot) s = .next (u.setGroup { g with ibuf := some (g.pc, ws) })) ∧
    ∀ d, ws.length ≤ 5 → decode ws = .illegal d → (∀ n, n < ws.length → decode (ws.take n) = .short) →
      ∃ t, exec (.instructionFetch g.core g.slot) s = .next t ∧ Stops u t g (dieOf g.core) 0x01
        (BitVec.ofNat 32 d ++ if d = 0 then ws.getLastD 0 else ws.getD (d - 1) 0) (illegalLanes g ws) 0)

/-! ### Launch queues, placement and the ramp -/

/-- R178, R203, R204: an enabled queue whose context is not held reads the descriptor at RIDX, which then passes it, and
takes the context's next launch number: a good one becomes a grid with that number, a bad or unreadable one sets DERR
and is recorded with 0x50.  A line of the descriptor that a switch holds is recalled first (R166). -/
def Claims.LaunchQueueReads : Prop :=
  ∀ (s v : State) (q : Nat) (od : Option (List (BitVec 64))), q < 64 →
    let ctl := s.reg (lqReg q 8)
    let n := 2 ^ fld ctl 0 5
    let ridx := fld (s.reg (lqReg q 0x18)) 0 16 % n
    let asid := ctl.extractLsb' 5 16
    let va := s.reg (lqReg q 0) + BitVec.ofNat 64 (128 * ridx)
    let id := (v.ctx asid).nextGrid
    let grid (d : List (BitVec 64)) : Grid := newGrid d va asid 0 q id 0
    ctl.getLsbD 21 = true → ridx ≠ fld (s.reg (lqReg q 0x10)) 0 16 % n → s.launchHeld asid = false →
    (∀ k, s.descHeld asid va = some k → exec (.launchQueueRead q) s = .next (s.recallLine (k / 64))) ∧
    (s.descHeld asid va = none → s.readDesc asid va = (v, od) →
    (∀ d, od = some d → v.descBad (grid d) = false → teamsOf d ≠ 0 → (∀ e ∈ v.grids, e.2.isOver = false) →
      ∃ t p, exec (.launchQueueRead q) s = .next t ∧ fld (t.reg (lqReg q 0x18)) 0 16 = (ridx + 1) % n % 2 ^ 16 ∧
        (t.ctx asid).nextGrid = id + 1 ∧ Tab.find t.grids v.nextId = some p ∧ p.desc = d ∧ p.gridId = id ∧ p.asid = asid ∧
        p.source = 0 ∧ p.next = 0 ∧ t.mem = v.mem) ∧
    ((od = none ∨ ∃ d, od = some d ∧ v.descBad (grid d) = true) →
      ∃ w : State, exec (.launchQueueRead q) s =
          .next (w.emit 0 (record2 va 0 q 0 0 v.now 0x50 (id.extractLsb' 0 32) asid 645)) ∧ w.now = v.now ∧
        fld (w.reg (lqReg q 0x18)) 0 16 = (ridx + 1) % n % 2 ^ 16 ∧
        (w.reg (lqReg q 8)).getLsbD 22 = true ∧ (w.ctx asid).nextGrid = id + 1 ∧ w.grids = v.grids ∧ w.groups = v.groups))

/-- R187, R201, R209 to R211, R224: the next team of a ready grid that is not pinned goes to the core where it fits, its
groups at the descriptor's address and held back for the ramp; a pinned grid whose sum exceeds the rise limit is rejected.
A grid of which no team has been placed for 2^20 tk, with no core open to its split and context and no cluster of its
still draining, marks the first cluster that may drain. -/
def Claims.PlacementAndDrains : Prop :=
  (∀ (s : State) (k core : Nat) (g : Grid), Tab.find s.grids k = some g → s.saves = [] → g.wantsCore = true →
    (∀ e ∈ s.grids, e.2.wantsCore = true → e.2.before g = false) →
    (g.pinned = false → s.fits k g core = true →
      ∃ t m, exec (.teamPlacement k core) s = .next t ∧
        Tab.find t.grids k = some { g with next := g.next + 1, lastAt := some s.now.toNat } ∧
        t.team s.nextId = some m ∧ m.grid = k ∧ m.core = core ∧ m.lin = g.next ∧ m.asid = g.asid ∧ m.ramp = .waiting ∧
        ∀ x ∈ m.slots, s.group x.2.1 x.2.2 = none ∧ ∃ h, t.group x.2.1 x.2.2 = some h ∧ h.gid = x.1 ∧ h.team = s.nextId ∧
          h.asid = g.asid ∧ h.pc = g.desc.getD 0 0 ∧ h.kargs = g.desc.getD 1 0 ∧ h.flags = 0 ∧ h.trapen = 0 ∧ h.seqNo = 0 ∧
          h.quiesce = true ∧ h.v = [] ∧ h.s = [] ∧ h.p = []) ∧
    (g.pinned = true → s.rise < g.teams * s.est g →
      ∃ t, exec (.teamPlacement k core) s = .next t ∧ Tab.find t.grids k = none ∧ t.groups = s.groups ∧ t.teams = s.teams ∧
        fld (t.reg 0x7018) 0 32 = (fld (s.reg 0x7018) 0 32 + 1) % 2 ^ 32)) ∧
  (∀ (s : State) (k cl : Nat) (g : Grid), Tab.find s.grids k = some g → g.wantsCore = true →
    (∀ cl, g.drain = some cl → ∀ i, i < 8 → (s.core (cl * 8 + i)).drain = false) →
    2 ^ 20 ≤ s.since (g.lastAt.getD (g.readyAt.getD 0)) →
    (∀ c, c < 640 → s.coreUp c = true → (s.core c).splitv = true ∧ ((s.core c).split ≠ g.split ∨ (s.core c).asid ≠ g.asid)) →
    let may (cl : Nat) : Prop := Tab.find s.csHold cl = none ∧ ∀ i, i < 8 → (s.core (cl * 8 + i)).drain = false
    cl < 80 → may cl → (∀ x, x < cl → ¬may x) →
    ∃ t, exec (.splitDrainTrigger k) s = .next t ∧ Tab.find t.grids k = some { g with drain := some cl } ∧
      t.groups = s.groups ∧ ∀ i, i < 8 → s.teamsOn (cl * 8 + i) ≠ [] → (t.core (cl * 8 + i)).drain = true)

/-- R166, R178, R187, R201, R203, R204, R209 to R211, R224: launch queues, placement and drains. The model's own choices
in it: launch numbers (log 17).  Under its conditions `exec` answers a next state for: LAUNCH_QUEUE_READ,
TEAM_PLACEMENT, SPLIT_DRAIN_TRIGGER. -/
def Obligations.Placement : Prop :=
  Claims.LaunchQueueReads ∧ Claims.PlacementAndDrains

/-- R222 to R224, R466, R467: a slot finds each die hot or not by its limit in effect, starts with nothing used and never
grants more than its rise limit; the first that waits is granted where it fits, a team then being started, and where it
does not fit nobody is; a pinned grid that is placed goes before them, all its teams at once or none; while a die is hot
or Damper has failed nobody is. -/
def Claims.RampSlots : Prop :=
  ∀ (s : State),
    let slot := s.now.toNat / 1000
    let u := (s.heat 0).heat 1
    let d : Damper := if u.damper.slot = slot then u.damper else { u.damper with slot := slot, used := 0 }
    u = { s with regs := u.regs, damper := { s.damper with hot := u.damper.hot } } ∧
    (∀ die, die < 2 →
      let tmax := fld (s.reg (0x7020 + 8 * die)) 0 12
      let lim := fld (s.dmp (0x7020 + 8 * die)) 12 12
      u.damper.hot.getLsbD die = if lim ≤ tmax then true else if tmax + 40 ≤ lim then false else s.damper.hot.getLsbD die) ∧
    (u.grants = false → exec .rampSlot s = .next { u with damper := d }) ∧
    (∀ k ks, u.grants = true → s.damper.pinned = k :: ks →
      let ts := s.teams.filter fun e => e.2.grid = k && e.2.ramp = .waiting
      let sum := ts.length * ((Tab.find s.grids k).map u.est).getD 0
      (ts ≠ [] → u.rise < d.used + sum → exec .rampSlot s = .next { u with damper := d }) ∧
      (ts ≠ [] → d.used + sum ≤ u.rise → ∃ t, exec .rampSlot s = .next t ∧
        t.damper = { d with used := d.used + sum, pinned := ks } ∧
        ∀ e ∈ ts, Tab.find s.teams e.1 = some e.2 → ∃ m, t.team e.1 = some m ∧ m.ramp = .started)) ∧
    (s.damper.pinned = [] →
      (d.used ≤ u.rise → ∃ t, exec .rampSlot s = .next t ∧ t.damper.slot = slot ∧ t.damper.used ≤ u.rise) ∧
      (u.grants = true → ∀ (o n : Nat) (w : Waiter) (ws : List (Nat × Nat × Waiter)), u.waiters slot = (o, n, w) :: ws →
        (u.rise < d.used + n → exec .rampSlot s = .next { u with damper := d }) ∧
        (d.used + n ≤ u.rise → ∀ k m, w = .team k → s.team k = some m →
          ∃ t m', exec .rampSlot s = .next t ∧ t.team k = some m' ∧ m'.ramp = .started ∧ d.used + n ≤ t.damper.used)))

/-- R190, R212, R213, R215: a compaction changes no value, and empties the staging buffers of the groups it moves; where the
one group of a core that waits in REGGROW cannot be served and no other goes on, it has the grow-deadlock fault; a group
whose count has reached the watchdog's interval has the watchdog fault at the instruction it waits to issue, and what that
instruction asked of the page-store unit and has not had is dropped; SCHED_CTL
takes a legal value, of which the host changes no AGEM. -/
def Claims.WatchdogAndCompaction : Prop :=
  (∀ (s : State) (core : Nat), ∃ t, exec (.registerCompaction core) s = .next t ∧ t = { s with groups := t.groups } ∧
    ∀ k, ∃ b, Tab.find t.groups k = (Tab.find s.groups k).map fun h =>
      if h.core = core ∧ (∀ e ∈ h.v, e.2.full = true) ∧ h.base ≠ b then { h with base := b, staged := [] } else h) ∧
  (∀ (s : State) (g : Group), s.group g.core g.slot = some g →
    ((s.groupsOf g.core).filter fun h => h.growSince.isSome && h.stop.isNone) = [g] →
    (∀ h ∈ s.groupsOf g.core, h.stop = none → h.growSince ≠ none) →
    (s.growBehind g = true ∨ s.growPlace g = none) →
    ∃ t, exec (.growDeadlock g.core) s = .next t ∧
      Stops s t { g with growSince := none } (dieOf g.core) 0x53 (reggrowWord.zeroExtend 64) 0 0) ∧
  (∀ (s : State) (g : Group), s.group g.core g.slot = some g → fld (s.reg 0x3000) 1 6 ≠ 0 → g.stop = none →
    g.saved = false → g.quiesce = false → (∀ w, g.waitsIn = some w → w.1 ≠ 3) → g.barSeen = [] →
    2 ^ fld (s.reg 0x3000) 1 6 * 10 ≤ s.clk - g.lastRetire →
    ∃ t d0 m, exec (.watchdog g.core g.slot) s = .next t ∧
      Stops { s with psq := t.psq } t { g with rampWait := none, growSince := none } (dieOf g.core) 0x52 d0 m 0 ∧
      t.psq = s.psq.filter (fun e => !(e.2.core = g.core && e.2.slot = g.slot && e.2.copy.isNone && !e.2.done)) ∧
      ∀ i ws c, (s.fetch g).2 = .ok i ws → i.code = some c → d0 = c.word.zeroExtend 64) ∧
  (∀ (s : State) (src : Bool) (w : BitVec 64),
    let legal := (fld w 1 6 = 0 ∨ (20 ≤ fld w 1 6 ∧ fld w 1 6 ≤ 40)) ∧
      (src = false → w.getLsbD 0 = (s.reg 0x3000).getLsbD 0)
    (legal → exec (.schedCtlWrite src w) s = .next (s.setReg 0x3000 (w &&& 0x7F))) ∧
    (¬legal → exec (.schedCtlWrite src w) s = .next (s.writeError src 0x3000)))

/-- R190, R212, R213, R215, R222 to R224, R466, R467: the ramp, the watchdog and compaction. The model's own choices in
it: clk at 2.7 a tk of time that passes (log 36), the unit number of a ramp violation (log 34), compaction moves nothing
that can be seen (log 7).  Under its conditions `exec` answers a next state for: REGISTER_COMPACTION, GROW_DEADLOCK,
RAMP_SLOT, WATCHDOG, SCHED_CTL_WRITE. -/
def Obligations.RampAndWatchdog : Prop :=
  Claims.RampSlots ∧ Claims.WatchdogAndCompaction

/-! ### The fabric at a requester -/

/-- A packet q leaves on its plane through the plane's port (R152 to R154), or is held until the plane takes it (log 23). -/
def Claims.leaves (s t : State) (q : Flit) : Prop :=
  if s.mayLeave q.plane.toNat = true then
    t.out = s.out ++ [{ q with port := BitVec.ofNat 6 (s.portOf q.plane.toNat) }] ∧ t.held = s.held
  else t.out = s.out ∧ t.held = s.held ++ [q]

/-- An access of group g in flight alone, of one lane a, not yet done, on one line l of a window that is not fabric-coherent: a
load into a scalar register, a store, or an atomic of a scalar register; what a request of the line asks for has its sector;
no packet of this package or of a switch is held back, and no request of an access that has gone is outstanding. -/
def Claims.oneLine (s : State) (k : Nat) (o : MemOp) (l : FabLine) (a : LaneAcc) (g : Group) : Prop :=
  s.memops = [(k, o)] ∧ o.lines = [l] ∧ o.lanes = [a] ∧ l.lanes = [a.lane] ∧ l.later = [] ∧ l.fc = false ∧
    a.lane = 0 ∧ a.at_ = .fabric ∧ 0 < o.bytes ∧ (l.isSent = true → l.sect.getLsbD (a.addr.toNat % 64 / 16) = true) ∧ o.engine = none ∧
    o.per = 1 ∧ s.group o.core o.slot = some g ∧ g.spec = none ∧ s.slicePend = [] ∧ s.sliceFwd = [] ∧ s.held = [] ∧
    s.probeHeld = [] ∧ s.orphans = [] ∧
    ((o.kind = .load ∧ o.dstKind = .s ∧ o.nreg = 1 ∧ o.writesP = none) ∨
      (o.kind = .store ∧ o.dstKind = .none ∧ o.writesP = none) ∨
      (o.kind = .atomic ∧ o.dstKind = .s ∧ o.nreg = 1 ∧ o.writesP = some 14))

/-- A group after its access is over with a value and its poison: a load's register, an atomic's register and p14. -/
def Claims.after (o : MemOp) (g : Group) (x : BitVec 64) (pois : Bool) : Group :=
  match o.kind with
  | .load => g.writeS o.dst x pois
  | .atomic => (g.writeS o.dst x pois).writeP 14 g.allLanes (if pois then 0 else g.allLanes)
  | _ => g

/-- R49, R50, R164, R253: an access of lane a settles for a cause: what it would have written is full and poisoned, nothing
is stored, it is over, its group has a late fault with that cause and the lane, and its record goes to the core's die. -/
def Claims.settles (s t : State) (k : Nat) (o : MemOp) (a : LaneAcc) (g : Group) (cause : BitVec 8) : Prop :=
  let r := s.emit (dieOf o.core) (record0 a.addr 1 o.pc o.access cause.toNat o.seq o.asid o.core o.slot)
  Tab.find t.memops k = none ∧ t.mem = r.mem ∧ t.mtus = r.mtus ∧ t.out = s.out ∧
    ∃ (x : BitVec 64), t.group o.core o.slot = some { Claims.after o g x true with
      late := g.late ++ [⟨cause, .boundary, 1, []⟩] }

/-- R85, R164: an access is over with the element of its line's data at its address, poisoned with its sector. -/
def Claims.fills (s t : State) (k : Nat) (o : MemOp) (a : LaneAcc) (g : Group) (f : Flit) : Prop :=
  let pos := a.addr.toNat % 64
  Tab.find t.memops k = none ∧ t.mem = s.mem ∧ t.out = s.out ∧ t.group o.core o.slot =
    some (Claims.after o g (extendScalar o.type (lineGet f.data pos o.bytes)) (f.pois.getLsbD (pos / 16)))

/-- R46 to R49, R163: a TICKET keeps the line under its number, and its timeout runs from the first; a notice that the page
is serviced sends the request again as the replay of that ticket where its plane is open; one that refuses, and the
timeout, settle the line with 0x15 and 0x14. -/
def Claims.TicketsAndNotices : Prop :=
  ∀ (s : State) (k : Nat) (o : MemOp) (l : FabLine) (a : LaneAcc) (g : Group), Claims.oneLine s k o l a g → l.host = false →
    (∀ f : Flit, s.takes f = true → l.at_ = .sent f.tag → l.own = f.line → l.node = f.src.toNat →
      ∃ t, exec (.ticket f) s = .next t ∧ Tab.find t.memops k = some { o with lines := [{ l with
          at_ := .ticketed (f.tkt.extractLsb' 0 16), kept := true, joinable := false, replayOf := none, sect := 0, joined := 0
          firstTicket := some (l.firstTicket.getD s.now.toNat) }] } ∧
        t.groups = s.groups ∧ t.mem = s.mem ∧ t.out = s.out) ∧
    (∀ (f : Flit) (n : BitVec 16) (st : BitVec 2), s.takes f = true → f.noticeSlots = [(n, st)] → l.at_ = .ticketed n →
      l.node = f.src.toNat →
      (st = 0 → s.planeOpen (planeOf l.line) = true → ∃ t q, exec (.notice f) s = .next t ∧ t.out = s.out ++ [q] ∧
        q.replay = true ∧ q.ticket = n ∧ q.line = l.own ∧ q.key = l.key ∧ q.gen = l.gen ∧ q.tag = s.txTag ∧
        q.plane.toNat = planeOf l.line ∧ q.port.toNat = s.portOf (planeOf l.line) ∧
        Tab.find t.memops k = some { o with lines := [{ l with
          at_ := .sent s.txTag, sect := o.lineSect l, replayOf := some n, joinable := false }] } ∧
        t.groups = s.groups) ∧
      (st = 0 → s.planeOpen (planeOf l.line) = false → ∃ t, exec (.notice f) s = .next t ∧ t.out = s.out ∧
        Tab.find t.memops k = some { o with lines := [{ l with at_ := .noticed n }] } ∧ t.groups = s.groups) ∧
      (st = 1 → ∃ t, exec (.notice f) s = .next t ∧ Claims.settles s t k o a g 0x15)) ∧
    (∀ n, l.firstTicket = some n → l.at_ ≠ .done → l.tmo ≤ (s.now - BitVec.ofNat 64 n).toNat →
      ∃ t, exec (.ticketExpiry (1024 * k)) s = .next t ∧ Claims.settles s t k o a g 0x14)

/-- R85, R152, R161, R164, R172, R173: a response of STATUS 0 completes the access it answers, any other settles it with
that cause; a completion of the host does so with 0x1A; credit lets the request of a line that waits for it go; and a
port's failure closes its planes and settles what is outstanding on them with 0x19. The model's own choices in it: the
value that a refused line leaves is free (log 4), the completion of a store (log 47).  Under its conditions `exec`
answers a next state for: RDRSP, WRACK, ATRSP, PORT_FAILURE, HOST_COMPLETION, PLANE_CREDIT. -/
def Obligations.ResponsesAndPorts : Prop :=
  (∀ (s : State) (k : Nat) (o : MemOp) (l : FabLine) (a : LaneAcc) (g : Group) (f : Flit), Claims.oneLine s k o l a g →
    l.at_ = .sent f.tag → l.own = f.line →
    (l.host = false → l.node = f.src.toNat → s.takes f = true →
      ∀ i, (o.kind = .load ∧ i = Instr.rdrsp f) ∨ (o.kind = .store ∧ i = .wrack f) ∨ (o.kind = .atomic ∧ i = .atrsp f) →
        (f.status = 0 → ∃ t, exec i s = .next t ∧ Claims.fills s t k o a g f) ∧
        (f.status ≠ 0 → ∃ t, exec i s = .next t ∧ Claims.settles s t k o a g f.status)) ∧
    (l.host = true → (f.status = 0 → ∃ t, exec (.hostCompletion f) s = .next t ∧ Claims.fills s t k o a g f) ∧
      (f.status ≠ 0 → ∃ t, exec (.hostCompletion f) s = .next t ∧ Claims.settles s t k o a g 0x1A)) ∧
    (∀ port, l.host = false → l.firstTicket = none → s.portOf (planeOf l.line) = port →
      ∃ t, exec (.portFailure port) s = .next t ∧ Claims.settles s t k o a g 0x19 ∧ port ∈ t.portFail)) ∧
  (∀ (s : State) (k : Nat) (o : MemOp) (l : FabLine) (a : LaneAcc) (g : Group), Claims.oneLine s k o l a g →
    l.at_ = .queued → l.host = false → s.probes = [] → s.efiOn = true →
    let p := planeOf l.line
    (s.reg (0x6040 + p / 8 * 8)).getLsbD (p % 8 * 8 + 7) = true →
    ∃ t q, exec (.planeCredit p) s = .next t ∧ (∀ x, x ≠ p → (x ∈ t.noCredit ↔ x ∈ s.noCredit)) ∧
      t.out = s.out ++ [q] ∧ q.line = l.own ∧ q.key = l.key ∧ q.gen = l.gen ∧ q.tag = s.txTag ∧ q.replay = false ∧
      q.plane.toNat = p ∧ q.port.toNat = s.portOf p ∧ q.typ = (match o.kind with | .store => (2 : BitVec 5) | .atomic => 3 | _ => 1)) ∧
  (∀ (s : State) (port : Nat), (∀ e ∈ s.memops, e.2.lines = []) →
    ∃ t, exec (.portFailure port) s = .next t ∧ t = { s with regs := t.regs, portFail := t.portFail, orphans := t.orphans } ∧
      port ∈ t.portFail ∧
      ∀ p, p < 64 → (t.reg (0x6040 + p / 8 * 8)).getLsbD (p % 8 * 8 + 7) =
        (decide (s.portOf p ≠ port) && (s.reg (0x6040 + p / 8 * 8)).getLsbD (p % 8 * 8 + 7)))

/-! ### The fabric at an owner -/

/-- State t is state s with flit q sent, in what a requester can see of storage and groups. -/
def Claims.sends (s t : State) (q : Flit) : Prop := Claims.leaves s t q ∧ t.mem = s.mem ∧ t.groups = s.groups

/-- A response to request f with a status (R161), on its plane (R155). -/
def Claims.answers (f q : Flit) (status : BitVec 8) : Prop :=
  q.typ = f.typ + 3 ∧ q.src = f.dst ∧ q.dst = f.src ∧ q.tag = f.tag ∧ q.line = f.line ∧ q.status = status ∧
    q.plane = f.plane

/-- R43, R160, R165: a request that is no replay is refused where its window is closed (0x19), by another generation
(0x18) or key (0x16), outside its bounds or for an access that it does not permit (0x17), in that order; a replay that
names no held ticket with 0x15, and one that names its ticket frees it, but of an atomic, of which more packets may
follow (log 63), and is performed without those checks. A request passed and translated, whose line no switch holds and
no other request waits for, is performed and answered: a read with the line, a write by storing the bytes of its mask,
an atomic changing nothing outside its line; one whose page is not resident is ticketed, or, where it asks not to be,
answered with 0x11. The model's own choices in it: a line that switches hold and the poison of a WR (log 22), what a
ticket's replay takes up (log 63).  Under its conditions `exec` answers a next state for: OWNER_REQUEST. -/
def Obligations.OwnerServesRequests : Prop :=
  ∀ (s : State) (f : Flit), s.takes f = true → f.typ = 1 ∨ f.typ = 2 ∨ f.typ = 3 → f.fc = false → (f.typ = 1 → f.sect ≠ 0) →
    let e := Tab.get Export.closed s.exports f.win.toNat
    let refused (c : BitVec 8) : Prop := ∃ t q, exec (.ownerRequest f) s = .next t ∧ Claims.sends s t q ∧ Claims.answers f q c
    let va : BitVec 64 := f.line.zeroExtend 64 * 64
    let inside := descBase e.desc ≤ va.toNat ∧ va.toNat < descBase e.desc + descLen e.desc
    let access := if f.typ = 1 then 0 else if f.typ = 2 then 1 else 2
    (f.replay = true → (∀ t, Tab.find s.owned f.ticket.toNat = some t → t.peer ≠ f.src.toNat ∨ t.ofs ≠ f.line.toNat) →
      refused 0x15) ∧
    (f.replay = true → ∀ (o : OwnedTicket) (v : State) (k : Nat), Tab.find s.owned f.ticket.toNat = some o →
      o.peer = f.src.toNat → o.ofs = f.line.toNat →
      (s.ticketArrived f o).translate (vaDie va) o.asid (vaOfs va) access = (v, .ok k) → v.lentAt k = [] →
      (∀ e ∈ v.ownerQ, e.1 ≠ k / 64 * 64) →
      ∃ t q, exec (.ownerRequest f) s = .next t ∧ Claims.leaves v t q ∧ t.groups = v.groups ∧ Claims.answers f q 0 ∧
        Tab.find t.owned f.ticket.toNat = if f.typ = 3
          then some { o with arrived := true, sentAt := some (o.sentAt.getD s.now.toNat) } else none) ∧
    (f.replay = false →
      (e.st = 0 → refused 0x19) ∧
      (e.st ≠ 0 → descGen e.desc ≠ f.gen → refused 0x18) ∧
      (e.st ≠ 0 → descGen e.desc = f.gen → descKey e.desc ≠ f.key → refused 0x16) ∧
      (e.st ≠ 0 → descGen e.desc = f.gen → descKey e.desc = f.key → ¬(inside ∧ descPermits e.desc access = true) →
        refused 0x17) ∧
      (e.st ≠ 0 → descGen e.desc = f.gen → descKey e.desc = f.key → inside → descPermits e.desc access = true →
        (∀ o ∈ s.owned, ¬(o.2.peer = f.src.toNat ∧ o.2.core = f.core.toNat ∧ o.2.slot = f.slot ∧ o.2.ofs = f.line.toNat)) →
        (∀ v k, s.translate (vaDie va) (descAsid e.desc) (vaOfs va) access = (v, .ok k) → v.lentAt k = [] →
          let b := k / 64 * 64
          (∀ e ∈ v.ownerQ, e.1 ≠ b) →
          ∃ t q, exec (.ownerRequest f) s = .next t ∧ Claims.leaves v t q ∧ t.groups = v.groups ∧ Claims.answers f q 0 ∧
            (f.typ = 1 → t.mem = v.mem ∧ q.data = BitVec.ofNat 512 (v.readLE b 64)) ∧
            (f.typ = 2 → ∀ j, j < 64 → t.byte (b + j) =
              if f.bmask.getLsbD j then f.data.extractLsb' (8 * j) 8 else v.byte (b + j)) ∧
            ∀ n, n < b ∨ b + 64 ≤ n → t.byte n = v.byte n) ∧
        (∀ v, s.translate (vaDie va) (descAsid e.desc) (vaOfs va) access = (v, .error 0x11) →
          (f.nf = true → ∃ t q, exec (.ownerRequest f) s = .next t ∧ Claims.sends v t q ∧ Claims.answers f q 0x11) ∧
          (f.nf = false → v.owned.length < 65536 → (v.mtu (vaDie va)).pend.length < 512 →
            ∃ t q n o, exec (.ownerRequest f) s = .next t ∧ Claims.leaves v t q ∧ q.typ = 7 ∧ q.dst = f.src ∧ q.tag = f.tag ∧
              q.tkt.extractLsb' 0 16 = BitVec.ofNat 16 n ∧ Tab.find t.owned n = some o ∧ o.peer = f.src.toNat ∧
              o.ofs = f.line.toNat ∧ o.core = f.core.toNat ∧ o.slot = f.slot ∧ t.groups = v.groups))))

/-- R42 to R44, R163: OP 2 and OP 3 of MTU_REPLAY queue a notice for a ticket that the owner holds for the peer and has queued
none for, and are a write error for any other; 1 µs after the first that waits, the peer's notice is sent, a refused
ticket then being free; a ticket not replayed within its timeout of its notice is free. -/
def Claims.OwnerNotices : Prop :=
  (∀ (s : State) (die peer n : Nat) (ok : Bool), die < 2 →
    let i : Instr := if ok then .noticeServiced die peer n else .noticeRefused die peer n
    (∀ o : OwnedTicket, Tab.find s.owned n = some o → o.peer = peer → o.queued = false → o.arrived = false → n < 2 ^ 16 →
      (s.notices.filter fun x => x.peer = peer).length < 11 →
      ∃ t, exec i s = .next t ∧ t.notices = s.notices ++ [⟨peer, BitVec.ofNat 16 n, if ok then 0 else 1, s.now.toNat⟩] ∧
        Tab.find t.owned n = some { o with queued := true } ∧ t.out = s.out ∧ t.mem = s.mem ∧ t.groups = s.groups) ∧
    ((∀ o, Tab.find s.owned n = some o → o.peer ≠ peer ∨ o.queued = true ∨ o.arrived = true) →
      exec i s = .next (s.writeError false (mtuReg die 0x40)))) ∧
  (∀ (s : State) (peer at_ : Nat) (n : BitVec 16) (st : BitVec 2) (o : OwnedTicket), s.notices = [⟨peer, n, st, at_⟩] →
    1000 ≤ (s.now - BitVec.ofNat 64 at_).toNat → Tab.find s.owned n.toNat = some o →
    ∃ t q, exec (.noticeTimer peer) s = .next t ∧ Claims.sends s t q ∧ q.typ = 8 ∧ q.dst = BitVec.ofNat 10 peer ∧
      q.count = 1 ∧ q.payload = (st ++ n).zeroExtend 216 ∧ t.notices = [] ∧
      Tab.find t.owned n.toNat = if st = 1 then none else some { o with sentAt := some s.now.toNat }) ∧
  (∀ (s : State) (n at_ : Nat) (o : OwnedTicket), Tab.find s.owned n = some o → o.sentAt = some at_ →
    o.timeout ≤ (s.now - BitVec.ofNat 64 at_).toNat →
    ∃ t, exec (.ownerTicketTimeout n) s = .next t ∧ Tab.find t.owned n = none ∧ t = { s with owned := t.owned })

/-- R42 to R44, R46 to R49, R163: tickets and notices at the requester and at the owner. The model's own choices in it:
OP 2 and 3 at either die (log 61), the value that a refused line leaves is free (log 4).  Under its conditions `exec`
answers a next state for: NOTICE_SERVICED, NOTICE_REFUSED, NOTICE_TIMER, OWNER_TICKET_TIMEOUT, TICKET, NOTICE,
TICKET_EXPIRY. -/
def Obligations.TicketsAndReplayNotices : Prop :=
  Claims.TicketsAndNotices ∧ Claims.OwnerNotices

/-- R137, R166 to R169: a RECALL returns the dirty sectors of the package's copy of the line, which is dropped, and one
between an owner and its switch (log 22) those of the slice's line, once no L2 holds it; an owner takes the dirty
sectors of a switch's RECACK into memory. A probe is answered once no release of the package's cores to its line that
was in flight is left, and an answer is taken from those that an acquire awaits. A slice serves a read from a line that
it holds and permits, performs a write or an atomic on one that it owns, asks the owner for a fabric-coherent line that
it does not hold, and forwards any other request; one for a line that it is busy with waits its turn (R155). The model's
own choices in it: the conventions of slices, RECALL, RECACK and PROBE (log 22).  Under its conditions `exec` answers a
next state for: SWITCH_REQUEST, RECALL, RECACK, PROBE, PROBEACK. -/
def Obligations.RecallsProbesAndSlices : Prop :=
  (∀ (s : State) (f : Flit), s.takes f = true → f.hop = false →
    let k := l2Key f.plane.toNat f.src.toNat f.line
    let c := Tab.get SliceLine.none s.fabDir k
    ∃ t q, exec (.recall f) s = .next t ∧ Claims.sends s t q ∧ q.typ = 0x10 ∧ q.dst = f.src ∧ q.tag = f.tag ∧ q.line = f.line ∧
      q.plane = f.plane ∧ q.dirty = c.dirty ∧ (c.dirty ≠ 0 → q.data = c.data) ∧
      Tab.get SliceLine.none t.fabDir k = SliceLine.none) ∧
  (∀ (s : State) (f : Flit), f.hop = true → f.typ = 0x0F → headerBad f.header = false → f.line ≠ wholeWindow →
    s.slicePend = [] →
    let k := l2Key f.plane.toNat f.src.toNat f.line
    let c := Tab.get SliceLine.none s.slices k
    (c.holders = [] → ∃ t q, exec (.recall f) s = .next t ∧ t.out = s.out ++ [q] ∧ t.mem = s.mem ∧ t.groups = s.groups ∧
      q.typ = 0x10 ∧ q.dst = f.src ∧ q.tag = f.tag ∧ q.line = f.line ∧ q.dirty = c.dirty ∧ (c.dirty ≠ 0 → q.data = c.data) ∧
      Tab.get SliceLine.none t.slices k = SliceLine.none) ∧
    (c.holders ≠ [] → ∃ t qs, exec (.recall f) s = .next t ∧ t.out = s.out ++ qs ∧ t.slices = s.slices ∧
      qs.map (fun (q : Flit) => q.dst.toNat) = c.holders.map (· % 1024) ∧
      ∀ q ∈ qs, q.typ = 0x0F ∧ q.src = f.src ∧ q.line = f.line)) ∧
  (∀ (s : State) (f : Flit) (n : Nat), s.takes f = true → f.hop = true → f.line ≠ wholeWindow →
    (Tab.first s.lent fun ls => ls.contains (lentKey f.line f.plane)) = some n → (∀ e ∈ s.ownerQ, e.1 ≠ 64 * n) →
    ∃ t, exec (.recack f) s = .next t ∧
      Tab.get [] t.lent n = (Tab.get [] s.lent n).erase (lentKey f.line f.plane) ∧
      (∀ j, j < 64 → t.byte (64 * n + j) =
        if f.dirty.getLsbD (j / 16) then f.data.extractLsb' (8 * j) 8 else s.byte (64 * n + j)) ∧
      ∀ a, a < 64 * n ∨ 64 * n + 64 ≤ a → t.byte a = s.byte a) ∧
  (∀ (s : State) (f : Flit), s.takes f = true → s.held = [] → s.probeHeld = [] → (∀ e ∈ s.memops, e.2.lines = []) →
    let busy (e : Nat × MemOp) : Prop := e.2.engine = none ∧ e.2.kind ≠ .fetch ∧ e.2.kind ≠ .result ∧ e.2.releases = true ∧
      e.2.space = 0 ∧ ∃ l ∈ e.2.lanes, isFabric l.addr = false ∧ l.addr.toNat / 64 = f.line.toNat
    let answer (q : Flit) : Prop := q.typ = 0x0E ∧ q.dst = f.src ∧ q.tag = f.tag ∧ q.line = f.line
    ((∀ e ∈ s.memops, ¬busy e) → ∃ t q, exec (.probe f) s = .next t ∧ Claims.sends s t q ∧ answer q) ∧
    ((∀ e ∈ s.memops, Tab.find s.memops e.1 = some e.2) → (∃ e ∈ s.memops, busy e) →
      ∃ q ks, exec (.probe f) s = .next { s with probeHeld := [(q, ks)] } ∧ answer q ∧
        ∀ k, k ∈ ks ↔ ∃ o, (k, o) ∈ s.memops ∧ busy (k, o))) ∧
  (∀ (s : State) (f : Flit) (id : Nat) (ps ks : List Nat), s.takes f = true → s.memops = [] → s.held = [] → s.probeHeld = [] →
    id < 4096 → f.tag = BitVec.ofNat 12 id → s.probes = [⟨id, ps, ks⟩] →
    exec (.probeack f) s = .next { s with probes := [⟨id, ps.erase f.src.toNat, ks⟩] }) ∧
  (∀ (s : State) (f : Flit), headerBad f.header = false → f.typ = 1 ∨ f.typ = 2 ∨ f.typ = 3 →
    let k := l2Key f.plane.toNat f.dst.toNat f.line
    let c := Tab.get SliceLine.none s.slices k
    let permits := c.valid = 0xF ∧ c.win = f.win ∧ c.gen = f.gen ∧ c.key = f.key ∧ f.replay = false ∧
      c.perm.getLsbD (f.typ.toNat - 1) = true
    let served (t : State) (q : Flit) : Prop := exec (.switchRequest f.plane.toNat f) s = .next t ∧
      t.out = s.out ++ [q] ∧ t.mem = s.mem ∧ t.groups = s.groups
    ((∃ p ∈ s.slicePend, p.line = k) → exec (.switchRequest f.plane.toNat f) s =
      .next { s with slicePend := s.slicePend ++ [⟨f.plane.toNat, k, f, .turn, [], true⟩] }) ∧
    ((∀ p ∈ s.slicePend, p.line ≠ k) →
      (permits → f.fc = false → f.typ = 1 → f.sect ≠ 0 → c.excl = none →
        ∃ t q, served t q ∧ Claims.answers f q 0 ∧ q.data = c.data ∧ t.slices = s.slices) ∧
      (permits → f.fc = false → f.typ ≠ 1 → c.excl ≠ none → c.holders = [] → ∃ t q, served t q ∧ Claims.answers f q 0 ∧
        let d := Tab.get SliceLine.none t.slices k
        d.data = (flitPerform f c.data c.pois).1 ∧ d.dirty = 0xF ∧ q.data = (flitPerform f c.data c.pois).2.2.1) ∧
      (c = SliceLine.none → ¬(f.typ = 1 ∧ f.fc = true) → ∃ t, served t f ∧ t.slices = s.slices) ∧
      (c = SliceLine.none → f.typ = 1 → f.fc = true → ∃ t q, served t q ∧ q.typ = 1 ∧ q.fc = true ∧ q.excl = f.excl ∧
        q.sect = 0xF ∧ q.src = f.src ∧ q.dst = f.dst ∧ q.line = f.line ∧ t.slices = s.slices)))

/-! ### Windows and time -/

/-- R170: OPEN takes the next generation of a closed window and opens it, and is a write error in any other state; CLOSE
of an open window asks its holders and every switch; FORCE closes an invalidating window at once, and is a write error
in any other state; an open window records the holder whose key matches and sends its descriptor, and refuses another
key with 0x16, a window that is not open with 0x19; a WINACK of the generation takes its source from the holders; 1 ms
after entering, with holders left, STUCK is set. The model's own choices in it: the LINE of a whole window's RECALL (log
30).  Under its conditions `exec` answers a next state for: WINREQ_RECEIVE, WINACK, EXPCTL_OPEN, EXPCTL_CLOSE,
EXPCTL_FORCE, EXPORT_STUCK_TIMEOUT. -/
def Obligations.ExportedWindows : Prop :=
  (∀ (s : State) (w : Nat) (src : Bool), w < 64 →
    let e := s.exp w
    let d := BitVec.ofNat 256 (s.readLE (s.baseOf 0x6018 11 + 32 * w) 32)
    let go (t : State) : Bool := (t.readReg 0x6020).getLsbD 63
    (e.st = 0 → ∃ t, exec (.expctlOpen w src) s = .next t ∧ (t.exp w).st = 1 ∧ (t.exp w).holders = [] ∧
      descGen (t.exp w).desc = descGen d + 1 ∧ descKey (t.exp w).desc = descKey d ∧ descBase (t.exp w).desc = descBase d ∧
      go t = false) ∧
    (e.st ≠ 0 → exec (.expctlOpen w src) s = .next (s.writeError src 0x6020)) ∧
    (e.st = 1 → ∃ t, exec (.expctlClose w src) s = .next t ∧ (t.exp w).st = 2 ∧ (t.exp w).holders = e.holders ∧
      (∀ n ∈ e.holders, ∃ q ∈ t.out ++ t.held, q.typ = 0x0B ∧ q.dst = BitVec.ofNat 10 n ∧ q.win = BitVec.ofNat 6 w ∧
        q.gen = descGen e.desc) ∧
      ((t.out ++ t.held).filter fun q => q.typ = 0x0F ∧ q.win = BitVec.ofNat 6 w).length =
        64 + ((s.out ++ s.held).filter fun q => q.typ = 0x0F ∧ q.win = BitVec.ofNat 6 w).length ∧ go t = true) ∧
    (e.st = 2 → ∃ t, exec (.expctlForce w src) s = .next t ∧ (t.exp w).st = 0 ∧ (t.exp w).holders = [] ∧
      go t = false) ∧
    (e.st ≠ 2 → exec (.expctlForce w src) s = .next (s.writeError src 0x6020)) ∧
    (e.st = 2 → e.holders ≠ [] → 1000000 ≤ (s.now - BitVec.ofNat 64 e.at_).toNat → ∃ t, exec (.exportStuckTimeout w) s = .next t ∧
      t.exp w = { e with stuck := true } ∧ t.out = s.out ∧ t.mem = s.mem ∧
      (fld (s.reg 0x6020) 0 6 = w → (t.readReg 0x6020).getLsbD 8 = true))) ∧
  (∀ (s : State) (f : Flit), s.takes f = true →
    let w := f.win.toNat
    let e := s.exp w
    let answered (t : State) (c : BitVec 8) (q : Flit) : Prop := exec (.winreqReceive f) s = .next t ∧
      Claims.sends s t q ∧ q.typ = 0x0A ∧ q.dst = f.src ∧ q.win = f.win ∧ q.status = c
    (e.st ≠ 1 → ∃ t q, answered t 0x19 q) ∧ (e.st = 1 → descKey e.desc ≠ f.key → ∃ t q, answered t 0x16 q) ∧
    (e.st = 1 → descKey e.desc = f.key → ∃ t q, answered t 0 q ∧ (t.exp w).st = 1 ∧ f.src.toNat ∈ (t.exp w).holders ∧
      (∀ n ∈ e.holders, n ∈ (t.exp w).holders) ∧ descGen q.desc = descGen e.desc ∧ descBase q.desc = descBase e.desc ∧
      descLen q.desc = descLen e.desc ∧ descKey q.desc = f.key ∧ descAsid q.desc = 0) ∧
    (e.st = 1 → descGen e.desc = f.gen → ∃ t, exec (.winack f) s = .next t ∧
      t.exp w = { e with holders := e.holders.erase f.src.toNat } ∧ t.out = s.out) ∧
    (e.st = 2 → descGen e.desc = f.gen → e.holders = [f.src.toNat] → e.recalls = 0 →
      ∃ t, exec (.winack f) s = .next t ∧ (t.exp w).st = 0 ∧ t.expGo ≠ some w ∧
        (s.expGo = some w → (t.readReg 0x6020).getLsbD 63 = false)))

/-- R56, R159, R171, R174: a WINRSP of STATUS 0 for a generation not killed makes the fetching window valid, with the
ASID and the PGEN of its entry, and the WINREQ gives 0; another makes it absent, with the STATUS or 0x19; a WININV of
the held generation drains a valid window, and a drained one is acknowledged and absent; a package that is no master
asks for the time every 2^20 tk, a master answers, and the answer sets OFS to half the round trip, steps the time on
where that is over 1,024 tk and else leaves it to be made up for by slewing, and sets LOCK where it is at most 8. The
model's own choices in it: half of the round trip as the offset, its step and its slew (log 24), the master's node free
(log 4), the lowest of several peer indexes and the pairs that R171's table lacks (log 22).  Under its conditions `exec`
answers a next state for: WINRSP, WININV, WINDOW_DRAIN_COMPLETE, TSYNC_TIMER, TSYNC, TSYNCRSP. -/
def Obligations.WindowsAndTimeSync : Prop :=
  (∀ (s : State) (f : Flit) (p : Nat) (q : WinWait) (g : Group), s.takes f = true →
    let w := f.win.toNat
    s.peerOf f.src.toNat w (fun d => descState d = 3) = some p → s.winWaits = [q] → q.peer = p → q.win = w →
    q.asid = descAsid (s.winDesc p w) → s.group q.core q.slot = some g → g.spec = none →
    let killed := (p * 64 + w, descGen f.desc) ∈ s.killedGens
    (f.status = 0 → ¬killed → ∃ t, exec (.winrsp f) s = .next t ∧ descState (t.winDesc p w) = 1 ∧
      descKey (t.winDesc p w) = descKey f.desc ∧ descGen (t.winDesc p w) = descGen f.desc ∧
      descAsid (t.winDesc p w) = q.asid ∧ t.winWaits = [] ∧ t.group q.core q.slot = some (g.writeS q.dst 0 false)) ∧
    (f.status ≠ 0 ∨ killed → ∃ t, exec (.winrsp f) s = .next t ∧ descState (t.winDesc p w) = 0 ∧ t.winWaits = [] ∧
      t.group q.core q.slot =
        some (g.writeS q.dst (if f.status = 0 then 0x19 else f.status.zeroExtend 64) false))) ∧
  (∀ (s : State) (f : Flit), s.takes f = true →
    let w := f.win.toNat
    let held := s.peerOf f.src.toNat w fun d => decide (descState d ≠ 0)
    let acked : Prop := ∃ t q, exec (.wininv f) s = .next t ∧ Claims.sends s t q ∧ q.typ = 0x0C ∧ q.dst = f.src ∧
      q.win = f.win ∧ q.gen = f.gen
    (held = none → acked) ∧
    ∀ p, held = some p → let d := s.winDesc p w
      (descState d = 1 → descGen d = f.gen →
        ∃ t, exec (.wininv f) s = .next t ∧ t.out = s.out ∧ descState (t.winDesc p w) = 2) ∧
      (descGen d ≠ f.gen ∨ descState d = 3 → acked)) ∧
  (∀ (s : State) (p w : Nat), p < 1023 → w < 64 → descState (s.winDesc p w) = 2 →
    s.winBusy p w (descGen (s.winDesc p w)) = false → s.winWaits = [] →
    ∃ t q, exec (.windowDrainComplete p w) s = .next t ∧ Claims.leaves s t q ∧ q.typ = 0x0C ∧ q.win = BitVec.ofNat 6 w ∧
      q.gen = descGen (s.winDesc p w) ∧ descState (t.winDesc p w) = 0) ∧
  (∀ (s : State), s.efiOn = true → (s.reg 0x6080).getLsbD 0 = false → 2 ^ 20 ≤ (s.now - BitVec.ofNat 64 s.tsyncAt).toNat →
    ∃ t q, exec .tsyncTimer s = .next t ∧ Claims.sends s t q ∧ q.typ = 0x11 ∧ t.tsync = s.now) ∧
  (∀ (s : State) (f : Flit), s.takes f = true →
    ((s.reg 0x6080).getLsbD 0 = true → ∃ t q, exec (.tsync f) s = .next t ∧ Claims.sends s t q ∧ q.typ = 0x12 ∧
      q.dst = f.src ∧ q.tag = f.tag) ∧
    ((s.reg 0x6080).getLsbD 0 = false → s.tsync.toNat ≤ s.now.toNat → s.now.toNat < 2 ^ 63 →
      let ofs := (s.now.toNat - s.tsync.toNat) / 2
      ∃ t, exec (.tsyncrsp f) s = .next t ∧
        t = { s with regs := t.regs, now := t.now, slew := if 1024 < ofs then 0 else ofs } ∧
        fld (t.reg 0x6088) 0 16 = ofs % 2 ^ 16 ∧ t.now.toNat = s.now.toNat + (if 1024 < ofs then ofs else 0) ∧
        (t.reg 0x6080).getLsbD 1 = ((s.reg 0x6080).getLsbD 1 || decide (ofs ≤ 8)) ∧
        ∀ o, o ≠ 0x6080 → o ≠ 0x6088 → t.reg o = s.reg o))

/-! ### Carillon -/

/-- R216 to R218, R221: a legal CAR_CTL is taken, EN going to 1 starting frames at frame number and rotation pointer 0, and
while EN is 1 no other field may change; a request's arrival is a trigger; a command of CAR_SCMD that fits its slot's state
waits for the boundary with GO set, and one that does not, or meets another, is a write error. -/
def Claims.CarillonCommands : Prop :=
  (∀ (s : State) (src : Bool) (w : BitVec 64),
    let old := s.reg 0x4000
    let legal := 1 ≤ fld w 5 6 ∧ fld w 5 6 ≤ 32 ∧ 1 ≤ fld w 27 14 ∧ fld w 27 14 ≤ 8192 ∧
      (old.getLsbD 0 = true → w.extractLsb' 1 40 = old.extractLsb' 1 40 ∧ old.toNat < 2 ^ 41)
    (legal → ∃ t, exec (.carillonEnable src w) s = .next t ∧ t = { s with regs := t.regs, carillon := t.carillon } ∧
      t.reg 0x4000 = w &&& 0x1FFFFFFFFFF ∧ (∀ o, o ≠ 0x4000 → t.reg o = s.reg o) ∧
      (w.getLsbD 0 = true → old.getLsbD 0 = false → t.carillon.running = true ∧ t.carillon.frame = 0 ∧ t.carillon.rp = 0 ∧
        t.carillon.trigger = true ∧ t.carillon.inFrame = false) ∧
      (w.getLsbD 0 = false → old.getLsbD 0 = true → t.carillon = { s.carillon with running := false, trigger := false }) ∧
      (w.getLsbD 0 = old.getLsbD 0 → t.carillon = s.carillon)) ∧
    (¬legal → old.toNat < 2 ^ 41 → exec (.carillonEnable src w) s = .next (s.writeError src 0x4000))) ∧
  (∀ (s : State) (src : Bool) (n : BitVec 16),
    (∃ t, exec (.rqtailWrite src n) s = .next t ∧
      t = { s with regs := t.regs, carillon := if s.carillon.running then { s.carillon with
        trigger := true, again := s.carillon.again || decide (s.carillon.faultStep ≠ 0) } else s.carillon } ∧
      fld (t.reg 0x4038) 5 16 = n.toNat ∧ fld (t.reg 0x4038) 21 16 = fld (s.reg 0x4038) 21 16) ∧
    ∃ t, exec (.cqheadWrite src n) s = .next t ∧ t = { s with regs := t.regs } ∧ fld (t.reg 0x4048) 5 16 = n.toNat ∧
      fld (t.reg 0x4048) 21 16 = fld (s.reg 0x4048) 21 16) ∧
  (∀ (s : State) (src : Bool) (slot : BitVec 13) (why : BitVec 16), ∀ p ∈ [(0, Instr.scmdFree slot src), (1, .scmdWake slot src),
      (2, .scmdMarkError slot why src)],
    ∀ (v : State) (o : Option Nat), s.slotStateNow slot.toNat = (v, o) →
    let parking := ∃ r ∈ v.carillon.reqs, r.2 = slot.toNat ∧ r.1 ≤ 1
    let fits (st : Nat) : Prop := (p.1 = 0 ∧ st = 8) ∨ (p.1 = 1 ∧ (st = 5 ∨ st = 6 ∨ parking)) ∨ (p.1 = 2 ∧ st ≠ 0)
    let free := (v.reg 0x4000).getLsbD 0 = true ∧ (v.reg 0x4050).getLsbD 63 = false ∧ slot.toNat < fld (v.reg 0x4000) 27 14
    (free → (∃ st, o = some st ∧ fits st) → ∃ t, exec p.2 s = .next t ∧
      (t.reg 0x4050).getLsbD 63 = true ∧ fld (t.reg 0x4050) 0 13 = slot.toNat ∧ fld (t.reg 0x4050) 13 2 = p.1 ∧
      fld (t.reg 0x4050) 15 16 = (if p.1 = 2 then why.toNat else 0) ∧ (3, slot.toNat) ∈ t.carillon.reqs ∧
      t.carillon.trigger = true ∧ (v.carillon.faultStep ≠ 0 → t.carillon.again = true) ∧
      t = { v with regs := t.regs, carillon := t.carillon }) ∧
    (¬(free ∧ ∃ st, o = some st ∧ fits st) → exec p.2 s = .next (v.writeError src 0x4050)))

/-- Steps of a boundary, from step k on, that each go through (R218), with the state they leave. -/
def Claims.steps218 : Nat → Nat → State → State → Prop
  | 0, _, s, t => t = s
  | n + 1, k, s, t => ∃ u, s.boundaryStep k = (u, none) ∧ Claims.steps218 n (k + 1) u t

/-- R218 to R221, R252, R471: at a boundary with a trigger the six steps are done in order, and
one that a step meets a fate in stands at that step, with its record, and is tried again from there.  When a
frame has ended its prefilled tokens count and the next boundary is due with the next frame number; an empty frame is
not published.  The standby takes over from a failed unit between frames, with its record. -/
def Claims.Boundaries : Prop :=
  (∀ (s t : State), s.atBoundary = true → s.carillon.returns = [] →
    let begun : State := { s with carillon := { s.carillon with trigger := false } }
    let done (t : State) : State := { t with carillon := { t.carillon with faultStep := 0 } }
    (s.carillon.trigger = true → s.carillon.faultStep = 0 → Claims.steps218 6 1 begun t →
      exec .frameBoundary s = .next (done t)) ∧
    (∀ k, s.carillon.faultStep = k → 1 ≤ k → k ≤ 6 → Claims.steps218 (7 - k) k begun t →
      exec .carillonStructureRetry s = .next (done t)) ∧
    (∀ n u f, s.carillon.trigger = true → s.carillon.faultStep = 0 → n < 6 → Claims.steps218 n 1 begun u →
      u.boundaryStep (n + 1) = (t, some f) →
      (f.isWait = false → t.carillon.fault ≠ some f.va →
        ∃ v, exec .frameBoundary s = .next v ∧ v.carillon.faultStep = n + 1 ∧ v.carillon.trigger = false ∧
          v.carillon.fault = some f.va ∧ v.groups = t.groups ∧ v.frozen = t.frozen) ∧
      (f.isWait = true → ∃ v, exec .frameBoundary s = .next v ∧ v.carillon.faultStep = n + 1 ∧ v.carillon.trigger = true ∧
        v.carillon.fault = t.carillon.fault))) ∧
  (∀ (s v : State) (l : List (Nat × Nat)), s.carillon.inFrame = true → s.carillon.frameEnded = true →
    s.countAll s.carillon.prefill = (v, l, none) →
    exec .frameEnd s = .next { v with carillon := { v.carillon with
      inFrame := false, frameEnded := false, grid := none, frame := v.carillon.frame + 1, prefill := []
      trigger := v.carillon.running } }) ∧
  (∀ (s v : State) (live : List (Nat × (Nat → BitVec 64))), s.liveSlots s.slots = .ok (v, live) → (v.formFrame live).1 = [] →
    s.publish = .ok { v with carillon := { v.carillon with
      trigger := v.carillon.again, again := false, rp := (v.formFrame live).2 } }) ∧
  (∀ (s : State), s.carillon.failed = true → s.carillon.failedStandby = false → s.carillon.standby = false →
    s.carillon.inFrame = false →
    exec .carillonTakeover s = .next ({ s with carillon := { s.carillon with
      failed := false, standby := true, trigger := s.carillon.running } }.emit 1
        (record3 0 643 4 false s.now 0x09 0 643)))

/-- A part of a boundary over slots, each of which goes through (R218). -/
def Claims.swept (f : State → Nat → Unit_ State) : List Nat → State → State → Prop
  | [], s, t => t = s
  | k :: ks, s, t => ∃ u, f s k = .ok u ∧ Claims.swept f ks u t

/-- Step 2 of a boundary over what has been requested, in order (R218): a park, a wake, or a command, whose GO clears unless
it stays pending, as one of those kept. -/
def Claims.applied : List (Nat × Nat) → List (Nat × Nat) → State → State → Prop
  | kept, [], s, t => t = { s with carillon := { s.carillon with reqs := kept } }
  | kept, r :: rs, s, t =>
    (r.1 ≤ 1 ∧ ∃ u, s.parkSlot r.2 r.1 = .ok u ∧ Claims.applied kept rs u t) ∨
    (r.1 = 2 ∧ ∃ u, s.wakeSlot r.2 = .ok u ∧ Claims.applied kept rs u t) ∨
    (r.1 = 3 ∧ ∃ u, (s.doCommand r.2 = .ok (u, true) ∧
        Claims.applied kept rs (u.setReg 0x4050 (u.reg 0x4050 &&& 0x7FFFFFFFFFFFFFFF)) t) ∨
      (s.doCommand r.2 = .ok (u, false) ∧ Claims.applied (kept ++ [r]) rs u t))

/-- R103, R110, R113, R218, R221, R397, R416: the first four steps of a boundary: slots that are done
are retired, with a completion record, or stay while that ring is full; parks, wakes and commands are
applied in order, and slots parked for memory wake with enough free frames; the length copy and
state of slots in use are renewed; and evictable pages, at most 64, begin to move while too few frames are free. -/
def Claims.BoundaryFirstSteps : Prop :=
  let slots (s : State) : List Nat := List.range (fld (s.reg 0x4000) 27 14)
  let full (s : State) : Prop :=
    let r := s.reg 0x4048
    (fld r 21 16 % 2 ^ fld r 0 5 + 1) % 2 ^ fld r 0 5 = fld r 5 16 % 2 ^ fld r 0 5
  (∀ s t : State, Claims.swept State.retireSlot (slots s) s t → s.boundaryStep 1 = (t, none)) ∧
  (∀ s u t : State, Claims.applied [] s.carillon.reqs s u →
    (fld (u.reg 0x5028) 0 27 < fld (u.reg 0x5040) 0 27 → s.boundaryStep 2 = (u, none)) ∧
    (fld (u.reg 0x5040) 0 27 ≤ fld (u.reg 0x5028) 0 27 →
      Claims.swept (fun s k => do
        let (s, d) ← s.slotDw k 0
        if fld d 0 4 = 6 then s.wakeSlot k else return s) (slots u) u t → s.boundaryStep 2 = (t, none))) ∧
  (∀ s t : State, Claims.swept State.refreshSlot (slots s) s t → s.boundaryStep 3 = (t, none)) ∧
  (∀ s : State,
    ((s.reg 0x5000).getLsbD 0 = false ∨ fld (s.reg 0x5040) 0 27 ≤ fld (s.reg 0x5028) 0 27 → s.boundaryStep 4 = (s, none)) ∧
    ∃ t, s.boundaryStep 4 = (t, none) ∧ t.moves.length ≤ s.moves.length + 64 ∧ ∀ m ∈ t.moves, m ∈ s.moves ∨
      (m.toLpddr = true ∧ (s.pd m.pdi).v = true ∧ (s.pd m.pdi).tier = 0 ∧ (s.pd m.pdi).pin = 0 ∧ (s.pd m.pdi).busy = false)) ∧
  (∀ (s v : State) (slot : Nat) (d : BitVec 64), s.slotDw slot 0 = .ok (v, d) →
    let st := fld d 0 4
    (st ≠ 7 ∨ full v → s.retireSlot slot = .ok v) ∧
    (st = 7 → ¬full v → ∀ (w x y : State) (bt : BitVec 64) (n : Nat), v.slotDw slot 1 = .ok (w, bt) →
      (w.emptyTable bt = .ok (x, n) → x.completeSlot slot 7 n = .ok y → s.retireSlot slot = .ok y) ∧
      ∀ f, w.emptyTable bt = .error f → f.isWait = false → (w.adoptMarks f.seen).slotError slot 0x000B = .ok y →
        s.retireSlot slot = .ok y) ∧
    (∀ kind w, kind ≤ 1 → (2 ≤ st → st ≤ 4 → v.setSlotDw slot 0 (d.extractLsb' 8 56 ++ BitVec.ofNat 4 st ++
        BitVec.ofNat 4 (5 + kind)) = .ok w → s.parkSlot slot kind = .ok w) ∧
      (st < 2 ∨ 4 < st → s.parkSlot slot kind = .ok v)) ∧
    (∀ w x, (st = 5 ∨ st = 6 → v.setSlotDw slot 0 (d.extractLsb' 4 60 ++ d.extractLsb' 4 4) = .ok w →
        w.clearNpend slot = .ok x → s.wakeSlot slot = .ok x) ∧
      (st ≠ 5 → st ≠ 6 → v.clearNpend slot = .ok x → s.wakeSlot slot = .ok x)) ∧
    (fld (s.reg 0x4050) 13 2 = 0 → (st ≠ 8 → s.doCommand slot = .ok (v, true)) ∧
      (st = 8 → full v → s.doCommand slot = .ok (v, false)) ∧
      (st = 8 → ¬full v → ∀ (w x y : State) (bt : BitVec 64) (n : Nat), v.slotDw slot 1 = .ok (w, bt) →
        (w.emptyTable bt = .ok (x, n) → x.completeSlot slot 8 n = .ok y → s.doCommand slot = .ok (y, true)) ∧
        ∀ f, w.emptyTable bt = .error f → f.isWait = false → (w.adoptMarks f.seen).completeSlot slot 8 (fld d 32 32) = .ok y →
          s.doCommand slot = .ok (y, true))) ∧
    (fld (s.reg 0x4050) 13 2 = 2 → (st = 0 → s.doCommand slot = .ok (v, true)) ∧
      (st ≠ 0 → ∀ w, v.slotError slot (fld (s.reg 0x4050) 15 16) = .ok w → s.doCommand slot = .ok (w, true)))) ∧
  (∀ (s v w : State) (bt : BitVec 64) (b : BTab) (n : Nat), s.readTable s.carAsid bt = .ok (v, b) →
    (v.reg 0x5000).getLsbD 0 = true → v.psq = [] → v.copies = [] → v.kvTruncate b 0 = .ok (w, n) →
    s.emptyTable bt = .ok (w, b.length)) ∧
  (∀ (s a b c x : State) (slot final length : Nat) (d0 d13 : BitVec 64), slot < 2 ^ 13 → final < 2 ^ 4 → length < 2 ^ 32 →
    s.slotDw slot 0 = .ok (a, d0) → a.slotDw slot 13 = .ok (b, d13) →
    let r := b.reg 0x4048
    let tail := fld r 21 16 % 2 ^ fld r 0 5
    let rec_ : BitVec 256 := BitVec.ofNat 64 b.carillon.frame ++ BitVec.ofNat 64 length ++
      (0#16 ++ d0.extractLsb' 16 16 ++ 0#15 ++ BitVec.ofNat 4 final ++ BitVec.ofNat 13 slot) ++ d13
    b.vwrite b.carAsid (b.reg 0x4040 + BitVec.ofNat 64 (32 * tail)) 32 rec_.toNat = .ok c →
    c.setSlotState slot 0 = .ok x →
    ∃ y, s.completeSlot slot final length = .ok y ∧ fld (y.reg 0x4048) 21 16 = (tail + 1) % 2 ^ fld r 0 5 % 2 ^ 16 ∧
      y = { x with regs := y.regs, carillon := { x.carillon with admitted := x.carillon.admitted.filter (· ≠ slot) } })

/-- R413, R415, R416, R419, R471: at the third step of a boundary a slot that is free stays; one in use receives its table's
length, goes to error with the first code that R415 gives, with 0x000B where its table cannot be read, and else moves from prefill
to decode when its prompt is done, and between decode and draft as its tree has nodes or none, a bad tree being error 9; a
slot in error only receives the length (log 39). -/
def Claims.SlotsRefreshed : Prop :=
  (∀ (s v : State) (slot : Nat) (e : Nat → BitVec 64), s.entryOf slot = .ok (v, e) →
    let st := fld (e 0) 0 4
    let after (x y : State) (late : Nat) : Prop :=
      (st = 8 → s.refreshSlot slot = .ok x) ∧
      (st ≠ 8 → entryCode e ≠ 0 → x.slotError slot (entryCode e) = .ok y → s.refreshSlot slot = .ok y) ∧
      (st ≠ 8 → entryCode e = 0 → (if late = 0 then x.advanceSlot slot st e else x.slotError slot late) = .ok y →
        s.refreshSlot slot = .ok y)
    (st = 0 → s.refreshSlot slot = .ok v) ∧
    (st ≠ 0 → (e 1).toNat % 64 = 0 → ∀ (w x y : State) (n : Nat), v.vread v.carAsid (e 1) 4 = .ok (w, n) → n < 2 ^ 32 →
      w.setSlotDw slot 0 (BitVec.ofNat 32 n ++ (e 0).extractLsb' 0 32) = .ok x → after x y 0) ∧
    (st ≠ 0 → (e 1).toNat % 64 = 0 → ∀ f y, v.vread v.carAsid (e 1) 4 = .error f → f.isWait = false →
      after (v.adoptMarks f.seen) y 0x000B)) ∧
  (∀ (s t : State) (slot st : Nat) (e : Nat → BitVec 64),
    let nodes := fld (e 8) 16 7
    let st1 := if st = 2 ∧ fld (e 2) 32 32 = fld (e 2) 0 32 then 3 else st
    (st1 = 3 → nodes ≠ 0 → ∀ u ok, s.treeOk (e 10) (fld (e 6) 32 32) 0 nodes = .ok (u, ok) →
      (if ok then u.setSlotState slot 4 else u.slotError slot 9) = .ok t → s.advanceSlot slot st e = .ok t) ∧
    (st1 = 3 → nodes ≠ 0 → ∀ f, s.treeOk (e 10) (fld (e 6) 32 32) 0 nodes = .error f → f.isWait = false →
      (s.adoptMarks f.seen).slotError slot 9 = .ok t → s.advanceSlot slot st e = .ok t) ∧
    ((st1 = 3 ∨ st = 4) → nodes = 0 → st ≠ 3 → s.setSlotState slot 3 = .ok t → s.advanceSlot slot st e = .ok t) ∧
    (st = 3 → nodes = 0 → s.advanceSlot slot st e = .ok s) ∧
    (st1 ≠ 3 → (st = 4 → nodes ≠ 0) → s.advanceSlot slot st e = .ok s)) ∧
  (∀ e : Nat → BitVec 64,
    let temp := (e 5).extractLsb' 0 32
    let topp := (e 5).extractLsb' 32 32
    let badTemp : Prop := Claims.isNan temp = true ∨ (temp.msb = true ∧ temp.extractLsb' 23 8 ≠ 0#8)
    let badTopp : Prop := Claims.isNan topp = true ∨ (topp.msb = true ∧ topp ≠ 0x80000000#32)
    let fine : Prop := 1 ≤ fld (e 6) 32 32 ∧ fld (e 6) 32 32 ≤ 2 ^ 24 ∧ fld (e 8) 0 11 ≤ 1024 ∧ fld (e 8) 16 7 ≤ 64 ∧
      1 ≤ fld (e 3) 32 32 ∧ (∀ k ∈ [1, 9, 10], (e k).toNat % 64 = 0) ∧ (∀ k ∈ [7, 11], (e k).toNat % 4 = 0) ∧
      (e 0).extractLsb' 8 8 = 0 ∧ (e 6).extractLsb' 28 4 = 0 ∧ (e 8).extractLsb' 11 5 = 0 ∧ (e 8).extractLsb' 23 41 = 0 ∧
      (e 12).extractLsb' 33 31 = 0
    (badTemp → entryCode e = 4) ∧ (¬badTemp → badTopp → entryCode e = 5) ∧
    (¬badTemp → ¬badTopp → ¬fine → entryCode e = 6) ∧ (¬badTemp → ¬badTopp → fine → entryCode e = 0) ∧
    ∀ (n : Nat) (table : Bool),
      let plen := fld (e 2) 0 32
      let c1 : Prop := e 1 = 0 ∨ (e 1).toNat % 64 ≠ 0
      let c2 : Prop := plen = 0 ∨ fld (e 3) 0 32 < plen ∨ plen ≤ n
      (c1 → admissionCode e n table = 1) ∧ (¬c1 → c2 → admissionCode e n table = 2) ∧
      (¬c1 → ¬c2 → (e 16).getLsbD 0 = false → admissionCode e n table = 3) ∧
      (¬c1 → ¬c2 → (e 16).getLsbD 0 = true → admissionCode e n table =
        if entryCode e ≠ 0 then entryCode e else if table then 0 else 0x000A))

/-- R217, R219, R220, R221, R414, R471: at the fifth step the request at the ring's head goes to the lowest free slot, with
its image and what Carillon sets, in error where a check of R415 fails or its image cannot be read; with no free slot or an
empty ring nothing is admitted.  At the sixth the frame takes the slots in decode or draft in rotation from rp while their
tokens fit beside those reserved for prefill, then the prefill chunks in admission order; one with entries is written,
headed and handed over, and rp stands at the slot that did not fit. -/
def Claims.RequestsAndFrames : Prop :=
  (∀ (s : State) (fuel : Nat),
    let r := s.reg 0x4038
    let n := 2 ^ fld r 0 5
    let head := fld r 21 16 % n
    (head = fld r 5 16 % n → State.admitAll (fuel + 1) s = (s, none)) ∧
    (head ≠ fld r 5 16 % n → ∀ (v w x : State) (k q : Nat),
      (s.freeSlotIn (List.range (fld (s.reg 0x4000) 27 14)) = .ok (v, none) → State.admitAll (fuel + 1) s = (v, none)) ∧
      (s.freeSlotIn (List.range (fld (s.reg 0x4000) 27 14)) = .ok (v, some k) →
        v.vread v.carAsid (v.reg 0x4030 + BitVec.ofNat 64 (16 * head)) 16 = .ok (w, q) →
        w.admitRequest k (BitVec.ofNat 64 q) (BitVec.ofNat 64 (q / 2 ^ 64)) = .ok x →
        ∃ y, State.admitAll (fuel + 1) s = State.admitAll fuel y ∧ y = { x with regs := y.regs } ∧
          fld (y.reg 0x4038) 21 16 = (head + 1) % n % 2 ^ 16 ∧ ∀ o, o ≠ 0x4038 → y.reg o = x.reg o))) ∧
  (∀ s : State, s.boundaryStep 5 = State.admitAll (2 ^ 16) s) ∧
  (∀ (s v w : State) (k : Nat) (ks : List Nat) (d : BitVec 64) (o : Option Nat), s.freeSlotIn [] = .ok (s, none) ∧
    (s.slotDw k 0 = .ok (v, d) → (fld d 0 4 = 0 → s.freeSlotIn (k :: ks) = .ok (v, some k)) ∧
      (fld d 0 4 ≠ 0 → v.freeSlotIn ks = .ok (w, o) → s.freeSlotIn (k :: ks) = .ok (w, o)))) ∧
  (∀ (s v w x y : State) (slot n p : Nat) (va req : BitVec 64) (img : List (BitVec 64 × Bool)),
    s.readImage va 0 32 = .ok (v, img) → (∀ i ∈ img, i.2 = false) → n < 2 ^ 32 →
    let g (k : Nat) : BitVec 64 := (img.getD k (0, false)).1
    let e (k : Nat) : BitVec 64 :=
      if k = 0 then BitVec.ofNat 32 n ++ 0#16 ++ (g 0).extractLsb' 8 8 ++ 1#8
      else if k = 2 then BitVec.ofNat 32 n ++ (g 2).extractLsb' 0 32
      else if k = 4 then 0xFFFFFFFF00000000
      else if k = 12 then (g 12).extractLsb' 33 31 ++ 0#33
      else if k = 13 then req else g k
    g 1 ≠ 0 → (g 1).toNat % 64 = 0 → v.ownTable (g 1) slot = .ok (w, n) →
    w.vwrite w.carAsid (w.slotVa slot 0) 256 (((List.range 32).map fun k => (e k).toNat * 2 ^ (64 * k)).sum) = .ok x →
    x.slotPlace slot 1 = .ok (y, p) →
    let z : State := { y with carillon := { y.carillon with admitted := y.carillon.admitted.filter (· ≠ slot) ++ [slot] } }
    (admissionCode e n true = 0 → s.admitRequest slot va req = .ok z) ∧
    (admissionCode e n true ≠ 0 → ∀ u, z.slotError slot (admissionCode e n true) = .ok u →
      s.admitRequest slot va req = .ok u)) ∧
  (∀ (s t : State), (∀ r ∈ s.carillon.reqs, r.1 ≠ 2) → s.publish = .ok t → s.boundaryStep 6 = (t, none)) ∧
  (∀ (s : State) (live : List (Nat × (Nat → BitVec 64))), (live.map (·.1)).Nodup →
    let r := s.reg 0x4020
    let n := fld (s.reg 0x4000) 27 14
    let rp := s.carillon.rp
    let is (k : Nat) (st : Nat) : Bool := live.any fun x => x.1 = k && fld (x.2 0) 0 4 = st
    let of (k j : Nat) : BitVec 64 := ((live.find? fun x => x.1 = k).map fun x => x.2 j).getD 0
    let need (k : Nat) : Nat := if is k 3 then 1 else fld (of k 8) 16 7 + 1
    let turn := ((List.range n).map fun k => (rp + k) % n).filter fun k => is k 3 || is k 4
    let waiting := (live.filter fun x => fld (x.2 0) 0 4 = 2).map (·.1)
    let queue := (s.carillon.admitted.filter waiting.contains) ++ waiting.filter fun k => !s.carillon.admitted.contains k
    let cap := if waiting.isEmpty then fld r 0 16 else fld r 0 16 - fld r 32 16
    let fr := (s.formFrame live).1
    let some_ := fr.filter fun x => x.kind ≠ 0
    (some_.map FrameEntry.slot).length ≤ turn.length ∧ some_.map FrameEntry.slot = turn.take some_.length ∧
    (some_.map FrameEntry.ntok).sum ≤ cap ∧ (fr.map FrameEntry.ntok).sum ≤ fld r 0 16 ∧
    (∀ x ∈ some_, x.ntok = need x.slot ∧ x.kind = (if is x.slot 3 then 1 else 2) ∧ x.last = false ∧
      x.pos = fld (of x.slot 0) 32 32) ∧
    (match turn[some_.length]? with
      | none => (s.formFrame live).2 = rp
      | some k => (s.formFrame live).2 = k ∧ cap < (some_.map FrameEntry.ntok).sum + need k) ∧
    (∃ m, m ≤ queue.length ∧ (fr.drop some_.length).map FrameEntry.slot = queue.take m) ∧
    (∀ i x, fr[i]? = some x → some_.length ≤ i → x.kind = 0 ∧ 0 < x.ntok ∧ x.pos = fld (of x.slot 2) 32 32 ∧
      x.ntok = min (fld r 16 16) (min (fld (of x.slot 2) 0 32 - x.pos) (fld r 0 16 - ((fr.take i).map FrameEntry.ntok).sum)) ∧
      x.last = decide (x.pos + x.ntok = fld (of x.slot 2) 0 32))) ∧
  (∀ (s v w x : State) (live : List (Nat × (Nat → BitVec 64))), s.liveSlots (List.range (fld (s.reg 0x4000) 27 14)) = .ok (v, live) →
    let es := (v.formFrame live).1
    es ≠ [] → (v.reg 0x4000).getLsbD 1 = true ∨ v.descHeld v.carAsid (v.reg 0x4018) = none →
    let f := v.carillon.frame
    let va := v.reg 0x4010 + BitVec.ofNat 64 (2 ^ 18 * (f % 2))
    let tokens := (es.map FrameEntry.ntok).sum % 2 ^ 16
    v.vwrite v.carAsid va 64 (f % 2 ^ 64 + (es.length + tokens * 2 ^ 16) * 2 ^ 64 + v.now.toNat * 2 ^ 128) = .ok w →
    w.writeEntries (va + 64) 0 es = .ok x →
    s.publish = .ok (State.handFrame { x with carillon := { x.carillon with
      inFrame := true, frameEnded := false, trigger := false, again := false, rp := (v.formFrame live).2
      prefill := (es.filter fun e => e.kind = 0).map fun e => (e.slot, e.ntok) } } es.length))

/-- R103, R110, R113, R217 to R221, R252, R397, R413 to R416, R419, R471: frame boundaries, what each of their steps
does, and frames. The model's own choices in it: where a stuck boundary goes on (log 39).  Under its conditions `exec`
answers a next state for: FRAME_BOUNDARY, FRAME_END, CARILLON_STRUCTURE_RETRY, CARILLON_TAKEOVER. -/
def Obligations.FramesAndBoundaries : Prop :=
  Claims.Boundaries ∧ Claims.BoundaryFirstSteps ∧ Claims.SlotsRefreshed ∧ Claims.RequestsAndFrames

/-- Whether n bytes of a die's LPDDR-6 are open to a sandbox (R426, R427): each lies in its range and in no protected
one. -/
def Claims.open (s : State) (sandbox die pa n : Nat) : Prop :=
  let inside (w : BitVec 64) (a : Nat) : Prop := w.getLsbD 0 = true ∧ fld w 1 1 = die ∧ fld w 8 14 * 2 ^ 26 ≤ a ∧
    a < (fld w 8 14 + fld w 24 14) * 2 ^ 26
  ∀ i, i < n → inside (s.reg (0x9000 + 8 * sandbox)) (pa + i) ∧ ∀ k, k < 16 → ¬inside (s.reg (0x9200 + 8 * k)) (pa + i)

/-- R426 to R428: a guest's store to a register of its notify page is kept, and one with nonzero high bits ignored; one to
storage that the partition checker permits is performed, a load answers the bytes, and an access that it does not permit
moves nothing, is recorded with 0x62 and answers an access fault. -/
def Claims.GuestsAndTools : Prop :=
  (∀ (s : State) (b off : Nat) (w : BitVec 64), b < 64 →
    let n := 64 * b + off / 8
    (off < 512 → off % 8 = 0 → w.toNat < 2 ^ 32 → ∃ t, exec (.toolReturn b off w) s = .next t ∧ Tab.get 0 t.notify n = w ∧
      (∀ m, m ≠ n → Tab.get 0 t.notify m = Tab.get 0 s.notify m) ∧
      ((s.reg 0x4000).getLsbD 0 = false → t = { s with notify := t.notify })) ∧
    (512 ≤ off ∨ off % 8 ≠ 0 ∨ 2 ^ 32 ≤ w.toNat → exec (.toolReturn b off w) s = .next s)) ∧
  (∀ (s : State) (b die : Nat) (pa : BitVec 52) (n : Nat) (data : List Byte) (op : Nat), b < 64 → die < 2 → 0 < n →
      data.length = n →
    let k := (2 + die) * 2 ^ 64 + pa.toNat
    let bytes := (List.range n).map fun i => s.byte (k + i)
    let answer (t : State) (fault : Option Bool) (bs : List Byte) : State := { t with guestOut := t.guestOut ++ [⟨b, fault, bs⟩] }
    let refused := s.emit 0 (record2 (pa.zeroExtend 64) b 0 3 0 s.now 0x62 0 0 648)
    (Claims.open s b die pa.toNat n → (∀ a, k ≤ a → a < k + n → Tab.get [] s.lent (a / 64) = [] ∧ Tab.find s.crypt (a / 64) = none) →
      exec (.guestAccess b die pa (.load n)) s = .next (answer s none bytes) ∧
      (∃ t, exec (.guestAccess b die pa (.store data)) s = .next t ∧ t = { s with mem := t.mem, poisoned := t.poisoned } ∧
        (∀ i, i < n → t.byte (k + i) = data.getD i 0) ∧ ∀ a, a < k ∨ k + n ≤ a → t.byte a = s.byte a) ∧
      ∃ t, exec (.guestAccess b die pa (.amo op data)) s = .next t ∧
        t = answer { s with mem := t.mem, poisoned := t.poisoned } none bytes ∧
        ∀ a, a < k ∨ k + n ≤ a → t.byte a = s.byte a) ∧
    (¬Claims.open s b die pa.toNat n →
      exec (.guestAccess b die pa (.load n)) s = .next (answer refused (some false) []) ∧
      exec (.guestAccess b die pa (.store data)) s = .next (answer refused (some true) []) ∧
      exec (.guestAccess b die pa (.amo op data)) s = .next (answer refused (some true) []))) ∧
  ∀ (s : State) (b die : Nat) (pa : BitVec 52) (r : Bool), exec (.guestAccess b die pa (.runs r)) s = .next { s with toolGuest := r }

/-- R216 to R218, R221, R426 to R428: Carillon's registers and commands, and guests. The model's own choices in it: slot
commands on unreadable entries (log 39), a guest's access as one event and its stores past the registers (log 47).
Under its conditions `exec` answers a next state for: CARILLON_ENABLE, SCMD_FREE, SCMD_WAKE, SCMD_MARK_ERROR,
RQTAIL_WRITE, CQHEAD_WRITE, TOOL_RETURN, GUEST_ACCESS. -/
def Obligations.CarillonAndGuests : Prop :=
  Claims.CarillonCommands ∧ Claims.GuestsAndTools

/-! ### Save and restore, and uncorrectable errors -/

/-- R237, R239, R243, R245, R247: while GO is 1 a command is a write error; a save, with or without flush, shows STATE 1
and begins for its context; a restore of an area without records ends with STATE 4, and one of an area with one record
of a grid that is there puts its team on the first core that takes it and ends with STATE 4, or keeps it in STATE 3
while no core does; a flushed team starts afresh (R245), and else each group takes up its image (R241); ending a context
leaves no group of it and shows STATE 1 until its copies have stopped, then STATE 4. A save with every acknowledgement
whose area is too small shows NEED and STATE 5, and else lets its teams leave with STATE 2; once all is written, a save
has STATE 4. The model's own choices in it: a restore tries the cores in order (log 43), poisoned sectors come back
poisoned (log 44), the groups of a context that ends go at once, its copies at their chunk's end (log 44).  Under its
conditions `exec` answers a next state for: PRE_SAVE, PRE_RESTORE, PRE_SAVE_FLUSH, PRE_END_CONTEXT, SAVE_QUIESCED,
SAVE_AREA_WRITTEN. -/
def Obligations.SaveAndRestore : Prop :=
  let state (t : State) : Nat := fld (t.reg 0x3050) 0 3
  let go (t : State) : Bool := (t.reg 0x3040).getLsbD 63
  (∀ (s : State) (a : BitVec 16), go s = true → ∀ i ∈ [Instr.preSave a, .preRestore a, .preSaveFlush a, .preEndContext a],
    exec i s = .next (s.writeError false 0x3040)) ∧
  (∀ (s : State) (a : BitVec 16), go s = false →
    (∀ p ∈ [(0, Instr.preSave a), (2, .preSaveFlush a)], ∃ t v, exec p.2 s = .next t ∧ state t = 1 ∧ go t = true ∧
      t.saves = (s.saves.filter fun (x : Save) => !(x.asid = a && x.error.isNone)) ++ [v] ∧ v.asid = a ∧
      v.op = BitVec.ofNat 2 p.1 ∧ v.stage = 1 ∧ v.error = none ∧ t.mem = s.mem) ∧
    (s.saves = [] → (s.ctx a).cfg.getLsbD 1 = false → fld (s.read64 (s.baseOf 0x3048 12)) 16 16 = 0 →
      ∃ t, exec (.preRestore a) s = .next t ∧ state t = 4 ∧ go t = false ∧ t.groups = s.groups ∧ t.mem = s.mem ∧
        t.saves = []) ∧
    (let area := s.baseOf 0x3048 12
      let k := area + 256
      ∀ gk g, s.saves = [] → (s.ctx a).cfg.getLsbD 1 = false → a ≠ s.carAsid → fld (s.read64 area) 16 16 = 1 →
        s.recordGrid a k = some (gk, g) → g.pinned = false →
      let v : Save := { asid := a, op := 1, stage := 3, need := 0, error := none, area := area, todo := [k]
                        length := (s.read64 (area + 8)).toNat, lost := false, clusters := [], since := s.now.toNat }
      ∃ b, b = { s with regs := b.regs, saves := [v] } ∧ state b = 3 ∧ go b = true ∧
        ((∀ c, c < 640 → b.restoreAt v k c = none) → exec (.preRestore a) s = .next b) ∧
        ∀ c u, c < 640 → (∀ d, d < c → b.restoreAt v k d = none) → b.restoreAt v k c = some u →
          ∃ t, exec (.preRestore a) s = .next t ∧ state t = 4 ∧ go t = false ∧ t = { u with regs := t.regs, saves := [] }) ∧
    ((∀ e ∈ s.groups, e.1 = gkey e.2.core e.2.slot) → s.groups.Pairwise (fun e f => e.1 < f.1) → ∃ t, exec (.preEndContext a) s = .next t ∧
      state t = 1 ∧ go t = true ∧
      (∃ v ∈ t.saves, v.asid = a ∧ v.stage = 6) ∧ ∀ k, Tab.find t.groups k = match Tab.find s.groups k with
        | some g => if g.asid = a then none else some g
        | none => none)) ∧
  (∀ (s u : State) (v : Save) (k c gk : Nat) (g : Grid), s.recordGrid v.asid k = some (gk, g) →
    (s.read64 (k + 0x10)).getLsbD 1 = true → s.restoreAt v k c = some u → s.fits gk g c = true ∧
      ∃ m, u.team s.nextId = some m ∧ m.grid = gk ∧ m.core = c ∧ m.asid = g.asid ∧ m.lin = g.linOf (s.read64 (k + 8)) ∧
        m.ramp = .waiting) ∧
  (∀ (s : State) (k : Nat) (h : Group), h.width ≤ 64 →
    let d (i : Nat) : BitVec 64 := s.read64 (k + 8 * i)
    let r := s.readGroup k h none
    r.pc = d 0 &&& 0x00FFFFFFFFFFFFFC ∧ r.flags = d 1 ∧ r.trapen = d 2 ∧ r.part = d 3 ∧ r.wbase = d 4 ∧
      r.blockSize = 32 * 2 ^ fld (d 5) 0 3 ∧ r.rstream = d 7 ++ d 6 ∧ r.seqNo = (d 8).extractLsb' 0 32 ∧ r.seqSlot = d 9 ∧
      (∀ j, 0 < j → j < 128 → r.sel j = ⟨d (16 + j), (d (144 + j / 64)).getLsbD (j % 64),
        (d (146 + j / 64)).getLsbD (j % 64) || s.isPoisoned (k + 8 * (16 + j)) 8⟩) ∧
      (∀ j, 0 < j → j < 16 → r.pel j = ⟨d (148 + j), (d 164).getLsbD j⟩) ∧
      ∀ j l, j < r.blockSize → l < h.width →
        let e := k + 0x600 + 4 * (h.width * j + l)
        let m := k + 0x600 + 4 * h.width * r.blockSize + 24 * j
        r.vblk j l = ⟨BitVec.ofNat 32 (s.readLE e 4), (s.read64 m).getLsbD l,
          (s.read64 (m + 16)).getLsbD l || s.isPoisoned e 4, (s.read64 (m + 8)).getLsbD l⟩) ∧
  (∀ (s : State) (v : Save), s.saves = [v] → v.stage = 6 →
    let left := ∃ e ∈ s.copies, e.2.asid = v.asid ∧ e.2.slot = noSlot ∧ e.2.wait ≠ none
    (left → exec .saveQuiesced s = .next s) ∧
    (¬left → ∃ t, exec .saveQuiesced s = .next t ∧ state t = 4 ∧ go t = false ∧ t = { s with regs := t.regs, saves := [] })) ∧
  (∀ (s u : State) (v : Save), s.saves = [v] → v.stage = 1 → v.error = none → s.saveStopAll v = u → u.quiesced v = true →
    let need := (u.areaBytes v (u.savedTeams v) + 4095) / 4096
    need < 2 ^ 32 →
    (v.need < need → ∃ t, exec .saveQuiesced s = .next t ∧ state t = 5 ∧ go t = false ∧ fld (t.reg 0x3050) 32 32 = need ∧
      t.groups = u.groups ∧ t.mem = u.mem) ∧
    (need ≤ v.need → ∃ t, exec .saveQuiesced s = .next t ∧ state t = 2 ∧ fld (t.reg 0x3050) 32 32 = need ∧
      ∀ e ∈ u.savedTeams v, t.team e.1 = none)) ∧
  (∀ (s : State) (v : Save), s.saves = [v] → v.stage = 2 → v.error = none → s.landing v = false →
    ∃ t, exec .saveAreaWritten s = .next t ∧ state t = 4 ∧ go t = false ∧ t.groups = s.groups ∧
      (v.length ≠ 0 → t.readLE (v.area + 0x10) 8 = s.now.toNat))

/-- R95, R248, R249, R252, R469: an uncorrectable error of CLASS 0 poisons its sector, of CLASS 1 the element it names
(a predicate has no poison); of CLASS 2 it begins a fence of its core, unless that is fenced; of CLASS 3 it poisons the
sectors that the failed slice holds dirty; of CLASS 4 it fails Carillon's or Damper's unit, or the standby; of CLASS 5
it freezes the module. Each records CAUSE 0x08, a fence that begins at its end. The model's own choices in it: the place
and unit of each record, and which sectors a slice holds dirty (log 50).  Under its conditions `exec` answers a next
state for: UNCORRECTABLE_ERROR. -/
def Obligations.UncorrectableErrors : Prop :=
  ∀ (s : State) (e : HwError),
    let rec_ (d0 : BitVec 64) (asid : BitVec 16) : BitVec 256 := record3 d0 e.unit e.cls.toNat false s.now 0x08 asid e.unit
    (e.cls = 0 → exec (.uncorrectableError e) s = .next ((s.poison (16 * e.sector) 16).emit (placeDie (16 * e.sector))
      (rec_ (BitVec.ofNat 64 (16 * e.sector)) 0)) ∧ (s.poison (16 * e.sector) 16).isPoisoned (16 * e.sector) 16 = true) ∧
    (∀ g, e.cls = 1 → s.group e.core e.slot = some g → g.core = e.core → g.slot = e.slot → e.regClass = 1 → 0 < e.reg → e.reg < 128 →
      ∃ t h, exec (.uncorrectableError e) s = .next t ∧ t.group e.core e.slot = some h ∧ (h.sel e.reg).pois = true ∧
        (h.sel e.reg).val = (g.sel e.reg).val ∧ (∀ k, k ≠ e.reg → h.sel k = g.sel k) ∧ h.v = g.v ∧ h.p = g.p ∧
        t = { s.emit (dieOf e.core) (rec_ 0 g.asid) with groups := t.groups }) ∧
    (∀ g, e.cls = 1 → s.group e.core e.slot = some g → g.core = e.core → g.slot = e.slot →
      (e.regClass = 0 → e.elem < 64 → ∃ t h, exec (.uncorrectableError e) s = .next t ∧ t.group e.core e.slot = some h ∧
        (h.vblk e.reg e.elem).pois = true ∧ (h.vblk e.reg e.elem).val = (g.vblk e.reg e.elem).val ∧
        (∀ j l, l < 64 → (j, l) ≠ (e.reg, e.elem) → h.vblk j l = g.vblk j l) ∧ h.s = g.s ∧ h.p = g.p ∧
        t = { s.emit (dieOf e.core) (rec_ 0 g.asid) with groups := t.groups }) ∧
      (e.regClass = 2 → exec (.uncorrectableError e) s = .next (s.emit (dieOf e.core) (rec_ 0 g.asid))) ∧
      (∀ u, e.regClass = 3 → s.team g.team = some u → e.elem < 1024 → ∃ t w, exec (.uncorrectableError e) s = .next t ∧
        t.team g.team = some w ∧ (Tab.get AEl.zero w.tiles (e.reg * 1024 + e.elem)).pois = true ∧
        (∀ k, k ≠ e.reg * 1024 + e.elem → Tab.get AEl.zero w.tiles k = Tab.get AEl.zero u.tiles k) ∧
        t = { s.emit (dieOf e.core) (rec_ 0 g.asid) with teams := t.teams })) ∧
    (e.cls = 3 → ∃ u : State, exec (.uncorrectableError e) s = .next (u.emit (e.core % 2) (rec_ 0 0)) ∧
      u = { s with poisoned := u.poisoned, fabDir := u.fabDir, freeCount := u.freeCount } ∧
      ∀ q, u.isPoisoned (16 * q) 16 = (s.isPoisoned (16 * q) 16 ||
        decide (q ∈ e.dirty ∧ q / 2 ^ 60 < 4 ∧ q / 2 ^ 60 % 2 = e.core % 2))) ∧
    (e.cls = 2 → e.core < 640 → (s.core e.core).fenced = true → exec (.uncorrectableError e) s = .next (s.emit (dieOf e.core)
      (record3 0 e.core 2 false s.now 0x08 (s.core e.core).asid e.core))) ∧
    (e.cls = 2 → e.core < 640 → (s.core e.core).fenced = false → s.saves = [] → ∃ t v, exec (.uncorrectableError e) s = .next t ∧
      t.saves = [v] ∧ v.error = some e.core ∧ v.asid = (s.core e.core).asid ∧ v.stage = 1 ∧ v.lost = e.lost ∧ v.since = s.now.toNat ∧ t.mem = s.mem) ∧
    (e.cls = 4 → e.slot = 0 → e.unit = 643 → s.carillon.standby = false → ∃ t, exec (.uncorrectableError e) s = .next t ∧
      t = { s.emit 0 (rec_ 0 0) with carillon := { s.carillon with failed := true } }) ∧
    (e.cls = 4 → e.slot ≠ 0 → e.unit = 643 → s.carillon.standby = false → ∃ t, exec (.uncorrectableError e) s = .next t ∧
      t = { s.emit 1 (rec_ 0 0) with carillon := { s.carillon with failedStandby := true } }) ∧
    (e.cls = 4 → e.unit = 644 → ∃ t, exec (.uncorrectableError e) s = .next t ∧
      t = { s.emit (if e.slot = 0 then 0 else 1) (rec_ 0 0) with damper := { s.damper with
        failed := s.damper.failed || (if e.slot = 0 then !s.damper.standby else s.damper.standby) } }) ∧
    (e.cls = 5 → exec (.uncorrectableError e) s = .next (({ s.setReg 8 (s.reg 8 ||| 8) with frozen := true }).emit
      (if e.unit = 640 then 1 else 0) (rec_ 0 0)))

/-! ### Registers, the mailbox, the host and reset -/

/-- R9, R10, R454, R455, R469: a write to a register of BAR0 that has no GO bit or meaning of its own sets its RW fields
and clears the WC bits written as ones, in the half that it reaches, and leaves the rest; one that is refused, or for
which no register lies, is recorded as the write error if none is; a frozen module takes none, and the partition
registers take none while a tool core runs a guest (R426). A write of the fabric's registers lets what may now leave go
(R173), and so may one of KVS_CTL; the registers are shown of a module where nothing waits for that. Of a confidential
context the window reads zero but for CTX_CFG, CTX_EVN and the trace ring's places (R453, R465). A write to a register
of the window goes to the selected context (R250, R251, R443): while a team of it is resident, saved or placed only EN,
TRC_HEAD and USED may change, a trace ring that is on keeps its place and size, values outside their range are refused,
and a write of USED during a fence of the context waits for its end. A read of 4 bytes answers its half of the register,
and none is answered outside the platform block of a frozen module or one in recovery. The model's own choices in it:
rsv bits are ignored, reserved values refused, what answers outside the platform block (logs 45, 49).  Under its
conditions `exec` answers a next state for: REGISTER_WRITE. -/
def Obligations.RegisterWrites : Prop :=
  ∀ (s : State) (w : RegWrite),
    let off := w.off.toNat
    let m : BitVec 64 := if w.half = 1 then 0xFFFFFFFF else if w.half = 2 then 0xFFFFFFFF00000000 else BitVec.allOnes 64
    let v : BitVec 64 := if w.half = 1 then w.val &&& 0xFFFFFFFF else if w.half = 2 then w.val <<< 32 else w.val
    (s.frozen = true → exec (.registerWrite w) s = .next s) ∧
    (s.frozen = false → fld (s.reg 8) 0 3 ≠ 4 → 0x9000 ≤ off → off < 0x9280 → s.toolGuest = true →
      exec (.registerWrite w) s = .next (s.writeError w.src off)) ∧
    (s.frozen = false → fld (s.reg 8) 0 3 ≠ 4 → off < 0xA008 ∨ 0xA058 ≤ off →
        (0x9000 ≤ off → off < 0x9280 → s.toolGuest = false) →
      (regMasks off = none → exec (.registerWrite w) s = .next (s.writeError w.src off)) ∧
      ∀ rw wc, regMasks off = some (rw, wc) →
        off ∉ [0, 0x28, 0x1008, 0x1020, 0x1040, 0x2008, 0x2020, 0x2040, 0x3000, 0x3040, 0x4000, 0x4050, 0x6020] →
        let old := s.reg off
        let new := ((old &&& ~~~(rw &&& m)) ||| (v &&& rw &&& m)) &&& ~~~(v &&& wc &&& m)
        (s.regRefused w.src off old new = false → 0x6000 ≤ off → off < 0x6080 →
          exec (.registerWrite w) s = .next (s.setReg off new).pump) ∧
        (s.regRefused w.src off old new = false →
            (0x6000 ≤ off → off < 0x6080 → s.memops = [] ∧ s.held = [] ∧ s.probeHeld = []) →
            (off = 0x5000 → s.handoffs = [] ∧ s.receives = []) → ∃ t, exec (.registerWrite w) s = .next t ∧ t.reg off = new ∧
          ∀ o, o ≠ off → t.reg o = s.reg o) ∧
        (s.regRefused w.src off old new = true → exec (.registerWrite w) s = .next (s.writeError w.src off))) ∧
    (let a : BitVec 16 := (s.reg 0xA000).extractLsb' 0 16
      let c := s.ctx a
      let busy : Prop := (∃ e ∈ s.teams, e.2.asid = a) ∨ c.kept ≠ [] ∨ c.lost ≠ [] ∨
        ∃ x ∈ s.saves, x.asid = a ∧ (x.stage ≠ 4 ∨ x.todo ≠ [])
      let fenced : Prop := ∃ x ∈ s.saves, x.asid = a ∧ x.error.isSome = true ∧ x.stage ≤ 2
      let written (old rw : BitVec 64) : BitVec 64 := (old &&& ~~~(rw &&& m)) ||| (v &&& rw &&& m)
      let ones (lo n : Nat) : BitVec 64 := BitVec.ofNat 64 ((2 ^ n - 1) * 2 ^ lo)
      let refused : Prop := exec (.registerWrite w) s = .next (s.writeError w.src off)
      let becomes (d : Ctx) : Prop := exec (.registerWrite w) s = .next (s.setCtx a d)
      let sets (bad : Prop) (d : Ctx) : Prop := (bad → refused) ∧ (¬bad → becomes d)
      s.frozen = false → fld (s.reg 8) 0 3 ≠ 4 →
      (off = 0xA008 → let x := written c.cfg 1
        sets (busy ∨ (x.getLsbD 0 = true ∧ c.cfg.getLsbD 0 = false ∧ 1024 ≤ (s.ctxs.filter fun e => e.2.cfg.getLsbD 0).length))
          { c with cfg := x }) ∧
      (off = 0xA010 → sets busy { c with evt := written c.evt (ones 12 41) }) ∧
      (off = 0xA018 → let x := written c.evn (ones 0 17)
        sets (busy ∨ x = 0 ∨ 65536 < x.toNat) { c with evn := x }) ∧
      (off = 0xA020 → let x := written c.cspg0 (ones 0 6 ||| ones 8 7)
        sets (busy ∨ 64 < fld x 0 6 + fld x 8 7) { c with cspg0 := x }) ∧
      (off = 0xA028 → let x := written c.cspg1 (ones 0 6 ||| ones 8 7)
        sets (busy ∨ 64 < fld x 0 6 + fld x 8 7) { c with cspg1 := x }) ∧
      (off = 0xA030 → let x := written c.errpol (ones 0 2 ||| ones 3 50)
        let bad : Prop := (busy ∧ x &&& ~~~ones 8 16 ≠ c.errpol &&& ~~~ones 8 16) ∨ fld x 3 5 < 4 ∨ 10 < fld x 3 5 ∨
          fld x 24 28 * 2 ^ 24 % 2 ^ (20 + fld x 3 5) ≠ 0
        (bad → refused) ∧ (¬bad → ¬(fenced ∧ m &&& ones 8 16 ≠ 0) → becomes { c with errpol := x }) ∧
        (¬bad → fenced → m &&& ones 8 16 ≠ 0 → ∃ y, becomes { c with errpol := y, usedWait := some (x.extractLsb' 8 16) } ∧
          fld y 8 16 = fld c.errpol 8 16 ∧ y &&& ~~~ones 8 16 = x &&& ~~~ones 8 16)) ∧
      (off = 0xA038 → let x := written c.trcCtl (ones 0 18)
        sets (c.cfg.getLsbD 1 = true ∨ (busy ∧ x ||| 1 ≠ c.trcCtl ||| 1) ∨
            (c.trcCtl.getLsbD 0 = true ∧ fld x 8 10 ≠ fld c.trcCtl 8 10) ∨ fld x 8 5 ∉ 0 :: (List.range 21).map (10 + ·) ∨
            fld x 13 5 < 7 ∨ 24 < fld x 13 5) { c with trcCtl := x }) ∧
      (off = 0xA040 → sets (c.cfg.getLsbD 1 = true ∨ busy ∨ c.trcCtl.getLsbD 0 = true)
        { c with trcBase := written c.trcBase (ones 12 41) }) ∧
      (off = 0xA048 → becomes { c with trcHead := written c.trcHead (ones 0 24) }) ∧
      (off = 0xA050 → (busy → refused) ∧ (¬busy → exec (.registerWrite w) s = .next s))) ∧
    (∀ o h, o % 4 = 0 → (h = true ∨ o % 8 = 0) → s.hostRead o h =
      if (s.frozen = true ∨ fld (s.reg 8) 0 3 = 4) ∧ 0x1000 ≤ o then none
      else some (if h = true then (s.readReg (o / 8 * 8) >>> (o % 8 * 8)) &&& 0xFFFFFFFF else s.readReg o)) ∧
    ((s.ctx ((s.reg 0xA000).extractLsb' 0 16)).cfg.getLsbD 1 = true →
      ∀ o ∈ [0xA010, 0xA020, 0xA028, 0xA030, 0xA038, 0xA040], s.readReg o = 0) ∧
    (∀ src o, (s.reg 0).getLsbD 0 = true → s.writeError src o = s) ∧
    ∀ src o, (s.reg 0).getLsbD 0 = false → o < 2 ^ 20 → (s.writeError src o).reg 0 =
      BitVec.ofNat 64 (1 + (if src then 2 else 0) + 4 * o) ∧ ∀ p, p ≠ 0 → (s.writeError src o).reg p = s.reg p

/-- R461 to R463: a mailbox command that the platform takes ends with GO 0 and its RESULT: attestation and the key
readers answer in the buffer, a key is installed or erased for a context without a team, whose confidential bit needs a
key, and a signed image or firmware replaces the one in flash. The model's own choices in it: the cryptographic
functions are uninterpreted (log 13), an image is told from firmware by its first dword (log 46).  Under its conditions
`exec` answers a next state for: ATTEST, INSTALL_TENANT_KEY, ERASE_TENANT_KEY, READ_IDENTITY_KEY,
READ_ENCAPSULATION_KEY, SET_CONFIDENTIAL, FLASH_UPDATE. -/
def Obligations.MailboxCommands : Prop :=
  let ended (t : State) (res : Nat) : Prop := t.reg 0x38 = BitVec.ofNat 64 res ∧ (t.reg 0x28).getLsbD 63 = false
  ∀ (s : State), s.frozen = false → fld (s.reg 8) 0 3 ≠ 4 →
    let k := fld (s.reg 0x30) 6 46 * 64
    (∃ t, exec .attest s = .next t ∧ ended t 0 ∧ (∀ j, j < 32 → t.byte (k + j) = s.byte (k + j)) ∧
      (∀ j, j < 64 → t.byte (k + 32 + j) = Config.shake s.firmware j ∧ t.byte (k + 96 + j) = Config.shake s.image j) ∧
      t.readLE (k + 160) 8 = (s.reg 0x18).toNat) ∧
    (∃ t, exec .readIdentityKey s = .next t ∧ ended t 0 ∧ ∀ j, j < 1952 → t.byte (k + j) = Config.identityKey j) ∧
    (∃ t, exec .readEncapsulationKey s = .next t ∧ ended t 0 ∧
      ∀ j, j < 1568 → t.byte (k + j) = Config.encapsulationKey j) ∧
    (∀ a : BitVec 16, s.ctxBusy a = true → ∀ i ∈ [Instr.installTenantKey a, .eraseTenantKey a, .setConfidential a],
      ∃ t, exec i s = .next t ∧ ended t 3 ∧ t = { s with regs := t.regs }) ∧
    (∀ a : BitVec 16, s.ctxBusy a = false →
      (∃ t, exec (.installTenantKey a) s = .next t ∧ ended t 0 ∧ (t.ctx a).key.isSome = true ∧
        (t.ctx a).batch = 0 ∧ t.tatIndex = 0 ∧ (t.ctx a).cfg = (s.ctx a).cfg ||| 4 ∧
        ∀ b : BitVec 16, b ≠ a → t.ctx b = s.ctx b) ∧
      (∃ t, exec (.eraseTenantKey a) s = .next t ∧ ended t 0 ∧ (t.ctx a).key = none ∧
        (t.ctx a).cfg = (s.ctx a).cfg &&& ~~~6#64 ∧ ∀ b : BitVec 16, b ≠ a → t.ctx b = s.ctx b) ∧
      ∃ t, exec (.setConfidential a) s = .next t ∧
        (if (s.byte k).getLsbD 0 then
          (if (s.ctx a).key = none then ended t 2 ∧ t.ctx a = s.ctx a
            else ended t 0 ∧ (t.ctx a).cfg = (s.ctx a).cfg ||| 2 ∧ (t.ctx a).trcCtl.extractLsb' 1 7 = 0)
          else ended t 0 ∧ (t.ctx a).cfg = (s.ctx a).cfg &&& ~~~2#64)) ∧
    let image := fld (s.read64 k) 0 32 = 1
    let text := (List.range (if image then min 8192 (fld (s.read64 k) 32 32) else 8192)).map fun i => s.byte (k + i)
    ∃ t, exec .flashUpdate s = .next t ∧ t = { s with regs := t.regs, image := t.image, firmware := t.firmware } ∧
      (if Config.verifies (decide image) text = true then
        ended t 0 ∧ t.image = (if image then text else s.image) ∧ t.firmware = (if image then s.firmware else text)
        else ended t 2 ∧ t.image = s.image ∧ t.firmware = s.firmware)

/-- R457 to R459, R464, R468, R469: the host reads and writes the bytes of the tier and die that PLT_HAP selects, within
their capacity; a read beyond it returns none; a line of a confidential page is written back under its context's key; a
module reset, by either way, leaves no group, team or access, and the module ready where its firmware and its image
verify and are not older than allowed, and in recovery where not. The clause on the host is of lines that are neither
lent nor encrypted, with no grid waiting. The sideband reads five registers of BAR0 and no other. The model's own
choices in it: host lines and sizes (log 47), boot within the reset (log 46).  Under its conditions `exec` answers a
next state for: HOST_APERTURE_ACCESS, MODULE_RESET, SIDEBAND_RESET, LINE_ENCRYPT_WRITEBACK. -/
def Obligations.HostAccessAndReset : Prop :=
  (∀ (s : State) (off : BitVec 36) (a : HostAccess), s.frozen = false → fld (s.reg 8) 0 3 ≠ 4 →
    let tier := fld (s.reg 0x20) 53 2
    let pa := fld (s.reg 0x20) 36 16 * 2 ^ 36 + off.toNat
    let k := physKey tier (fld (s.reg 0x20) 52 1) pa
    let n := if a.write then a.data.length else a.len
    0 < n →
    (tierSize tier < pa + n → exec (.hostApertureAccess off a) s =
      .next (if a.write then s else { s with hostOut := s.hostOut ++ [[]] })) ∧
    (pa + n ≤ tierSize tier → s.lent = [] → s.crypt = [] → s.cfLines = [] → s.grids = [] →
      (a.write = true → ∃ t, exec (.hostApertureAccess off a) s = .next t ∧ t = { s with mem := t.mem, poisoned := t.poisoned } ∧
        (∀ i, i < n → t.byte (k + i) = a.data.getD i 0) ∧ ∀ j, j < k ∨ k + n ≤ j → t.byte j = s.byte j) ∧
      (a.write = false → exec (.hostApertureAccess off a) s =
        .next { s with hostOut := s.hostOut ++ [(List.range n).map fun i => s.byte (k + i)] }))) ∧
  (∀ (s : State) (line : Nat) (a : BitVec 16), Tab.find s.cfLines line = some a → (s.ctx a).key ≠ none →
    Tab.find s.crypt line = none →
    ∃ t, exec (.lineEncryptWriteback line) s = .next t ∧ t = { s with crypt := t.crypt } ∧
      Tab.find t.crypt line = some ⟨a, (s.ctx a).key.getD 0, 0, .sealed (s.line line)⟩) ∧
  (∀ (s : State), ∃ t, exec .moduleReset s = .next t ∧ exec (.sidebandReset 0x80 0x5A) s = .next t ∧ t.groups = [] ∧
    t.teams = [] ∧ t.memops = [] ∧ t.frozen = false ∧ t.firmware = s.firmware ∧ t.image = s.image ∧
    fld (t.reg 8) 0 3 = if Config.verifies false s.firmware = true ∧ Config.verifies true s.image = true ∧
      s.secVersion ≤ ((s.image.drop 8).take 8).foldr (fun b n => b.toNat + 256 * n) 0 then 3 else 4) ∧
  (∀ (s : State) (o v : BitVec 8), o ≠ 0x80 ∨ v ≠ 0x5A → exec (.sidebandReset o v) s = .next s) ∧
  (∀ (s : State) (o : Nat), s.sidebandRead o = if o ∈ [0x008, 0x018, 0x7010, 0x7020, 0x7028] then s.hostRead o false else none)

/-! ### The whole machine -/

/-- R182, R192, R33, R50, R227: a group that is stopped, saved, held for a confirmation or not yet started performs
nothing of an instruction: it only waits. An instruction that a group's role does not permit is not performed either:
the group stops precisely at it with the role-violation fate, or, where an operand passes its limit, with the
illegal-instruction fate that goes before it. -/
def Obligations.OnlyReadyGroupsInTheirRole : Prop :=
  ∀ (i : Instr) (c : Code) (s : State) (g : Group), i.code = some c → s.cur = some (g.core, g.slot) →
    s.group g.core g.slot = some g →
    (g.canIssue = false → ∃ t, exec i s = .next t ∧ t = { s.setGroup { g with waiting := true } with cur := t.cur }) ∧
    (g.canIssue = true → (g.role.all fun r => rolePermits r c.major.toNat) = false →
      ∃ t cause d0 m, exec i s = .next t ∧ Stops s t g (dieOf g.core) cause d0 m 0 ∧
        ((cause = 0x40 ∧ d0 = BitVec.ofNat 32 (g.role.getD 0) ++ c.word) ∨ (cause = 0x01 ∧ d0 = 0#32 ++ c.word)))

/-- How a read of an empty operand is named (R193, R229): the class and number of its first register that holds an empty
element, and the lanes whose elements are empty there; for a scalar or predicate register the instruction's lanes. -/
def Claims.names (g : Group) (act : BitVec 64) (o : Opd) (d : BitVec 32) (mask : BitVec 64) : Prop :=
  match o with
  | .s k n => ∃ i, i < n ∧ (g.sel (k + i)).full = false ∧ (∀ j, j < i → (g.sel (k + j)).full = true) ∧
      d = BitVec.ofNat 32 (1 + 8 * (k + i)) ∧ mask = act
  | .p k => d = BitVec.ofNat 32 (2 + 8 * k) ∧ mask = act
  | .v k n lanes =>
    let empties (i : Nat) : List Nat := (lanesOf g.width lanes).filter fun l => !(g.vel (k + i) l).full
    ∃ i, i < n ∧ empties i ≠ [] ∧ (∀ j, j < i → empties j = []) ∧ d = BitVec.ofNat 32 (8 * (k + i)) ∧ mask = maskOf (empties i)

/-- The wait-or-trap rule of an instruction (R191, R193, R194) with its sources, each with its bit, and its destinations:
with an empty guard it waits; else the first source whose bit is 1 and which holds an empty element traps, whatever else is
empty; else it waits while some source or destination holds one. -/
def Claims.gates (i : Instr) (x : Pfx) (c : Code) (s : State) (g : Group) (act : BitVec 64) (srcs : List (Opd × Bool))
    (dsts : List Opd) : Prop :=
  let waits : Prop := ∃ t, exec i s = .next t ∧ Waits s t g
  let guard : Bool := (g.pel x.m.pred.toNat).full
  (guard = false → waits) ∧
  (∀ (k : Nat) (o : Opd), guard = true → srcs[k]? = some (o, true) → o.isFull g = false →
    (∀ (j : Nat) (p : Opd), j < k → srcs[j]? = some (p, true) → p.isFull g = true) →
    ∃ t d m, exec i s = .next t ∧ Claims.names g act o d m ∧ Stops s t g (dieOf g.core) 0x41 (d ++ c.word) m 0) ∧
  (guard = true → (∀ p ∈ srcs, p.2 = true → p.1.isFull g = true) →
    (∃ o ∈ srcs.map Prod.fst ++ dsts, o.isFull g = false) → waits)

/-- R191, R193, R194: an instruction with an empty source whose wait-or-trap bit is 1 takes the read-of-empty fate, with
the register, and for lanes the active empty ones, and performs nothing; with the bit 0 it waits, and it waits for an
empty destination, a third source and an empty guard; an empty element of an inactive lane neither waits nor traps.
Where one source traps and another would wait, it traps.  The model's own choices in it: a trap goes before another
source's wait, and the first field is named (log 6). -/
def Obligations.EmptySourcesWaitOrTrap : Prop :=
  (∀ i ∈ [Instr.sadd, .ssub, .smul, .smulh, .smulhn, .sdiv, .sdivn, .srem, .sand, .sor, .sxor, .sandn, .sshl, .sshr, .ssra,
      .srot, .smin, .smax, .sminn, .smaxn, .seq, .sne, .slt, .sle, .sltn, .slen, .sbfx, .sbfi],
    ∀ (x : Pfx) (r : RRR) (s : State) (g : Group) (c : Code), Issues (i x r) c s g →
    let q := rrrAt r x g.repIdx
    Claims.gates (i x r) x c s g 0 [(.s q.a.toNat 1, r.wa), (.s q.b.toNat 1, r.wb)] [.s q.d.toNat 1]) ∧
  (∀ i ∈ [Instr.sclz, .spopc, .sbrev, .smov], ∀ (x : Pfx) (r : RRR) (s : State) (g : Group) (c : Code), Issues (i x r) c s g →
    let q := rrrAt r x g.repIdx
    Claims.gates (i x r) x c s g 0 [(.s q.a.toNat 1, r.wa)] [.s q.d.toNat 1]) ∧
  (∀ (x : Pfx) (r : RI) (s : State) (g : Group) (c : Code),
    (∀ i ∈ [Instr.saddi, .sld], Issues (i x r) c s g →
      Claims.gates (i x r) x c s g 0 [(.s r.a.toNat 1, r.wa)] [.s r.d.toNat 1]) ∧
    (Issues (.sst x r) c s g → Claims.gates (.sst x r) x c s g 0 [(.s r.a.toNat 1, r.wa), (.s r.d.toNat 1, false)] []) ∧
    (Issues (.sshi r) c s g → Claims.gates (.sshi r) Pfx.none c s g 0 [(.s r.a.toNat 1, r.wa)] [.s r.d.toNat 1]) ∧
    ∀ e, ∀ i ∈ [Instr.sandi e, .sori e, .sxori e], Issues (i r) c s g →
      Claims.gates (i r) Pfx.none c s g 0 [(.s r.a.toNat 1, r.wa)] [.s r.d.toNat 1]) ∧
  (∀ (e : Option (BitVec 24)) (r : LI) (s : State) (g : Group) (c : Code),
    (Issues (.sli e r) c s g → Claims.gates (.sli e r) Pfx.none c s g 0 [] [.s r.d.toNat 1]) ∧
    (Issues (.slih r) c s g → Claims.gates (.slih r) Pfx.none c s g 0 [(.s r.d.toNat 1, false)] [.s r.d.toNat 1])) ∧
  (∀ i ∈ [Instr.vadd, .vsub, .vmul, .vmulh, .vmad, .vmin, .vmax, .vabsd, .vand, .vor, .vxor, .vandn, .vshl, .vshr, .vsra, .vrot,
      .vbfx, .vbfi, .vsel],
    ∀ (x : Pfx) (r : RRR) (s : State) (g : Group) (c : Code), Issues (i x r) c s g →
    let q := rrrAt r x g.repIdx
    let act := g.active x
    let n := if Claims.typ x 5 = 7 ∨ Claims.typ x 5 = 8 then 2 else 1
    Claims.gates (i x r) x c s g act [(.v q.a.toNat n act, r.wa), (.v q.b.toNat n act, r.wb)] [.v q.d.toNat n act]) ∧
  (∀ i ∈ [Instr.vclz, .vpopc, .vbrev, .vneg, .vabs, .vnot, .vmov],
    ∀ (x : Pfx) (r : RRR) (s : State) (g : Group) (c : Code), Issues (i x r) c s g →
    let q := rrrAt r x g.repIdx
    let act := g.active x
    let n := if Claims.typ x 5 = 7 ∨ Claims.typ x 5 = 8 then 2 else 1
    Claims.gates (i x r) x c s g act [(.v q.a.toNat n act, r.wa)] [.v q.d.toNat n act]) ∧
  (∀ i ∈ [Instr.vfadd, .vfsub, .vfmul, .vfma, .vfms, .vfmin, .vfmax, .vfabsd, .vfcpys],
    ∀ (x : Pfx) (r : RRR) (s : State) (g : Group) (c : Code), Issues (i x r) c s g →
    let q := rrrAt r x g.repIdx
    let act := g.active x
    Claims.gates (i x r) x c s g act [(.v q.a.toNat 1 act, r.wa), (.v q.b.toNat 1 act, r.wb)] [.v q.d.toNat 1 act]) ∧
  (∀ i ∈ [Instr.vfneg, .vfabs, .vfclass, .vffloor, .vfceil, .vfrint, .vffrac],
    ∀ (x : Pfx) (r : RRR) (s : State) (g : Group) (c : Code), Issues (i x r) c s g →
    let q := rrrAt r x g.repIdx
    let act := g.active x
    Claims.gates (i x r) x c s g act [(.v q.a.toNat 1 act, r.wa)] [.v q.d.toNat 1 act]) ∧
  (∀ (x : Pfx) (fn : BitVec 3) (r : RRR) (s : State) (g : Group) (c : Code),
    let q := rrrAt r x g.repIdx
    let act := g.active x
    let n := if Claims.typ x 5 = 7 ∨ Claims.typ x 5 = 8 then 2 else 1
    (Issues (.vcmp x fn r) c s g → Claims.gates (.vcmp x fn r) x c s g act
      [(.v q.a.toNat n act, r.wa), (.v q.b.toNat n act, r.wb)] [.p q.d.toNat]) ∧
    (Issues (.vfcmp x fn r) c s g → Claims.gates (.vfcmp x fn r) x c s g act
      [(.v q.a.toNat 1 act, r.wa), (.v q.b.toNat 1 act, r.wb)] [.p q.d.toNat]) ∧
    (Issues (.satom x fn r) c s g → Claims.gates (.satom x fn r) x c s g 0
      ([(.s q.a.toNat 1, r.wa), (.s q.b.toNat 1, r.wb)] ++ if fn = 7 then [(.s q.d.toNat 1, false)] else [])
      [.s q.d.toNat 1, .p 14]) ∧
    (Issues (.vld x fn r) c s g → g.reissue = none → Claims.gates (.vld x fn r) x c s g act
      [(if fn = 4 ∨ fn = 5 then .v q.a.toNat 2 act else .s q.a.toNat 1, r.wa), (.s q.b.toNat 1, r.wb)]
      [.v q.d.toNat (if fn = 1 ∨ fn = 5 then 2 else if fn = 2 then 4 else 1) act])) ∧
  (∀ i ∈ [Instr.pand, .por, .pxor, .pandn], ∀ (x : Pfx) (r : RRR) (s : State) (g : Group) (c : Code), Issues (i x r) c s g →
    let q := rrrAt r x g.repIdx
    Claims.gates (i x r) x c s g (g.active x) [(.p q.a.toNat, r.wa), (.p q.b.toNat, r.wb)] [.p q.d.toNat]) ∧
  (∀ i ∈ [Instr.pnot, .pmov, .pfirst], ∀ (x : Pfx) (r : RRR) (s : State) (g : Group) (c : Code), Issues (i x r) c s g →
    let q := rrrAt r x g.repIdx
    Claims.gates (i x r) x c s g (g.active x) [(.p q.a.toNat, r.wa)] [.p q.d.toNat])

/-- The storage keeps its canonical form: every step that leaves a next state from a state whose memory is strictly rising,
with no byte listed that an unlisted place reads, leaves one whose memory is so too (the model's form of storage, log 2). -/
def Obligations.MemoryStaysCanonical : Prop :=
  ∀ s t : State, Memory.wf s.mem = true → step s = .next t → Memory.wf t.mem = true

/-- R8, R9, R186, R187, R213, R216, R469: right after reset the time-stamp is zero, no group is resident, no memory is
listed and each register of BAR0 holds the value of its Reset column: FQ_SIZE 7, SCHED_CTL AGEM 1 and WDLOG 31, a launch
queue LOG2N 4, CAR_CTL PRIO 6 and GSZ 1, CAR_BUD 256, 128 and 32, CAR_RQC and CAR_CQC 4, an empty KVS_FREE list, each
plane of EFI_PMAP open at its own port, DMP_LIM 200 and 200, DMP_W 48 and 205, THM TLIM 840, TAT_CTL K 16 and LOG2N 4,
ERRPOL ESZ 4, TRC_CTL LOG2N 7, and every other one zero; s0 reads zero and p0 all-true and both ignore writes; and a
group at its start reads zero from every full register.  The model's own choices in it: no memory is listed at reset
(log 2), no unit is busy (log 3). -/
def Obligations.ResetAndHardWired : Prop :=
  let s := State.reset
  (s.now = 0 ∧ s.groups = [] ∧ s.teams = [] ∧ s.grids = [] ∧ s.mem = [] ∧ s.frozen = false ∧ Memory.wf s.mem = true ∧
      (∀ n core slot, s.group core slot = none ∧ s.byte n = 0 ∧ s.core core = Core.zero) ∧
      (∀ die, die < 2 → s.reg (mtuReg die 0) = 0 ∧ s.reg (mtuReg die 8) = 0 ∧ s.reg (mtuReg die 0x20) = 7 ∧
        s.reg (mtuReg die 0x28) = 0 ∧ s.reg (mtuReg die 0x30) = 0 ∧ s.mtu die = Mtu.zero) ∧
      s.reg 0x3000 = 1 + 31 * 2 ^ 1 ∧ (∀ q, q < 64 → s.reg (0x3108 + 0x20 * q) = 4) ∧
      s.reg 0x4000 = 6 * 2 ^ 2 + 1 * 2 ^ 5 ∧ s.reg 0x4020 = 256 + 128 * 2 ^ 16 + 32 * 2 ^ 32 ∧ s.reg 0x4038 = 4 ∧ s.reg 0x4048 = 4 ∧
      s.reg 0x5018 = 0x7FFFFFF ∧
      (∀ n j, n < 8 → j < 8 → fld (s.reg (0x6040 + 8 * n)) (8 * j) 6 = 8 * n + j ∧
        fld (s.reg (0x6040 + 8 * n)) (8 * j + 6) 2 = 2) ∧
      s.reg 0x7000 = 200 + 200 * 2 ^ 16 ∧ s.reg 0x7008 = 48 + 205 * 2 ^ 16 ∧ s.reg 0x7020 = 840 * 2 ^ 12 ∧
      s.reg 0x7028 = 840 * 2 ^ 12 ∧ s.reg 0x8000 = 16 * 2 ^ 1 + 4 * 2 ^ 6 ∧
      (∀ o, o ∉ [0x1020, 0x2020, 0x3000, 0x4000, 0x4020, 0x4038, 0x4048, 0x5018, 0x7000, 0x7008, 0x7020, 0x7028, 0x8000] →
        (∀ q, q < 64 → o ≠ 0x3108 + 0x20 * q) → (∀ n, n < 8 → o ≠ 0x6040 + 8 * n) → s.reg o = 0) ∧
      ∀ a : BitVec 16, (s.ctx a).cfg = 0 ∧ (s.ctx a).evt = 0 ∧ (s.ctx a).cspg0 = 0 ∧ (s.ctx a).cspg1 = 0 ∧
        (s.ctx a).errpol = 4 * 2 ^ 3 ∧ (s.ctx a).trcCtl = 7 * 2 ^ 13 ∧ (s.ctx a).trcBase = 0 ∧ (s.ctx a).trcHead = 0 ∧
        (s.ctx a).trcTail = 0 ∧ (s.ctx a).key = none) ∧
  (∀ (g : Group) (v : BitVec 64) (m b : BitVec 64) (z : Bool), g.sv 0 = 0 ∧ (g.sel 0).full = true ∧ (g.sel 0).pois = false ∧
    g.writeS 0 v z = g ∧ g.pel 0 = ⟨g.allLanes, true⟩ ∧ g.writeP 0 m b = g) ∧
  (∀ (d : Grid) (team lin gid core slot : Nat) (q : BitVec 64) (tm : BitVec 7) (k l : Nat),
    let g := newGroup d team lin gid core slot q tm
    g.sel k = ⟨0, true, false⟩ ∧ (0 < k → g.pel k = ⟨0, true⟩) ∧ (g.vel k l).val = 0 ∧ (g.vel k l).full = true ∧
      (g.vel k l).pois = false ∧ g.flags = 0 ∧ g.trapen = 0 ∧ g.repIdx = 0 ∧ g.seqNo = 0)
end

