-- ==== Sys2Proof/Laws/Tab.lean ====
section
/-!
SUPPORT. Sparse tables: reading after writing, and that every operation keeps the canonical form.
-/
namespace Sys2Proof.Machine

variable {α : Type}

@[simp] theorem Tab.find_put_same (m : Tab α) (k : Nat) (v : α) : Tab.find (Tab.put m k v) k = some v := by
  induction m with
  | nil => simp [Tab.put, Tab.find]
  | cons e m ih =>
    obtain ⟨j, w⟩ := e
    simp only [Tab.put]
    split
    · simp [Tab.find]
    · split
      · simp [Tab.find]
      · simp [Tab.find, *]

theorem Tab.find_put_other (m : Tab α) {k i : Nat} (v : α) (h : i ≠ k) :
    Tab.find (Tab.put m k v) i = Tab.find m i := by
  induction m with
  | nil => simp [Tab.put, Tab.find, h]
  | cons e m ih =>
    obtain ⟨j, w⟩ := e
    simp only [Tab.put]
    split
    · simp [Tab.find, h]
    · split
      · subst_vars; simp [Tab.find, h]
      · simp [Tab.find, ih]

@[simp] theorem Tab.find_drop_same (m : Tab α) (k : Nat) : Tab.find (Tab.drop m k) k = none := by
  induction m with
  | nil => rfl
  | cons e m ih =>
    obtain ⟨j, w⟩ := e
    simp only [Tab.drop]
    split
    · exact ih
    · simp [Tab.find, *]

theorem Tab.find_drop_other (m : Tab α) {k i : Nat} (h : i ≠ k) : Tab.find (Tab.drop m k) i = Tab.find m i := by
  induction m with
  | nil => rfl
  | cons e m ih =>
    obtain ⟨j, w⟩ := e
    simp only [Tab.drop]
    split
    · subst_vars; simp [Tab.find, h, ih]
    · simp [Tab.find, ih]

theorem Tab.find_put (m : Tab α) (k i : Nat) (v : α) :
    Tab.find (Tab.put m k v) i = if i = k then some v else Tab.find m i := by
  split
  · subst_vars; simp
  · exact Tab.find_put_other m v ‹_›

theorem Tab.find_drop (m : Tab α) (k i : Nat) :
    Tab.find (Tab.drop m k) i = if i = k then none else Tab.find m i := by
  split
  · subst_vars; simp
  · exact Tab.find_drop_other m ‹_›

/-- Reading a table after a write. -/
theorem Tab.get_set [DecidableEq α] (d : α) (m : Tab α) (k i : Nat) (v : α) :
    Tab.get d (Tab.set d m k v) i = if i = k then v else Tab.get d m i := by
  simp only [Tab.get, Tab.set]
  split
  · rw [Tab.find_drop]; split <;> simp_all
  · rw [Tab.find_put]; split <;> simp_all

@[simp] theorem Tab.get_set_same [DecidableEq α] (d : α) (m : Tab α) (k : Nat) (v : α) :
    Tab.get d (Tab.set d m k v) k = v := by simp [Tab.get_set]

theorem Tab.get_set_other [DecidableEq α] (d : α) (m : Tab α) {k i : Nat} (v : α) (h : i ≠ k) :
    Tab.get d (Tab.set d m k v) i = Tab.get d m i := by simp [Tab.get_set, h]

/-- Reading a table after a change of one entry. -/
theorem Tab.find_modify (m : Tab α) (k i : Nat) (f : α → α) :
    Tab.find (Tab.modify m k f) i = if i = k then (Tab.find m i).map f else Tab.find m i := by
  induction m with
  | nil => simp [Tab.modify, Tab.find]
  | cons e m ih =>
    obtain ⟨j, w⟩ := e
    simp only [Tab.modify, List.map_cons] at ih ⊢
    by_cases hj : j = k
    · subst hj
      by_cases hi : i = j
      · simp [Tab.find, hi]
      · simp [Tab.find, hi, ih]
    · by_cases hi : i = j
      · subst hi; simp [Tab.find, hj]
      · simp [Tab.find, hj, hi, ih]

theorem Tab.wfFrom_mono [DecidableEq α] (d : α) {lo hi : Nat} (m : Tab α) (h : lo ≤ hi)
    (w : Tab.wfFrom d hi m = true) : Tab.wfFrom d lo m = true := by
  cases m with
  | nil => rfl
  | cons e m =>
    obtain ⟨j, x⟩ := e
    simp only [Tab.wfFrom, Bool.and_eq_true, decide_eq_true_eq] at w ⊢
    exact ⟨⟨by omega, w.1.2⟩, w.2⟩

theorem Tab.wfFrom_put [DecidableEq α] (d : α) (m : Tab α) {lo k : Nat} {v : α} (h : lo ≤ k) (hv : v ≠ d)
    (w : Tab.wfFrom d lo m = true) : Tab.wfFrom d lo (Tab.put m k v) = true := by
  induction m generalizing lo with
  | nil => simp [Tab.put, Tab.wfFrom, h, hv]
  | cons e m ih =>
    obtain ⟨j, x⟩ := e
    simp only [Tab.wfFrom, Bool.and_eq_true, decide_eq_true_eq] at w
    simp only [Tab.put]
    split
    · rename_i hk
      simp only [Tab.wfFrom, Bool.and_eq_true, decide_eq_true_eq]
      exact ⟨⟨h, hv⟩, ⟨by omega, w.1.2⟩, w.2⟩
    · split
      · subst_vars
        simp only [Tab.wfFrom, Bool.and_eq_true, decide_eq_true_eq]
        exact ⟨⟨h, hv⟩, w.2⟩
      · simp only [Tab.wfFrom, Bool.and_eq_true, decide_eq_true_eq]
        exact ⟨w.1, ih (by omega) w.2⟩

theorem Tab.wfFrom_drop [DecidableEq α] (d : α) (m : Tab α) {lo : Nat} (k : Nat)
    (w : Tab.wfFrom d lo m = true) : Tab.wfFrom d lo (Tab.drop m k) = true := by
  induction m generalizing lo with
  | nil => rfl
  | cons e m ih =>
    obtain ⟨j, x⟩ := e
    simp only [Tab.wfFrom, Bool.and_eq_true, decide_eq_true_eq] at w
    simp only [Tab.drop]
    split
    · exact Tab.wfFrom_mono d _ (by omega) (ih w.2)
    · simp only [Tab.wfFrom, Bool.and_eq_true, decide_eq_true_eq]
      exact ⟨w.1, ih w.2⟩

/-- A write keeps the canonical form. -/
theorem Tab.wf_set [DecidableEq α] (d : α) (m : Tab α) (k : Nat) (v : α) (w : Tab.wf d m = true) :
    Tab.wf d (Tab.set d m k v) = true := by
  simp only [Tab.wf, Tab.set] at *
  split
  · exact Tab.wfFrom_drop d m k w
  · exact Tab.wfFrom_put d m (Nat.zero_le k) ‹_› w

theorem Tab.wfFrom_filter [DecidableEq α] (d : α) (m : Tab α) {lo : Nat} (p : Nat × α → Bool)
    (w : Tab.wfFrom d lo m = true) : Tab.wfFrom d lo (m.filter p) = true := by
  induction m generalizing lo with
  | nil => rfl
  | cons e m ih =>
    obtain ⟨j, x⟩ := e
    simp only [Tab.wfFrom, Bool.and_eq_true, decide_eq_true_eq] at w
    rw [List.filter_cons]
    split
    · simp only [Tab.wfFrom, Bool.and_eq_true, decide_eq_true_eq]
      exact ⟨w.1, ih w.2⟩
    · exact Tab.wfFrom_mono d _ (by omega) (ih w.2)

/-- Taking entries out keeps the canonical form. -/
theorem Tab.wf_filter [DecidableEq α] (d : α) (m : Tab α) (p : Nat × α → Bool) (w : Tab.wf d m = true) :
    Tab.wf d (m.filter p) = true := Tab.wfFrom_filter d m p w

/-- A pass over a table that keeps each entry, changes its value to one that is listed, or leaves it out, keeps the
canonical form. -/
theorem Tab.wf_pass [DecidableEq α] {β : Type} (d : α) (m : Tab α) (f : Tab α × β → Nat × α → Tab α × β) (b : β)
    (hf : ∀ r e, e.2 ≠ d → (f r e).1 = r.1 ∨ ∃ v, v ≠ d ∧ (f r e).1 = (e.1, v) :: r.1) (w : Tab.wf d m = true) :
    Tab.wf d (m.foldl f ([], b)).1.reverse = true := by
  have key : ∀ (m : Tab α) (r : Tab α × β) (lo : Nat), Tab.wfFrom d lo m = true →
      ∃ l, Tab.wfFrom d lo l = true ∧ (m.foldl f r).1 = l.reverse ++ r.1 := by
    intro m
    induction m with
    | nil => exact fun r lo _ => ⟨[], rfl, rfl⟩
    | cons e m ih =>
      intro r lo h
      simp only [Tab.wfFrom, Bool.and_eq_true, decide_eq_true_eq] at h
      obtain ⟨l, hl, hr⟩ := ih (f r e) (e.1 + 1) h.2
      rw [List.foldl_cons, hr]
      obtain h1 | ⟨v, hv, h1⟩ := hf r e h.1.2
      · exact ⟨l, Tab.wfFrom_mono d l (by omega) hl, by rw [h1]⟩
      · refine ⟨(e.1, v) :: l, ?_, by rw [h1]; simp⟩
        simp only [Tab.wfFrom, Bool.and_eq_true, decide_eq_true_eq]
        exact ⟨⟨h.1.1, hv⟩, hl⟩
  obtain ⟨l, hl, hr⟩ := key m ([], b) 0 w
  rw [hr]
  simpa [Tab.wf] using hl

end Sys2Proof.Machine
end

