-- ==== Sys2Proof/Laws/Group.lean ====
section
/-!
SUPPORT. What each update of a group leaves alone: one lemma for each field of `Group` and each of its updates; and the
registers read after a write (R186, R192, R195).
-/
namespace Sys2Proof.Machine

variable (g : Group)

/-! ### putV -/

@[simp] theorem Group.putV_core (j l : Nat) (e : VEl) : (g.putV j l e).core = g.core := rfl
@[simp] theorem Group.putV_slot (j l : Nat) (e : VEl) : (g.putV j l e).slot = g.slot := rfl
@[simp] theorem Group.putV_gid (j l : Nat) (e : VEl) : (g.putV j l e).gid = g.gid := rfl
@[simp] theorem Group.putV_team (j l : Nat) (e : VEl) : (g.putV j l e).team = g.team := rfl
@[simp] theorem Group.putV_grid (j l : Nat) (e : VEl) : (g.putV j l e).grid = g.grid := rfl
@[simp] theorem Group.putV_asid (j l : Nat) (e : VEl) : (g.putV j l e).asid = g.asid := rfl
@[simp] theorem Group.putV_width (j l : Nat) (e : VEl) : (g.putV j l e).width = g.width := rfl
@[simp] theorem Group.putV_role (j l : Nat) (e : VEl) : (g.putV j l e).role = g.role := rfl
@[simp] theorem Group.putV_pc (j l : Nat) (e : VEl) : (g.putV j l e).pc = g.pc := rfl
@[simp] theorem Group.putV_repIdx (j l : Nat) (e : VEl) : (g.putV j l e).repIdx = g.repIdx := rfl
@[simp] theorem Group.putV_flags (j l : Nat) (e : VEl) : (g.putV j l e).flags = g.flags := rfl
@[simp] theorem Group.putV_trapen (j l : Nat) (e : VEl) : (g.putV j l e).trapen = g.trapen := rfl
@[simp] theorem Group.putV_part (j l : Nat) (e : VEl) : (g.putV j l e).part = g.part := rfl
@[simp] theorem Group.putV_wbase (j l : Nat) (e : VEl) : (g.putV j l e).wbase = g.wbase := rfl
@[simp] theorem Group.putV_blockN (j l : Nat) (e : VEl) : (g.putV j l e).blockN = g.blockN := rfl
@[simp] theorem Group.putV_base (j l : Nat) (e : VEl) : (g.putV j l e).base = g.base := rfl
@[simp] theorem Group.putV_s (j l : Nat) (e : VEl) : (g.putV j l e).s = g.s := rfl
@[simp] theorem Group.putV_p (j l : Nat) (e : VEl) : (g.putV j l e).p = g.p := rfl
@[simp] theorem Group.putV_rstream (j l : Nat) (e : VEl) : (g.putV j l e).rstream = g.rstream := rfl
@[simp] theorem Group.putV_seqNo (j l : Nat) (e : VEl) : (g.putV j l e).seqNo = g.seqNo := rfl
@[simp] theorem Group.putV_seqSlot (j l : Nat) (e : VEl) : (g.putV j l e).seqSlot = g.seqSlot := rfl
@[simp] theorem Group.putV_kargs (j l : Nat) (e : VEl) : (g.putV j l e).kargs = g.kargs := rfl
@[simp] theorem Group.putV_rampSlot (j l : Nat) (e : VEl) : (g.putV j l e).rampSlot = g.rampSlot := rfl
@[simp] theorem Group.putV_gridId (j l : Nat) (e : VEl) : (g.putV j l e).gridId = g.gridId := rfl
@[simp] theorem Group.putV_teamId (j l : Nat) (e : VEl) : (g.putV j l e).teamId = g.teamId := rfl
@[simp] theorem Group.putV_laneBase (j l : Nat) (e : VEl) : (g.putV j l e).laneBase = g.laneBase := rfl
@[simp] theorem Group.putV_spec (j l : Nat) (e : VEl) : (g.putV j l e).spec = g.spec := rfl
@[simp] theorem Group.putV_accOwned (j l : Nat) (e : VEl) : (g.putV j l e).accOwned = g.accOwned := rfl
@[simp] theorem Group.putV_stop (j l : Nat) (e : VEl) : (g.putV j l e).stop = g.stop := rfl
@[simp] theorem Group.putV_late (j l : Nat) (e : VEl) : (g.putV j l e).late = g.late := rfl
@[simp] theorem Group.putV_reissue (j l : Nat) (e : VEl) : (g.putV j l e).reissue = g.reissue := rfl
@[simp] theorem Group.putV_holds (j l : Nat) (e : VEl) : (g.putV j l e).holds = g.holds := rfl
@[simp] theorem Group.putV_waiting (j l : Nat) (e : VEl) : (g.putV j l e).waiting = g.waiting := rfl
@[simp] theorem Group.putV_onEmpty (j l : Nat) (e : VEl) : (g.putV j l e).onEmpty = g.onEmpty := rfl
@[simp] theorem Group.putV_waitsIn (j l : Nat) (e : VEl) : (g.putV j l e).waitsIn = g.waitsIn := rfl
@[simp] theorem Group.putV_ibuf (j l : Nat) (e : VEl) : (g.putV j l e).ibuf = g.ibuf := rfl
@[simp] theorem Group.putV_ibufWait (j l : Nat) (e : VEl) : (g.putV j l e).ibufWait = g.ibufWait := rfl
@[simp] theorem Group.putV_staged (j l : Nat) (e : VEl) : (g.putV j l e).staged = g.staged := rfl
@[simp] theorem Group.putV_traceMask (j l : Nat) (e : VEl) : (g.putV j l e).traceMask = g.traceMask := rfl
@[simp] theorem Group.putV_startedAt (j l : Nat) (e : VEl) : (g.putV j l e).startedAt = g.startedAt := rfl
@[simp] theorem Group.putV_lastRetire (j l : Nat) (e : VEl) : (g.putV j l e).lastRetire = g.lastRetire := rfl
@[simp] theorem Group.putV_saved (j l : Nat) (e : VEl) : (g.putV j l e).saved = g.saved := rfl
@[simp] theorem Group.putV_lastTape (j l : Nat) (e : VEl) : (g.putV j l e).lastTape = g.lastTape := rfl
@[simp] theorem Group.putV_barSeen (j l : Nat) (e : VEl) : (g.putV j l e).barSeen = g.barSeen := rfl
@[simp] theorem Group.putV_rampWait (j l : Nat) (e : VEl) : (g.putV j l e).rampWait = g.rampWait := rfl
@[simp] theorem Group.putV_sampleAt (j l : Nat) (e : VEl) : (g.putV j l e).sampleAt = g.sampleAt := rfl
@[simp] theorem Group.putV_growSince (j l : Nat) (e : VEl) : (g.putV j l e).growSince = g.growSince := rfl
@[simp] theorem Group.putV_zeroWrites (j l : Nat) (e : VEl) : (g.putV j l e).zeroWrites = g.zeroWrites := rfl
@[simp] theorem Group.putV_quiesce (j l : Nat) (e : VEl) : (g.putV j l e).quiesce = g.quiesce := rfl
@[simp] theorem Group.putV_tokens (j l : Nat) (e : VEl) : (g.putV j l e).tokens = g.tokens := rfl
@[simp] theorem Group.putV_tileOld (j l : Nat) (e : VEl) : (g.putV j l e).tileOld = g.tileOld := rfl

/-! ### writeV -/

@[simp] theorem Group.writeV_core (k l : Nat) (x : Word) (z : Bool) : (g.writeV k l x z).core = g.core := rfl
@[simp] theorem Group.writeV_slot (k l : Nat) (x : Word) (z : Bool) : (g.writeV k l x z).slot = g.slot := rfl
@[simp] theorem Group.writeV_gid (k l : Nat) (x : Word) (z : Bool) : (g.writeV k l x z).gid = g.gid := rfl
@[simp] theorem Group.writeV_team (k l : Nat) (x : Word) (z : Bool) : (g.writeV k l x z).team = g.team := rfl
@[simp] theorem Group.writeV_grid (k l : Nat) (x : Word) (z : Bool) : (g.writeV k l x z).grid = g.grid := rfl
@[simp] theorem Group.writeV_asid (k l : Nat) (x : Word) (z : Bool) : (g.writeV k l x z).asid = g.asid := rfl
@[simp] theorem Group.writeV_width (k l : Nat) (x : Word) (z : Bool) : (g.writeV k l x z).width = g.width := rfl
@[simp] theorem Group.writeV_role (k l : Nat) (x : Word) (z : Bool) : (g.writeV k l x z).role = g.role := rfl
@[simp] theorem Group.writeV_pc (k l : Nat) (x : Word) (z : Bool) : (g.writeV k l x z).pc = g.pc := rfl
@[simp] theorem Group.writeV_repIdx (k l : Nat) (x : Word) (z : Bool) : (g.writeV k l x z).repIdx = g.repIdx := rfl
@[simp] theorem Group.writeV_flags (k l : Nat) (x : Word) (z : Bool) : (g.writeV k l x z).flags = g.flags := rfl
@[simp] theorem Group.writeV_trapen (k l : Nat) (x : Word) (z : Bool) : (g.writeV k l x z).trapen = g.trapen := rfl
@[simp] theorem Group.writeV_part (k l : Nat) (x : Word) (z : Bool) : (g.writeV k l x z).part = g.part := rfl
@[simp] theorem Group.writeV_wbase (k l : Nat) (x : Word) (z : Bool) : (g.writeV k l x z).wbase = g.wbase := rfl
@[simp] theorem Group.writeV_blockN (k l : Nat) (x : Word) (z : Bool) : (g.writeV k l x z).blockN = g.blockN := rfl
@[simp] theorem Group.writeV_base (k l : Nat) (x : Word) (z : Bool) : (g.writeV k l x z).base = g.base := rfl
@[simp] theorem Group.writeV_s (k l : Nat) (x : Word) (z : Bool) : (g.writeV k l x z).s = g.s := rfl
@[simp] theorem Group.writeV_p (k l : Nat) (x : Word) (z : Bool) : (g.writeV k l x z).p = g.p := rfl
@[simp] theorem Group.writeV_rstream (k l : Nat) (x : Word) (z : Bool) : (g.writeV k l x z).rstream = g.rstream := rfl
@[simp] theorem Group.writeV_seqNo (k l : Nat) (x : Word) (z : Bool) : (g.writeV k l x z).seqNo = g.seqNo := rfl
@[simp] theorem Group.writeV_seqSlot (k l : Nat) (x : Word) (z : Bool) : (g.writeV k l x z).seqSlot = g.seqSlot := rfl
@[simp] theorem Group.writeV_kargs (k l : Nat) (x : Word) (z : Bool) : (g.writeV k l x z).kargs = g.kargs := rfl
@[simp] theorem Group.writeV_rampSlot (k l : Nat) (x : Word) (z : Bool) : (g.writeV k l x z).rampSlot = g.rampSlot := rfl
@[simp] theorem Group.writeV_gridId (k l : Nat) (x : Word) (z : Bool) : (g.writeV k l x z).gridId = g.gridId := rfl
@[simp] theorem Group.writeV_teamId (k l : Nat) (x : Word) (z : Bool) : (g.writeV k l x z).teamId = g.teamId := rfl
@[simp] theorem Group.writeV_laneBase (k l : Nat) (x : Word) (z : Bool) : (g.writeV k l x z).laneBase = g.laneBase := rfl
@[simp] theorem Group.writeV_spec (k l : Nat) (x : Word) (z : Bool) : (g.writeV k l x z).spec = g.spec := rfl
@[simp] theorem Group.writeV_accOwned (k l : Nat) (x : Word) (z : Bool) : (g.writeV k l x z).accOwned = g.accOwned := rfl
@[simp] theorem Group.writeV_stop (k l : Nat) (x : Word) (z : Bool) : (g.writeV k l x z).stop = g.stop := rfl
@[simp] theorem Group.writeV_late (k l : Nat) (x : Word) (z : Bool) : (g.writeV k l x z).late = g.late := rfl
@[simp] theorem Group.writeV_reissue (k l : Nat) (x : Word) (z : Bool) : (g.writeV k l x z).reissue = g.reissue := rfl
@[simp] theorem Group.writeV_holds (k l : Nat) (x : Word) (z : Bool) : (g.writeV k l x z).holds = g.holds := rfl
@[simp] theorem Group.writeV_waiting (k l : Nat) (x : Word) (z : Bool) : (g.writeV k l x z).waiting = g.waiting := rfl
@[simp] theorem Group.writeV_onEmpty (k l : Nat) (x : Word) (z : Bool) : (g.writeV k l x z).onEmpty = g.onEmpty := rfl
@[simp] theorem Group.writeV_waitsIn (k l : Nat) (x : Word) (z : Bool) : (g.writeV k l x z).waitsIn = g.waitsIn := rfl
@[simp] theorem Group.writeV_ibuf (k l : Nat) (x : Word) (z : Bool) : (g.writeV k l x z).ibuf = g.ibuf := rfl
@[simp] theorem Group.writeV_ibufWait (k l : Nat) (x : Word) (z : Bool) : (g.writeV k l x z).ibufWait = g.ibufWait := rfl
@[simp] theorem Group.writeV_staged (k l : Nat) (x : Word) (z : Bool) : (g.writeV k l x z).staged = g.staged := rfl
@[simp] theorem Group.writeV_traceMask (k l : Nat) (x : Word) (z : Bool) : (g.writeV k l x z).traceMask = g.traceMask := rfl
@[simp] theorem Group.writeV_startedAt (k l : Nat) (x : Word) (z : Bool) : (g.writeV k l x z).startedAt = g.startedAt := rfl
@[simp] theorem Group.writeV_lastRetire (k l : Nat) (x : Word) (z : Bool) : (g.writeV k l x z).lastRetire = g.lastRetire := rfl
@[simp] theorem Group.writeV_saved (k l : Nat) (x : Word) (z : Bool) : (g.writeV k l x z).saved = g.saved := rfl
@[simp] theorem Group.writeV_lastTape (k l : Nat) (x : Word) (z : Bool) : (g.writeV k l x z).lastTape = g.lastTape := rfl
@[simp] theorem Group.writeV_barSeen (k l : Nat) (x : Word) (z : Bool) : (g.writeV k l x z).barSeen = g.barSeen := rfl
@[simp] theorem Group.writeV_rampWait (k l : Nat) (x : Word) (z : Bool) : (g.writeV k l x z).rampWait = g.rampWait := rfl
@[simp] theorem Group.writeV_sampleAt (k l : Nat) (x : Word) (z : Bool) : (g.writeV k l x z).sampleAt = g.sampleAt := rfl
@[simp] theorem Group.writeV_growSince (k l : Nat) (x : Word) (z : Bool) : (g.writeV k l x z).growSince = g.growSince := rfl
@[simp] theorem Group.writeV_quiesce (k l : Nat) (x : Word) (z : Bool) : (g.writeV k l x z).quiesce = g.quiesce := rfl
@[simp] theorem Group.writeV_tokens (k l : Nat) (x : Word) (z : Bool) : (g.writeV k l x z).tokens = g.tokens := rfl
@[simp] theorem Group.writeV_tileOld (k l : Nat) (x : Word) (z : Bool) : (g.writeV k l x z).tileOld = g.tileOld := rfl

/-! ### putS -/

@[simp] theorem Group.putS_core (k : Nat) (e : SEl) : (g.putS k e).core = g.core := by unfold Group.putS; split <;> rfl
@[simp] theorem Group.putS_slot (k : Nat) (e : SEl) : (g.putS k e).slot = g.slot := by unfold Group.putS; split <;> rfl
@[simp] theorem Group.putS_gid (k : Nat) (e : SEl) : (g.putS k e).gid = g.gid := by unfold Group.putS; split <;> rfl
@[simp] theorem Group.putS_team (k : Nat) (e : SEl) : (g.putS k e).team = g.team := by unfold Group.putS; split <;> rfl
@[simp] theorem Group.putS_grid (k : Nat) (e : SEl) : (g.putS k e).grid = g.grid := by unfold Group.putS; split <;> rfl
@[simp] theorem Group.putS_asid (k : Nat) (e : SEl) : (g.putS k e).asid = g.asid := by unfold Group.putS; split <;> rfl
@[simp] theorem Group.putS_width (k : Nat) (e : SEl) : (g.putS k e).width = g.width := by unfold Group.putS; split <;> rfl
@[simp] theorem Group.putS_role (k : Nat) (e : SEl) : (g.putS k e).role = g.role := by unfold Group.putS; split <;> rfl
@[simp] theorem Group.putS_pc (k : Nat) (e : SEl) : (g.putS k e).pc = g.pc := by unfold Group.putS; split <;> rfl
@[simp] theorem Group.putS_repIdx (k : Nat) (e : SEl) : (g.putS k e).repIdx = g.repIdx := by unfold Group.putS; split <;> rfl
@[simp] theorem Group.putS_flags (k : Nat) (e : SEl) : (g.putS k e).flags = g.flags := by unfold Group.putS; split <;> rfl
@[simp] theorem Group.putS_trapen (k : Nat) (e : SEl) : (g.putS k e).trapen = g.trapen := by unfold Group.putS; split <;> rfl
@[simp] theorem Group.putS_part (k : Nat) (e : SEl) : (g.putS k e).part = g.part := by unfold Group.putS; split <;> rfl
@[simp] theorem Group.putS_wbase (k : Nat) (e : SEl) : (g.putS k e).wbase = g.wbase := by unfold Group.putS; split <;> rfl
@[simp] theorem Group.putS_blockN (k : Nat) (e : SEl) : (g.putS k e).blockN = g.blockN := by unfold Group.putS; split <;> rfl
@[simp] theorem Group.putS_base (k : Nat) (e : SEl) : (g.putS k e).base = g.base := by unfold Group.putS; split <;> rfl
@[simp] theorem Group.putS_v (k : Nat) (e : SEl) : (g.putS k e).v = g.v := by unfold Group.putS; split <;> rfl
@[simp] theorem Group.putS_p (k : Nat) (e : SEl) : (g.putS k e).p = g.p := by unfold Group.putS; split <;> rfl
@[simp] theorem Group.putS_rstream (k : Nat) (e : SEl) : (g.putS k e).rstream = g.rstream := by unfold Group.putS; split <;> rfl
@[simp] theorem Group.putS_seqNo (k : Nat) (e : SEl) : (g.putS k e).seqNo = g.seqNo := by unfold Group.putS; split <;> rfl
@[simp] theorem Group.putS_seqSlot (k : Nat) (e : SEl) : (g.putS k e).seqSlot = g.seqSlot := by unfold Group.putS; split <;> rfl
@[simp] theorem Group.putS_kargs (k : Nat) (e : SEl) : (g.putS k e).kargs = g.kargs := by unfold Group.putS; split <;> rfl
@[simp] theorem Group.putS_rampSlot (k : Nat) (e : SEl) : (g.putS k e).rampSlot = g.rampSlot := by unfold Group.putS; split <;> rfl
@[simp] theorem Group.putS_gridId (k : Nat) (e : SEl) : (g.putS k e).gridId = g.gridId := by unfold Group.putS; split <;> rfl
@[simp] theorem Group.putS_teamId (k : Nat) (e : SEl) : (g.putS k e).teamId = g.teamId := by unfold Group.putS; split <;> rfl
@[simp] theorem Group.putS_laneBase (k : Nat) (e : SEl) : (g.putS k e).laneBase = g.laneBase := by unfold Group.putS; split <;> rfl
@[simp] theorem Group.putS_spec (k : Nat) (e : SEl) : (g.putS k e).spec = g.spec := by unfold Group.putS; split <;> rfl
@[simp] theorem Group.putS_accOwned (k : Nat) (e : SEl) : (g.putS k e).accOwned = g.accOwned := by unfold Group.putS; split <;> rfl
@[simp] theorem Group.putS_stop (k : Nat) (e : SEl) : (g.putS k e).stop = g.stop := by unfold Group.putS; split <;> rfl
@[simp] theorem Group.putS_late (k : Nat) (e : SEl) : (g.putS k e).late = g.late := by unfold Group.putS; split <;> rfl
@[simp] theorem Group.putS_reissue (k : Nat) (e : SEl) : (g.putS k e).reissue = g.reissue := by unfold Group.putS; split <;> rfl
@[simp] theorem Group.putS_holds (k : Nat) (e : SEl) : (g.putS k e).holds = g.holds := by unfold Group.putS; split <;> rfl
@[simp] theorem Group.putS_waiting (k : Nat) (e : SEl) : (g.putS k e).waiting = g.waiting := by unfold Group.putS; split <;> rfl
@[simp] theorem Group.putS_onEmpty (k : Nat) (e : SEl) : (g.putS k e).onEmpty = g.onEmpty := by unfold Group.putS; split <;> rfl
@[simp] theorem Group.putS_waitsIn (k : Nat) (e : SEl) : (g.putS k e).waitsIn = g.waitsIn := by unfold Group.putS; split <;> rfl
@[simp] theorem Group.putS_ibuf (k : Nat) (e : SEl) : (g.putS k e).ibuf = g.ibuf := by unfold Group.putS; split <;> rfl
@[simp] theorem Group.putS_ibufWait (k : Nat) (e : SEl) : (g.putS k e).ibufWait = g.ibufWait := by unfold Group.putS; split <;> rfl
@[simp] theorem Group.putS_staged (k : Nat) (e : SEl) : (g.putS k e).staged = g.staged := by unfold Group.putS; split <;> rfl
@[simp] theorem Group.putS_traceMask (k : Nat) (e : SEl) : (g.putS k e).traceMask = g.traceMask := by unfold Group.putS; split <;> rfl
@[simp] theorem Group.putS_startedAt (k : Nat) (e : SEl) : (g.putS k e).startedAt = g.startedAt := by unfold Group.putS; split <;> rfl
@[simp] theorem Group.putS_lastRetire (k : Nat) (e : SEl) : (g.putS k e).lastRetire = g.lastRetire := by unfold Group.putS; split <;> rfl
@[simp] theorem Group.putS_saved (k : Nat) (e : SEl) : (g.putS k e).saved = g.saved := by unfold Group.putS; split <;> rfl
@[simp] theorem Group.putS_lastTape (k : Nat) (e : SEl) : (g.putS k e).lastTape = g.lastTape := by unfold Group.putS; split <;> rfl
@[simp] theorem Group.putS_barSeen (k : Nat) (e : SEl) : (g.putS k e).barSeen = g.barSeen := by unfold Group.putS; split <;> rfl
@[simp] theorem Group.putS_rampWait (k : Nat) (e : SEl) : (g.putS k e).rampWait = g.rampWait := by unfold Group.putS; split <;> rfl
@[simp] theorem Group.putS_sampleAt (k : Nat) (e : SEl) : (g.putS k e).sampleAt = g.sampleAt := by unfold Group.putS; split <;> rfl
@[simp] theorem Group.putS_growSince (k : Nat) (e : SEl) : (g.putS k e).growSince = g.growSince := by unfold Group.putS; split <;> rfl
@[simp] theorem Group.putS_zeroWrites (k : Nat) (e : SEl) : (g.putS k e).zeroWrites = g.zeroWrites := by unfold Group.putS; split <;> rfl
@[simp] theorem Group.putS_quiesce (k : Nat) (e : SEl) : (g.putS k e).quiesce = g.quiesce := by unfold Group.putS; split <;> rfl
@[simp] theorem Group.putS_tokens (k : Nat) (e : SEl) : (g.putS k e).tokens = g.tokens := by unfold Group.putS; split <;> rfl
@[simp] theorem Group.putS_tileOld (k : Nat) (e : SEl) : (g.putS k e).tileOld = g.tileOld := by unfold Group.putS; split <;> rfl

/-! ### writeS -/

@[simp] theorem Group.writeS_core (k : Nat) (x : BitVec 64) (z : Bool) : (g.writeS k x z).core = g.core := by unfold Group.writeS; simp
@[simp] theorem Group.writeS_slot (k : Nat) (x : BitVec 64) (z : Bool) : (g.writeS k x z).slot = g.slot := by unfold Group.writeS; simp
@[simp] theorem Group.writeS_gid (k : Nat) (x : BitVec 64) (z : Bool) : (g.writeS k x z).gid = g.gid := by unfold Group.writeS; simp
@[simp] theorem Group.writeS_team (k : Nat) (x : BitVec 64) (z : Bool) : (g.writeS k x z).team = g.team := by unfold Group.writeS; simp
@[simp] theorem Group.writeS_grid (k : Nat) (x : BitVec 64) (z : Bool) : (g.writeS k x z).grid = g.grid := by unfold Group.writeS; simp
@[simp] theorem Group.writeS_asid (k : Nat) (x : BitVec 64) (z : Bool) : (g.writeS k x z).asid = g.asid := by unfold Group.writeS; simp
@[simp] theorem Group.writeS_width (k : Nat) (x : BitVec 64) (z : Bool) : (g.writeS k x z).width = g.width := by unfold Group.writeS; simp
@[simp] theorem Group.writeS_role (k : Nat) (x : BitVec 64) (z : Bool) : (g.writeS k x z).role = g.role := by unfold Group.writeS; simp
@[simp] theorem Group.writeS_pc (k : Nat) (x : BitVec 64) (z : Bool) : (g.writeS k x z).pc = g.pc := by unfold Group.writeS; simp
@[simp] theorem Group.writeS_repIdx (k : Nat) (x : BitVec 64) (z : Bool) : (g.writeS k x z).repIdx = g.repIdx := by unfold Group.writeS; simp
@[simp] theorem Group.writeS_flags (k : Nat) (x : BitVec 64) (z : Bool) : (g.writeS k x z).flags = g.flags := by unfold Group.writeS; simp
@[simp] theorem Group.writeS_trapen (k : Nat) (x : BitVec 64) (z : Bool) : (g.writeS k x z).trapen = g.trapen := by unfold Group.writeS; simp
@[simp] theorem Group.writeS_part (k : Nat) (x : BitVec 64) (z : Bool) : (g.writeS k x z).part = g.part := by unfold Group.writeS; simp
@[simp] theorem Group.writeS_wbase (k : Nat) (x : BitVec 64) (z : Bool) : (g.writeS k x z).wbase = g.wbase := by unfold Group.writeS; simp
@[simp] theorem Group.writeS_blockN (k : Nat) (x : BitVec 64) (z : Bool) : (g.writeS k x z).blockN = g.blockN := by unfold Group.writeS; simp
@[simp] theorem Group.writeS_base (k : Nat) (x : BitVec 64) (z : Bool) : (g.writeS k x z).base = g.base := by unfold Group.writeS; simp
@[simp] theorem Group.writeS_v (k : Nat) (x : BitVec 64) (z : Bool) : (g.writeS k x z).v = g.v := by unfold Group.writeS; simp
@[simp] theorem Group.writeS_p (k : Nat) (x : BitVec 64) (z : Bool) : (g.writeS k x z).p = g.p := by unfold Group.writeS; simp
@[simp] theorem Group.writeS_rstream (k : Nat) (x : BitVec 64) (z : Bool) : (g.writeS k x z).rstream = g.rstream := by unfold Group.writeS; simp
@[simp] theorem Group.writeS_seqNo (k : Nat) (x : BitVec 64) (z : Bool) : (g.writeS k x z).seqNo = g.seqNo := by unfold Group.writeS; simp
@[simp] theorem Group.writeS_seqSlot (k : Nat) (x : BitVec 64) (z : Bool) : (g.writeS k x z).seqSlot = g.seqSlot := by unfold Group.writeS; simp
@[simp] theorem Group.writeS_kargs (k : Nat) (x : BitVec 64) (z : Bool) : (g.writeS k x z).kargs = g.kargs := by unfold Group.writeS; simp
@[simp] theorem Group.writeS_rampSlot (k : Nat) (x : BitVec 64) (z : Bool) : (g.writeS k x z).rampSlot = g.rampSlot := by unfold Group.writeS; simp
@[simp] theorem Group.writeS_gridId (k : Nat) (x : BitVec 64) (z : Bool) : (g.writeS k x z).gridId = g.gridId := by unfold Group.writeS; simp
@[simp] theorem Group.writeS_teamId (k : Nat) (x : BitVec 64) (z : Bool) : (g.writeS k x z).teamId = g.teamId := by unfold Group.writeS; simp
@[simp] theorem Group.writeS_laneBase (k : Nat) (x : BitVec 64) (z : Bool) : (g.writeS k x z).laneBase = g.laneBase := by unfold Group.writeS; simp
@[simp] theorem Group.writeS_spec (k : Nat) (x : BitVec 64) (z : Bool) : (g.writeS k x z).spec = g.spec := by unfold Group.writeS; simp
@[simp] theorem Group.writeS_accOwned (k : Nat) (x : BitVec 64) (z : Bool) : (g.writeS k x z).accOwned = g.accOwned := by unfold Group.writeS; simp
@[simp] theorem Group.writeS_stop (k : Nat) (x : BitVec 64) (z : Bool) : (g.writeS k x z).stop = g.stop := by unfold Group.writeS; simp
@[simp] theorem Group.writeS_late (k : Nat) (x : BitVec 64) (z : Bool) : (g.writeS k x z).late = g.late := by unfold Group.writeS; simp
@[simp] theorem Group.writeS_reissue (k : Nat) (x : BitVec 64) (z : Bool) : (g.writeS k x z).reissue = g.reissue := by unfold Group.writeS; simp
@[simp] theorem Group.writeS_holds (k : Nat) (x : BitVec 64) (z : Bool) : (g.writeS k x z).holds = g.holds := by unfold Group.writeS; simp
@[simp] theorem Group.writeS_waiting (k : Nat) (x : BitVec 64) (z : Bool) : (g.writeS k x z).waiting = g.waiting := by unfold Group.writeS; simp
@[simp] theorem Group.writeS_onEmpty (k : Nat) (x : BitVec 64) (z : Bool) : (g.writeS k x z).onEmpty = g.onEmpty := by unfold Group.writeS; simp
@[simp] theorem Group.writeS_waitsIn (k : Nat) (x : BitVec 64) (z : Bool) : (g.writeS k x z).waitsIn = g.waitsIn := by unfold Group.writeS; simp
@[simp] theorem Group.writeS_ibuf (k : Nat) (x : BitVec 64) (z : Bool) : (g.writeS k x z).ibuf = g.ibuf := by unfold Group.writeS; simp
@[simp] theorem Group.writeS_ibufWait (k : Nat) (x : BitVec 64) (z : Bool) : (g.writeS k x z).ibufWait = g.ibufWait := by unfold Group.writeS; simp
@[simp] theorem Group.writeS_staged (k : Nat) (x : BitVec 64) (z : Bool) : (g.writeS k x z).staged = g.staged := by unfold Group.writeS; simp
@[simp] theorem Group.writeS_traceMask (k : Nat) (x : BitVec 64) (z : Bool) : (g.writeS k x z).traceMask = g.traceMask := by unfold Group.writeS; simp
@[simp] theorem Group.writeS_startedAt (k : Nat) (x : BitVec 64) (z : Bool) : (g.writeS k x z).startedAt = g.startedAt := by unfold Group.writeS; simp
@[simp] theorem Group.writeS_lastRetire (k : Nat) (x : BitVec 64) (z : Bool) : (g.writeS k x z).lastRetire = g.lastRetire := by unfold Group.writeS; simp
@[simp] theorem Group.writeS_saved (k : Nat) (x : BitVec 64) (z : Bool) : (g.writeS k x z).saved = g.saved := by unfold Group.writeS; simp
@[simp] theorem Group.writeS_lastTape (k : Nat) (x : BitVec 64) (z : Bool) : (g.writeS k x z).lastTape = g.lastTape := by unfold Group.writeS; simp
@[simp] theorem Group.writeS_barSeen (k : Nat) (x : BitVec 64) (z : Bool) : (g.writeS k x z).barSeen = g.barSeen := by unfold Group.writeS; simp
@[simp] theorem Group.writeS_rampWait (k : Nat) (x : BitVec 64) (z : Bool) : (g.writeS k x z).rampWait = g.rampWait := by unfold Group.writeS; simp
@[simp] theorem Group.writeS_sampleAt (k : Nat) (x : BitVec 64) (z : Bool) : (g.writeS k x z).sampleAt = g.sampleAt := by unfold Group.writeS; simp
@[simp] theorem Group.writeS_growSince (k : Nat) (x : BitVec 64) (z : Bool) : (g.writeS k x z).growSince = g.growSince := by unfold Group.writeS; simp
@[simp] theorem Group.writeS_zeroWrites (k : Nat) (x : BitVec 64) (z : Bool) : (g.writeS k x z).zeroWrites = g.zeroWrites := by unfold Group.writeS; simp
@[simp] theorem Group.writeS_quiesce (k : Nat) (x : BitVec 64) (z : Bool) : (g.writeS k x z).quiesce = g.quiesce := by unfold Group.writeS; simp
@[simp] theorem Group.writeS_tokens (k : Nat) (x : BitVec 64) (z : Bool) : (g.writeS k x z).tokens = g.tokens := by unfold Group.writeS; simp
@[simp] theorem Group.writeS_tileOld (k : Nat) (x : BitVec 64) (z : Bool) : (g.writeS k x z).tileOld = g.tileOld := by unfold Group.writeS; simp

/-! ### putP -/

@[simp] theorem Group.putP_core (k : Nat) (e : PEl) : (g.putP k e).core = g.core := by unfold Group.putP; split <;> rfl
@[simp] theorem Group.putP_slot (k : Nat) (e : PEl) : (g.putP k e).slot = g.slot := by unfold Group.putP; split <;> rfl
@[simp] theorem Group.putP_gid (k : Nat) (e : PEl) : (g.putP k e).gid = g.gid := by unfold Group.putP; split <;> rfl
@[simp] theorem Group.putP_team (k : Nat) (e : PEl) : (g.putP k e).team = g.team := by unfold Group.putP; split <;> rfl
@[simp] theorem Group.putP_grid (k : Nat) (e : PEl) : (g.putP k e).grid = g.grid := by unfold Group.putP; split <;> rfl
@[simp] theorem Group.putP_asid (k : Nat) (e : PEl) : (g.putP k e).asid = g.asid := by unfold Group.putP; split <;> rfl
@[simp] theorem Group.putP_width (k : Nat) (e : PEl) : (g.putP k e).width = g.width := by unfold Group.putP; split <;> rfl
@[simp] theorem Group.putP_role (k : Nat) (e : PEl) : (g.putP k e).role = g.role := by unfold Group.putP; split <;> rfl
@[simp] theorem Group.putP_pc (k : Nat) (e : PEl) : (g.putP k e).pc = g.pc := by unfold Group.putP; split <;> rfl
@[simp] theorem Group.putP_repIdx (k : Nat) (e : PEl) : (g.putP k e).repIdx = g.repIdx := by unfold Group.putP; split <;> rfl
@[simp] theorem Group.putP_flags (k : Nat) (e : PEl) : (g.putP k e).flags = g.flags := by unfold Group.putP; split <;> rfl
@[simp] theorem Group.putP_trapen (k : Nat) (e : PEl) : (g.putP k e).trapen = g.trapen := by unfold Group.putP; split <;> rfl
@[simp] theorem Group.putP_part (k : Nat) (e : PEl) : (g.putP k e).part = g.part := by unfold Group.putP; split <;> rfl
@[simp] theorem Group.putP_wbase (k : Nat) (e : PEl) : (g.putP k e).wbase = g.wbase := by unfold Group.putP; split <;> rfl
@[simp] theorem Group.putP_blockN (k : Nat) (e : PEl) : (g.putP k e).blockN = g.blockN := by unfold Group.putP; split <;> rfl
@[simp] theorem Group.putP_base (k : Nat) (e : PEl) : (g.putP k e).base = g.base := by unfold Group.putP; split <;> rfl
@[simp] theorem Group.putP_v (k : Nat) (e : PEl) : (g.putP k e).v = g.v := by unfold Group.putP; split <;> rfl
@[simp] theorem Group.putP_s (k : Nat) (e : PEl) : (g.putP k e).s = g.s := by unfold Group.putP; split <;> rfl
@[simp] theorem Group.putP_rstream (k : Nat) (e : PEl) : (g.putP k e).rstream = g.rstream := by unfold Group.putP; split <;> rfl
@[simp] theorem Group.putP_seqNo (k : Nat) (e : PEl) : (g.putP k e).seqNo = g.seqNo := by unfold Group.putP; split <;> rfl
@[simp] theorem Group.putP_seqSlot (k : Nat) (e : PEl) : (g.putP k e).seqSlot = g.seqSlot := by unfold Group.putP; split <;> rfl
@[simp] theorem Group.putP_kargs (k : Nat) (e : PEl) : (g.putP k e).kargs = g.kargs := by unfold Group.putP; split <;> rfl
@[simp] theorem Group.putP_rampSlot (k : Nat) (e : PEl) : (g.putP k e).rampSlot = g.rampSlot := by unfold Group.putP; split <;> rfl
@[simp] theorem Group.putP_gridId (k : Nat) (e : PEl) : (g.putP k e).gridId = g.gridId := by unfold Group.putP; split <;> rfl
@[simp] theorem Group.putP_teamId (k : Nat) (e : PEl) : (g.putP k e).teamId = g.teamId := by unfold Group.putP; split <;> rfl
@[simp] theorem Group.putP_laneBase (k : Nat) (e : PEl) : (g.putP k e).laneBase = g.laneBase := by unfold Group.putP; split <;> rfl
@[simp] theorem Group.putP_spec (k : Nat) (e : PEl) : (g.putP k e).spec = g.spec := by unfold Group.putP; split <;> rfl
@[simp] theorem Group.putP_accOwned (k : Nat) (e : PEl) : (g.putP k e).accOwned = g.accOwned := by unfold Group.putP; split <;> rfl
@[simp] theorem Group.putP_stop (k : Nat) (e : PEl) : (g.putP k e).stop = g.stop := by unfold Group.putP; split <;> rfl
@[simp] theorem Group.putP_late (k : Nat) (e : PEl) : (g.putP k e).late = g.late := by unfold Group.putP; split <;> rfl
@[simp] theorem Group.putP_reissue (k : Nat) (e : PEl) : (g.putP k e).reissue = g.reissue := by unfold Group.putP; split <;> rfl
@[simp] theorem Group.putP_holds (k : Nat) (e : PEl) : (g.putP k e).holds = g.holds := by unfold Group.putP; split <;> rfl
@[simp] theorem Group.putP_waiting (k : Nat) (e : PEl) : (g.putP k e).waiting = g.waiting := by unfold Group.putP; split <;> rfl
@[simp] theorem Group.putP_onEmpty (k : Nat) (e : PEl) : (g.putP k e).onEmpty = g.onEmpty := by unfold Group.putP; split <;> rfl
@[simp] theorem Group.putP_waitsIn (k : Nat) (e : PEl) : (g.putP k e).waitsIn = g.waitsIn := by unfold Group.putP; split <;> rfl
@[simp] theorem Group.putP_ibuf (k : Nat) (e : PEl) : (g.putP k e).ibuf = g.ibuf := by unfold Group.putP; split <;> rfl
@[simp] theorem Group.putP_ibufWait (k : Nat) (e : PEl) : (g.putP k e).ibufWait = g.ibufWait := by unfold Group.putP; split <;> rfl
@[simp] theorem Group.putP_staged (k : Nat) (e : PEl) : (g.putP k e).staged = g.staged := by unfold Group.putP; split <;> rfl
@[simp] theorem Group.putP_traceMask (k : Nat) (e : PEl) : (g.putP k e).traceMask = g.traceMask := by unfold Group.putP; split <;> rfl
@[simp] theorem Group.putP_startedAt (k : Nat) (e : PEl) : (g.putP k e).startedAt = g.startedAt := by unfold Group.putP; split <;> rfl
@[simp] theorem Group.putP_lastRetire (k : Nat) (e : PEl) : (g.putP k e).lastRetire = g.lastRetire := by unfold Group.putP; split <;> rfl
@[simp] theorem Group.putP_saved (k : Nat) (e : PEl) : (g.putP k e).saved = g.saved := by unfold Group.putP; split <;> rfl
@[simp] theorem Group.putP_lastTape (k : Nat) (e : PEl) : (g.putP k e).lastTape = g.lastTape := by unfold Group.putP; split <;> rfl
@[simp] theorem Group.putP_barSeen (k : Nat) (e : PEl) : (g.putP k e).barSeen = g.barSeen := by unfold Group.putP; split <;> rfl
@[simp] theorem Group.putP_rampWait (k : Nat) (e : PEl) : (g.putP k e).rampWait = g.rampWait := by unfold Group.putP; split <;> rfl
@[simp] theorem Group.putP_sampleAt (k : Nat) (e : PEl) : (g.putP k e).sampleAt = g.sampleAt := by unfold Group.putP; split <;> rfl
@[simp] theorem Group.putP_growSince (k : Nat) (e : PEl) : (g.putP k e).growSince = g.growSince := by unfold Group.putP; split <;> rfl
@[simp] theorem Group.putP_zeroWrites (k : Nat) (e : PEl) : (g.putP k e).zeroWrites = g.zeroWrites := by unfold Group.putP; split <;> rfl
@[simp] theorem Group.putP_quiesce (k : Nat) (e : PEl) : (g.putP k e).quiesce = g.quiesce := by unfold Group.putP; split <;> rfl
@[simp] theorem Group.putP_tokens (k : Nat) (e : PEl) : (g.putP k e).tokens = g.tokens := by unfold Group.putP; split <;> rfl
@[simp] theorem Group.putP_tileOld (k : Nat) (e : PEl) : (g.putP k e).tileOld = g.tileOld := by unfold Group.putP; split <;> rfl

/-! ### writeP -/

@[simp] theorem Group.writeP_core (k : Nat) (m b : BitVec 64) : (g.writeP k m b).core = g.core := by unfold Group.writeP; simp
@[simp] theorem Group.writeP_slot (k : Nat) (m b : BitVec 64) : (g.writeP k m b).slot = g.slot := by unfold Group.writeP; simp
@[simp] theorem Group.writeP_gid (k : Nat) (m b : BitVec 64) : (g.writeP k m b).gid = g.gid := by unfold Group.writeP; simp
@[simp] theorem Group.writeP_team (k : Nat) (m b : BitVec 64) : (g.writeP k m b).team = g.team := by unfold Group.writeP; simp
@[simp] theorem Group.writeP_grid (k : Nat) (m b : BitVec 64) : (g.writeP k m b).grid = g.grid := by unfold Group.writeP; simp
@[simp] theorem Group.writeP_asid (k : Nat) (m b : BitVec 64) : (g.writeP k m b).asid = g.asid := by unfold Group.writeP; simp
@[simp] theorem Group.writeP_width (k : Nat) (m b : BitVec 64) : (g.writeP k m b).width = g.width := by unfold Group.writeP; simp
@[simp] theorem Group.writeP_role (k : Nat) (m b : BitVec 64) : (g.writeP k m b).role = g.role := by unfold Group.writeP; simp
@[simp] theorem Group.writeP_pc (k : Nat) (m b : BitVec 64) : (g.writeP k m b).pc = g.pc := by unfold Group.writeP; simp
@[simp] theorem Group.writeP_repIdx (k : Nat) (m b : BitVec 64) : (g.writeP k m b).repIdx = g.repIdx := by unfold Group.writeP; simp
@[simp] theorem Group.writeP_flags (k : Nat) (m b : BitVec 64) : (g.writeP k m b).flags = g.flags := by unfold Group.writeP; simp
@[simp] theorem Group.writeP_trapen (k : Nat) (m b : BitVec 64) : (g.writeP k m b).trapen = g.trapen := by unfold Group.writeP; simp
@[simp] theorem Group.writeP_part (k : Nat) (m b : BitVec 64) : (g.writeP k m b).part = g.part := by unfold Group.writeP; simp
@[simp] theorem Group.writeP_wbase (k : Nat) (m b : BitVec 64) : (g.writeP k m b).wbase = g.wbase := by unfold Group.writeP; simp
@[simp] theorem Group.writeP_blockN (k : Nat) (m b : BitVec 64) : (g.writeP k m b).blockN = g.blockN := by unfold Group.writeP; simp
@[simp] theorem Group.writeP_base (k : Nat) (m b : BitVec 64) : (g.writeP k m b).base = g.base := by unfold Group.writeP; simp
@[simp] theorem Group.writeP_v (k : Nat) (m b : BitVec 64) : (g.writeP k m b).v = g.v := by unfold Group.writeP; simp
@[simp] theorem Group.writeP_s (k : Nat) (m b : BitVec 64) : (g.writeP k m b).s = g.s := by unfold Group.writeP; simp
@[simp] theorem Group.writeP_rstream (k : Nat) (m b : BitVec 64) : (g.writeP k m b).rstream = g.rstream := by unfold Group.writeP; simp
@[simp] theorem Group.writeP_seqNo (k : Nat) (m b : BitVec 64) : (g.writeP k m b).seqNo = g.seqNo := by unfold Group.writeP; simp
@[simp] theorem Group.writeP_seqSlot (k : Nat) (m b : BitVec 64) : (g.writeP k m b).seqSlot = g.seqSlot := by unfold Group.writeP; simp
@[simp] theorem Group.writeP_kargs (k : Nat) (m b : BitVec 64) : (g.writeP k m b).kargs = g.kargs := by unfold Group.writeP; simp
@[simp] theorem Group.writeP_rampSlot (k : Nat) (m b : BitVec 64) : (g.writeP k m b).rampSlot = g.rampSlot := by unfold Group.writeP; simp
@[simp] theorem Group.writeP_gridId (k : Nat) (m b : BitVec 64) : (g.writeP k m b).gridId = g.gridId := by unfold Group.writeP; simp
@[simp] theorem Group.writeP_teamId (k : Nat) (m b : BitVec 64) : (g.writeP k m b).teamId = g.teamId := by unfold Group.writeP; simp
@[simp] theorem Group.writeP_laneBase (k : Nat) (m b : BitVec 64) : (g.writeP k m b).laneBase = g.laneBase := by unfold Group.writeP; simp
@[simp] theorem Group.writeP_spec (k : Nat) (m b : BitVec 64) : (g.writeP k m b).spec = g.spec := by unfold Group.writeP; simp
@[simp] theorem Group.writeP_accOwned (k : Nat) (m b : BitVec 64) : (g.writeP k m b).accOwned = g.accOwned := by unfold Group.writeP; simp
@[simp] theorem Group.writeP_stop (k : Nat) (m b : BitVec 64) : (g.writeP k m b).stop = g.stop := by unfold Group.writeP; simp
@[simp] theorem Group.writeP_late (k : Nat) (m b : BitVec 64) : (g.writeP k m b).late = g.late := by unfold Group.writeP; simp
@[simp] theorem Group.writeP_reissue (k : Nat) (m b : BitVec 64) : (g.writeP k m b).reissue = g.reissue := by unfold Group.writeP; simp
@[simp] theorem Group.writeP_holds (k : Nat) (m b : BitVec 64) : (g.writeP k m b).holds = g.holds := by unfold Group.writeP; simp
@[simp] theorem Group.writeP_waiting (k : Nat) (m b : BitVec 64) : (g.writeP k m b).waiting = g.waiting := by unfold Group.writeP; simp
@[simp] theorem Group.writeP_onEmpty (k : Nat) (m b : BitVec 64) : (g.writeP k m b).onEmpty = g.onEmpty := by unfold Group.writeP; simp
@[simp] theorem Group.writeP_waitsIn (k : Nat) (m b : BitVec 64) : (g.writeP k m b).waitsIn = g.waitsIn := by unfold Group.writeP; simp
@[simp] theorem Group.writeP_ibuf (k : Nat) (m b : BitVec 64) : (g.writeP k m b).ibuf = g.ibuf := by unfold Group.writeP; simp
@[simp] theorem Group.writeP_ibufWait (k : Nat) (m b : BitVec 64) : (g.writeP k m b).ibufWait = g.ibufWait := by unfold Group.writeP; simp
@[simp] theorem Group.writeP_staged (k : Nat) (m b : BitVec 64) : (g.writeP k m b).staged = g.staged := by unfold Group.writeP; simp
@[simp] theorem Group.writeP_traceMask (k : Nat) (m b : BitVec 64) : (g.writeP k m b).traceMask = g.traceMask := by unfold Group.writeP; simp
@[simp] theorem Group.writeP_startedAt (k : Nat) (m b : BitVec 64) : (g.writeP k m b).startedAt = g.startedAt := by unfold Group.writeP; simp
@[simp] theorem Group.writeP_lastRetire (k : Nat) (m b : BitVec 64) : (g.writeP k m b).lastRetire = g.lastRetire := by unfold Group.writeP; simp
@[simp] theorem Group.writeP_saved (k : Nat) (m b : BitVec 64) : (g.writeP k m b).saved = g.saved := by unfold Group.writeP; simp
@[simp] theorem Group.writeP_lastTape (k : Nat) (m b : BitVec 64) : (g.writeP k m b).lastTape = g.lastTape := by unfold Group.writeP; simp
@[simp] theorem Group.writeP_barSeen (k : Nat) (m b : BitVec 64) : (g.writeP k m b).barSeen = g.barSeen := by unfold Group.writeP; simp
@[simp] theorem Group.writeP_rampWait (k : Nat) (m b : BitVec 64) : (g.writeP k m b).rampWait = g.rampWait := by unfold Group.writeP; simp
@[simp] theorem Group.writeP_sampleAt (k : Nat) (m b : BitVec 64) : (g.writeP k m b).sampleAt = g.sampleAt := by unfold Group.writeP; simp
@[simp] theorem Group.writeP_growSince (k : Nat) (m b : BitVec 64) : (g.writeP k m b).growSince = g.growSince := by unfold Group.writeP; simp
@[simp] theorem Group.writeP_zeroWrites (k : Nat) (m b : BitVec 64) : (g.writeP k m b).zeroWrites = g.zeroWrites := by unfold Group.writeP; simp
@[simp] theorem Group.writeP_quiesce (k : Nat) (m b : BitVec 64) : (g.writeP k m b).quiesce = g.quiesce := by unfold Group.writeP; simp
@[simp] theorem Group.writeP_tokens (k : Nat) (m b : BitVec 64) : (g.writeP k m b).tokens = g.tokens := by unfold Group.writeP; simp
@[simp] theorem Group.writeP_tileOld (k : Nat) (m b : BitVec 64) : (g.writeP k m b).tileOld = g.tileOld := by unfold Group.writeP; simp

/-! ### raise -/

@[simp] theorem Group.raise_core (e : BitVec 7) : (g.raise e).core = g.core := rfl
@[simp] theorem Group.raise_slot (e : BitVec 7) : (g.raise e).slot = g.slot := rfl
@[simp] theorem Group.raise_gid (e : BitVec 7) : (g.raise e).gid = g.gid := rfl
@[simp] theorem Group.raise_team (e : BitVec 7) : (g.raise e).team = g.team := rfl
@[simp] theorem Group.raise_grid (e : BitVec 7) : (g.raise e).grid = g.grid := rfl
@[simp] theorem Group.raise_asid (e : BitVec 7) : (g.raise e).asid = g.asid := rfl
@[simp] theorem Group.raise_width (e : BitVec 7) : (g.raise e).width = g.width := rfl
@[simp] theorem Group.raise_role (e : BitVec 7) : (g.raise e).role = g.role := rfl
@[simp] theorem Group.raise_pc (e : BitVec 7) : (g.raise e).pc = g.pc := rfl
@[simp] theorem Group.raise_repIdx (e : BitVec 7) : (g.raise e).repIdx = g.repIdx := rfl
@[simp] theorem Group.raise_trapen (e : BitVec 7) : (g.raise e).trapen = g.trapen := rfl
@[simp] theorem Group.raise_part (e : BitVec 7) : (g.raise e).part = g.part := rfl
@[simp] theorem Group.raise_wbase (e : BitVec 7) : (g.raise e).wbase = g.wbase := rfl
@[simp] theorem Group.raise_blockN (e : BitVec 7) : (g.raise e).blockN = g.blockN := rfl
@[simp] theorem Group.raise_base (e : BitVec 7) : (g.raise e).base = g.base := rfl
@[simp] theorem Group.raise_v (e : BitVec 7) : (g.raise e).v = g.v := rfl
@[simp] theorem Group.raise_s (e : BitVec 7) : (g.raise e).s = g.s := rfl
@[simp] theorem Group.raise_p (e : BitVec 7) : (g.raise e).p = g.p := rfl
@[simp] theorem Group.raise_rstream (e : BitVec 7) : (g.raise e).rstream = g.rstream := rfl
@[simp] theorem Group.raise_seqNo (e : BitVec 7) : (g.raise e).seqNo = g.seqNo := rfl
@[simp] theorem Group.raise_seqSlot (e : BitVec 7) : (g.raise e).seqSlot = g.seqSlot := rfl
@[simp] theorem Group.raise_kargs (e : BitVec 7) : (g.raise e).kargs = g.kargs := rfl
@[simp] theorem Group.raise_rampSlot (e : BitVec 7) : (g.raise e).rampSlot = g.rampSlot := rfl
@[simp] theorem Group.raise_gridId (e : BitVec 7) : (g.raise e).gridId = g.gridId := rfl
@[simp] theorem Group.raise_teamId (e : BitVec 7) : (g.raise e).teamId = g.teamId := rfl
@[simp] theorem Group.raise_laneBase (e : BitVec 7) : (g.raise e).laneBase = g.laneBase := rfl
@[simp] theorem Group.raise_spec (e : BitVec 7) : (g.raise e).spec = g.spec := rfl
@[simp] theorem Group.raise_accOwned (e : BitVec 7) : (g.raise e).accOwned = g.accOwned := rfl
@[simp] theorem Group.raise_stop (e : BitVec 7) : (g.raise e).stop = g.stop := rfl
@[simp] theorem Group.raise_late (e : BitVec 7) : (g.raise e).late = g.late := rfl
@[simp] theorem Group.raise_reissue (e : BitVec 7) : (g.raise e).reissue = g.reissue := rfl
@[simp] theorem Group.raise_holds (e : BitVec 7) : (g.raise e).holds = g.holds := rfl
@[simp] theorem Group.raise_waiting (e : BitVec 7) : (g.raise e).waiting = g.waiting := rfl
@[simp] theorem Group.raise_onEmpty (e : BitVec 7) : (g.raise e).onEmpty = g.onEmpty := rfl
@[simp] theorem Group.raise_waitsIn (e : BitVec 7) : (g.raise e).waitsIn = g.waitsIn := rfl
@[simp] theorem Group.raise_ibuf (e : BitVec 7) : (g.raise e).ibuf = g.ibuf := rfl
@[simp] theorem Group.raise_ibufWait (e : BitVec 7) : (g.raise e).ibufWait = g.ibufWait := rfl
@[simp] theorem Group.raise_staged (e : BitVec 7) : (g.raise e).staged = g.staged := rfl
@[simp] theorem Group.raise_traceMask (e : BitVec 7) : (g.raise e).traceMask = g.traceMask := rfl
@[simp] theorem Group.raise_startedAt (e : BitVec 7) : (g.raise e).startedAt = g.startedAt := rfl
@[simp] theorem Group.raise_lastRetire (e : BitVec 7) : (g.raise e).lastRetire = g.lastRetire := rfl
@[simp] theorem Group.raise_saved (e : BitVec 7) : (g.raise e).saved = g.saved := rfl
@[simp] theorem Group.raise_lastTape (e : BitVec 7) : (g.raise e).lastTape = g.lastTape := rfl
@[simp] theorem Group.raise_barSeen (e : BitVec 7) : (g.raise e).barSeen = g.barSeen := rfl
@[simp] theorem Group.raise_rampWait (e : BitVec 7) : (g.raise e).rampWait = g.rampWait := rfl
@[simp] theorem Group.raise_sampleAt (e : BitVec 7) : (g.raise e).sampleAt = g.sampleAt := rfl
@[simp] theorem Group.raise_growSince (e : BitVec 7) : (g.raise e).growSince = g.growSince := rfl
@[simp] theorem Group.raise_zeroWrites (e : BitVec 7) : (g.raise e).zeroWrites = g.zeroWrites := rfl
@[simp] theorem Group.raise_quiesce (e : BitVec 7) : (g.raise e).quiesce = g.quiesce := rfl
@[simp] theorem Group.raise_tokens (e : BitVec 7) : (g.raise e).tokens = g.tokens := rfl
@[simp] theorem Group.raise_tileOld (e : BitVec 7) : (g.raise e).tileOld = g.tileOld := rfl

/-! ### Reading registers after a write -/

/-- A scalar register after a write; a write to s0 leaves it zero (R186). -/
theorem Group.sel_putS (k j : Nat) (e : SEl) :
    (g.putS k e).sel j = if j = k ∧ k ≠ 0 then e else g.sel j := by
  by_cases hk : k = 0
  · subst hk; simp [Group.putS]
  · by_cases hj : j = 0
    · subst hj; simp [Group.sel, Ne.symm hk]
    · by_cases h : j = k
      · subst h; simp [Group.putS, Group.sel, hk]
      · simp [Group.putS, Group.sel, hk, hj, h, Tab.get_set_other]

/-- A scalar register after it was written full. -/
theorem Group.sel_writeS (k j : Nat) (x : BitVec 64) (z : Bool) :
    (g.writeS k x z).sel j = if j = k ∧ k ≠ 0 then ⟨x, true, z⟩ else g.sel j := g.sel_putS k j _

/-- A predicate register after a write; a write to p0 is ignored (R186). -/
theorem Group.pel_putP (k j : Nat) (e : PEl) :
    (g.putP k e).pel j = if j = k ∧ k ≠ 0 then e else g.pel j := by
  by_cases hk : k = 0
  · subst hk; simp [Group.putP]
  · by_cases hj : j = 0
    · subst hj; simp [Group.pel, Ne.symm hk, Group.allLanes]
    · by_cases h : j = k
      · subst h; simp [Group.putP, Group.pel, hk]
      · simp [Group.putP, Group.pel, hk, hj, h, Tab.get_set_other]

/-- A lane word of the block after a write. -/
theorem Group.vblk_putV (j l i m : Nat) (e : VEl) :
    (g.putV j l e).vblk i m = if i * 64 + m = j * 64 + l then e else g.vblk i m := by
  simp [Group.putV, Group.vblk, Tab.get_set]

/-- s0 reads zero (R186). -/
@[simp] theorem Group.sel_zero : g.sel 0 = SEl.zero := rfl

/-- p0 reads all-true (R186). -/
@[simp] theorem Group.pel_zero : g.pel 0 = ⟨g.allLanes, true⟩ := rfl

/-! Updates reach only what they name. -/

@[simp] theorem Group.sel_putV (j l : Nat) (e : VEl) (k : Nat) : (g.putV j l e).sel k = g.sel k := rfl
@[simp] theorem Group.pel_putV (j l : Nat) (e : VEl) (k : Nat) : (g.putV j l e).pel k = g.pel k := rfl
@[simp] theorem Group.vblk_putS (k : Nat) (e : SEl) (j l : Nat) : (g.putS k e).vblk j l = g.vblk j l := by
  simp [Group.vblk]
@[simp] theorem Group.pel_putS (k : Nat) (e : SEl) (j : Nat) : (g.putS k e).pel j = g.pel j := by
  simp [Group.pel, Group.allLanes]
@[simp] theorem Group.vblk_putP (k : Nat) (e : PEl) (j l : Nat) : (g.putP k e).vblk j l = g.vblk j l := by
  simp [Group.vblk]
@[simp] theorem Group.sel_putP (k : Nat) (e : PEl) (j : Nat) : (g.putP k e).sel j = g.sel j := by simp [Group.sel]
@[simp] theorem Group.sel_raise (e : BitVec 7) (k : Nat) : (g.raise e).sel k = g.sel k := rfl
@[simp] theorem Group.pel_raise (e : BitVec 7) (k : Nat) : (g.raise e).pel k = g.pel k := rfl
@[simp] theorem Group.vblk_raise (e : BitVec 7) (j l : Nat) : (g.raise e).vblk j l = g.vblk j l := rfl

end Sys2Proof.Machine
end

