-- ==== Sys2Proof/Laws/State.lean ====
section
/-!
SUPPORT. What each update of the state leaves alone: one lemma for each field of `State` and each of its updates.
-/
namespace Sys2Proof.Machine

variable (s : State)

/-! ### setGroup -/

@[simp] theorem State.setGroup_now (g : Group) : (s.setGroup g).now = s.now := rfl
@[simp] theorem State.setGroup_clk (g : Group) : (s.setGroup g).clk = s.clk := rfl
@[simp] theorem State.setGroup_agenda (g : Group) : (s.setGroup g).agenda = s.agenda := rfl
@[simp] theorem State.setGroup_cur (g : Group) : (s.setGroup g).cur = s.cur := rfl
@[simp] theorem State.setGroup_lastOn (g : Group) : (s.setGroup g).lastOn = s.lastOn := rfl
@[simp] theorem State.setGroup_clkIssue (g : Group) : (s.setGroup g).clkIssue = s.clkIssue := rfl
@[simp] theorem State.setGroup_freeCount (g : Group) : (s.setGroup g).freeCount = s.freeCount := rfl
@[simp] theorem State.setGroup_nextId (g : Group) : (s.setGroup g).nextId = s.nextId := rfl
@[simp] theorem State.setGroup_mem (g : Group) : (s.setGroup g).mem = s.mem := rfl
@[simp] theorem State.setGroup_poisoned (g : Group) : (s.setGroup g).poisoned = s.poisoned := rfl
@[simp] theorem State.setGroup_l1 (g : Group) : (s.setGroup g).l1 = s.l1 := rfl
@[simp] theorem State.setGroup_l1pois (g : Group) : (s.setGroup g).l1pois = s.l1pois := rfl
@[simp] theorem State.setGroup_crypt (g : Group) : (s.setGroup g).crypt = s.crypt := rfl
@[simp] theorem State.setGroup_cfLines (g : Group) : (s.setGroup g).cfLines = s.cfLines := rfl
@[simp] theorem State.setGroup_regs (g : Group) : (s.setGroup g).regs = s.regs := rfl
@[simp] theorem State.setGroup_ctxs (g : Group) : (s.setGroup g).ctxs = s.ctxs := rfl
@[simp] theorem State.setGroup_teams (g : Group) : (s.setGroup g).teams = s.teams := rfl
@[simp] theorem State.setGroup_grids (g : Group) : (s.setGroup g).grids = s.grids := rfl
@[simp] theorem State.setGroup_cores (g : Group) : (s.setGroup g).cores = s.cores := rfl
@[simp] theorem State.setGroup_csHold (g : Group) : (s.setGroup g).csHold = s.csHold := rfl
@[simp] theorem State.setGroup_memops (g : Group) : (s.setGroup g).memops = s.memops := rfl
@[simp] theorem State.setGroup_sfuops (g : Group) : (s.setGroup g).sfuops = s.sfuops := rfl
@[simp] theorem State.setGroup_copies (g : Group) : (s.setGroup g).copies = s.copies := rfl
@[simp] theorem State.setGroup_matops (g : Group) : (s.setGroup g).matops = s.matops := rfl
@[simp] theorem State.setGroup_psq (g : Group) : (s.setGroup g).psq = s.psq := rfl
@[simp] theorem State.setGroup_moves (g : Group) : (s.setGroup g).moves = s.moves := rfl
@[simp] theorem State.setGroup_mtus (g : Group) : (s.setGroup g).mtus = s.mtus := rfl
@[simp] theorem State.setGroup_owned (g : Group) : (s.setGroup g).owned = s.owned := rfl
@[simp] theorem State.setGroup_notices (g : Group) : (s.setGroup g).notices = s.notices := rfl
@[simp] theorem State.setGroup_winWaits (g : Group) : (s.setGroup g).winWaits = s.winWaits := rfl
@[simp] theorem State.setGroup_killedGens (g : Group) : (s.setGroup g).killedGens = s.killedGens := rfl
@[simp] theorem State.setGroup_exports (g : Group) : (s.setGroup g).exports = s.exports := rfl
@[simp] theorem State.setGroup_slices (g : Group) : (s.setGroup g).slices = s.slices := rfl
@[simp] theorem State.setGroup_slicePend (g : Group) : (s.setGroup g).slicePend = s.slicePend := rfl
@[simp] theorem State.setGroup_sliceFwd (g : Group) : (s.setGroup g).sliceFwd = s.sliceFwd := rfl
@[simp] theorem State.setGroup_lent (g : Group) : (s.setGroup g).lent = s.lent := rfl
@[simp] theorem State.setGroup_recalling (g : Group) : (s.setGroup g).recalling = s.recalling := rfl
@[simp] theorem State.setGroup_ownerQ (g : Group) : (s.setGroup g).ownerQ = s.ownerQ := rfl
@[simp] theorem State.setGroup_fabDir (g : Group) : (s.setGroup g).fabDir = s.fabDir := rfl
@[simp] theorem State.setGroup_probes (g : Group) : (s.setGroup g).probes = s.probes := rfl
@[simp] theorem State.setGroup_probeHeld (g : Group) : (s.setGroup g).probeHeld = s.probeHeld := rfl
@[simp] theorem State.setGroup_out (g : Group) : (s.setGroup g).out = s.out := rfl
@[simp] theorem State.setGroup_held (g : Group) : (s.setGroup g).held = s.held := rfl
@[simp] theorem State.setGroup_orphans (g : Group) : (s.setGroup g).orphans = s.orphans := rfl
@[simp] theorem State.setGroup_portErrors (g : Group) : (s.setGroup g).portErrors = s.portErrors := rfl
@[simp] theorem State.setGroup_expGo (g : Group) : (s.setGroup g).expGo = s.expGo := rfl
@[simp] theorem State.setGroup_pcie (g : Group) : (s.setGroup g).pcie = s.pcie := rfl
@[simp] theorem State.setGroup_txTag (g : Group) : (s.setGroup g).txTag = s.txTag := rfl
@[simp] theorem State.setGroup_noCredit (g : Group) : (s.setGroup g).noCredit = s.noCredit := rfl
@[simp] theorem State.setGroup_portFail (g : Group) : (s.setGroup g).portFail = s.portFail := rfl
@[simp] theorem State.setGroup_tsync (g : Group) : (s.setGroup g).tsync = s.tsync := rfl
@[simp] theorem State.setGroup_tsyncAt (g : Group) : (s.setGroup g).tsyncAt = s.tsyncAt := rfl
@[simp] theorem State.setGroup_slew (g : Group) : (s.setGroup g).slew = s.slew := rfl
@[simp] theorem State.setGroup_carillon (g : Group) : (s.setGroup g).carillon = s.carillon := rfl
@[simp] theorem State.setGroup_notify (g : Group) : (s.setGroup g).notify = s.notify := rfl
@[simp] theorem State.setGroup_receives (g : Group) : (s.setGroup g).receives = s.receives := rfl
@[simp] theorem State.setGroup_handoffs (g : Group) : (s.setGroup g).handoffs = s.handoffs := rfl
@[simp] theorem State.setGroup_damper (g : Group) : (s.setGroup g).damper = s.damper := rfl
@[simp] theorem State.setGroup_saves (g : Group) : (s.setGroup g).saves = s.saves := rfl
@[simp] theorem State.setGroup_traces (g : Group) : (s.setGroup g).traces = s.traces := rfl
@[simp] theorem State.setGroup_tatAt (g : Group) : (s.setGroup g).tatAt = s.tatAt := rfl
@[simp] theorem State.setGroup_tatFree (g : Group) : (s.setGroup g).tatFree = s.tatFree := rfl
@[simp] theorem State.setGroup_tatClk (g : Group) : (s.setGroup g).tatClk = s.tatClk := rfl
@[simp] theorem State.setGroup_tatIndex (g : Group) : (s.setGroup g).tatIndex = s.tatIndex := rfl
@[simp] theorem State.setGroup_tatDrops (g : Group) : (s.setGroup g).tatDrops = s.tatDrops := rfl
@[simp] theorem State.setGroup_units (g : Group) : (s.setGroup g).units = s.units := rfl
@[simp] theorem State.setGroup_frozen (g : Group) : (s.setGroup g).frozen = s.frozen := rfl
@[simp] theorem State.setGroup_firmware (g : Group) : (s.setGroup g).firmware = s.firmware := rfl
@[simp] theorem State.setGroup_image (g : Group) : (s.setGroup g).image = s.image := rfl
@[simp] theorem State.setGroup_secVersion (g : Group) : (s.setGroup g).secVersion = s.secVersion := rfl
@[simp] theorem State.setGroup_hostOut (g : Group) : (s.setGroup g).hostOut = s.hostOut := rfl
@[simp] theorem State.setGroup_toolGuest (g : Group) : (s.setGroup g).toolGuest = s.toolGuest := rfl
@[simp] theorem State.setGroup_guestOut (g : Group) : (s.setGroup g).guestOut = s.guestOut := rfl
@[simp] theorem State.setGroup_ueOut (g : Group) : (s.setGroup g).ueOut = s.ueOut := rfl

/-! ### modGroup -/

@[simp] theorem State.modGroup_now (c k : Nat) (f : Group → Group) : (s.modGroup c k f).now = s.now := rfl
@[simp] theorem State.modGroup_clk (c k : Nat) (f : Group → Group) : (s.modGroup c k f).clk = s.clk := rfl
@[simp] theorem State.modGroup_agenda (c k : Nat) (f : Group → Group) : (s.modGroup c k f).agenda = s.agenda := rfl
@[simp] theorem State.modGroup_cur (c k : Nat) (f : Group → Group) : (s.modGroup c k f).cur = s.cur := rfl
@[simp] theorem State.modGroup_lastOn (c k : Nat) (f : Group → Group) : (s.modGroup c k f).lastOn = s.lastOn := rfl
@[simp] theorem State.modGroup_clkIssue (c k : Nat) (f : Group → Group) : (s.modGroup c k f).clkIssue = s.clkIssue := rfl
@[simp] theorem State.modGroup_freeCount (c k : Nat) (f : Group → Group) : (s.modGroup c k f).freeCount = s.freeCount := rfl
@[simp] theorem State.modGroup_nextId (c k : Nat) (f : Group → Group) : (s.modGroup c k f).nextId = s.nextId := rfl
@[simp] theorem State.modGroup_mem (c k : Nat) (f : Group → Group) : (s.modGroup c k f).mem = s.mem := rfl
@[simp] theorem State.modGroup_poisoned (c k : Nat) (f : Group → Group) : (s.modGroup c k f).poisoned = s.poisoned := rfl
@[simp] theorem State.modGroup_l1 (c k : Nat) (f : Group → Group) : (s.modGroup c k f).l1 = s.l1 := rfl
@[simp] theorem State.modGroup_l1pois (c k : Nat) (f : Group → Group) : (s.modGroup c k f).l1pois = s.l1pois := rfl
@[simp] theorem State.modGroup_crypt (c k : Nat) (f : Group → Group) : (s.modGroup c k f).crypt = s.crypt := rfl
@[simp] theorem State.modGroup_cfLines (c k : Nat) (f : Group → Group) : (s.modGroup c k f).cfLines = s.cfLines := rfl
@[simp] theorem State.modGroup_regs (c k : Nat) (f : Group → Group) : (s.modGroup c k f).regs = s.regs := rfl
@[simp] theorem State.modGroup_ctxs (c k : Nat) (f : Group → Group) : (s.modGroup c k f).ctxs = s.ctxs := rfl
@[simp] theorem State.modGroup_teams (c k : Nat) (f : Group → Group) : (s.modGroup c k f).teams = s.teams := rfl
@[simp] theorem State.modGroup_grids (c k : Nat) (f : Group → Group) : (s.modGroup c k f).grids = s.grids := rfl
@[simp] theorem State.modGroup_cores (c k : Nat) (f : Group → Group) : (s.modGroup c k f).cores = s.cores := rfl
@[simp] theorem State.modGroup_csHold (c k : Nat) (f : Group → Group) : (s.modGroup c k f).csHold = s.csHold := rfl
@[simp] theorem State.modGroup_memops (c k : Nat) (f : Group → Group) : (s.modGroup c k f).memops = s.memops := rfl
@[simp] theorem State.modGroup_sfuops (c k : Nat) (f : Group → Group) : (s.modGroup c k f).sfuops = s.sfuops := rfl
@[simp] theorem State.modGroup_copies (c k : Nat) (f : Group → Group) : (s.modGroup c k f).copies = s.copies := rfl
@[simp] theorem State.modGroup_matops (c k : Nat) (f : Group → Group) : (s.modGroup c k f).matops = s.matops := rfl
@[simp] theorem State.modGroup_psq (c k : Nat) (f : Group → Group) : (s.modGroup c k f).psq = s.psq := rfl
@[simp] theorem State.modGroup_moves (c k : Nat) (f : Group → Group) : (s.modGroup c k f).moves = s.moves := rfl
@[simp] theorem State.modGroup_mtus (c k : Nat) (f : Group → Group) : (s.modGroup c k f).mtus = s.mtus := rfl
@[simp] theorem State.modGroup_owned (c k : Nat) (f : Group → Group) : (s.modGroup c k f).owned = s.owned := rfl
@[simp] theorem State.modGroup_notices (c k : Nat) (f : Group → Group) : (s.modGroup c k f).notices = s.notices := rfl
@[simp] theorem State.modGroup_winWaits (c k : Nat) (f : Group → Group) : (s.modGroup c k f).winWaits = s.winWaits := rfl
@[simp] theorem State.modGroup_killedGens (c k : Nat) (f : Group → Group) : (s.modGroup c k f).killedGens = s.killedGens := rfl
@[simp] theorem State.modGroup_exports (c k : Nat) (f : Group → Group) : (s.modGroup c k f).exports = s.exports := rfl
@[simp] theorem State.modGroup_slices (c k : Nat) (f : Group → Group) : (s.modGroup c k f).slices = s.slices := rfl
@[simp] theorem State.modGroup_slicePend (c k : Nat) (f : Group → Group) : (s.modGroup c k f).slicePend = s.slicePend := rfl
@[simp] theorem State.modGroup_sliceFwd (c k : Nat) (f : Group → Group) : (s.modGroup c k f).sliceFwd = s.sliceFwd := rfl
@[simp] theorem State.modGroup_lent (c k : Nat) (f : Group → Group) : (s.modGroup c k f).lent = s.lent := rfl
@[simp] theorem State.modGroup_recalling (c k : Nat) (f : Group → Group) : (s.modGroup c k f).recalling = s.recalling := rfl
@[simp] theorem State.modGroup_ownerQ (c k : Nat) (f : Group → Group) : (s.modGroup c k f).ownerQ = s.ownerQ := rfl
@[simp] theorem State.modGroup_fabDir (c k : Nat) (f : Group → Group) : (s.modGroup c k f).fabDir = s.fabDir := rfl
@[simp] theorem State.modGroup_probes (c k : Nat) (f : Group → Group) : (s.modGroup c k f).probes = s.probes := rfl
@[simp] theorem State.modGroup_probeHeld (c k : Nat) (f : Group → Group) : (s.modGroup c k f).probeHeld = s.probeHeld := rfl
@[simp] theorem State.modGroup_out (c k : Nat) (f : Group → Group) : (s.modGroup c k f).out = s.out := rfl
@[simp] theorem State.modGroup_held (c k : Nat) (f : Group → Group) : (s.modGroup c k f).held = s.held := rfl
@[simp] theorem State.modGroup_orphans (c k : Nat) (f : Group → Group) : (s.modGroup c k f).orphans = s.orphans := rfl
@[simp] theorem State.modGroup_portErrors (c k : Nat) (f : Group → Group) : (s.modGroup c k f).portErrors = s.portErrors := rfl
@[simp] theorem State.modGroup_expGo (c k : Nat) (f : Group → Group) : (s.modGroup c k f).expGo = s.expGo := rfl
@[simp] theorem State.modGroup_pcie (c k : Nat) (f : Group → Group) : (s.modGroup c k f).pcie = s.pcie := rfl
@[simp] theorem State.modGroup_txTag (c k : Nat) (f : Group → Group) : (s.modGroup c k f).txTag = s.txTag := rfl
@[simp] theorem State.modGroup_noCredit (c k : Nat) (f : Group → Group) : (s.modGroup c k f).noCredit = s.noCredit := rfl
@[simp] theorem State.modGroup_portFail (c k : Nat) (f : Group → Group) : (s.modGroup c k f).portFail = s.portFail := rfl
@[simp] theorem State.modGroup_tsync (c k : Nat) (f : Group → Group) : (s.modGroup c k f).tsync = s.tsync := rfl
@[simp] theorem State.modGroup_tsyncAt (c k : Nat) (f : Group → Group) : (s.modGroup c k f).tsyncAt = s.tsyncAt := rfl
@[simp] theorem State.modGroup_slew (c k : Nat) (f : Group → Group) : (s.modGroup c k f).slew = s.slew := rfl
@[simp] theorem State.modGroup_carillon (c k : Nat) (f : Group → Group) : (s.modGroup c k f).carillon = s.carillon := rfl
@[simp] theorem State.modGroup_notify (c k : Nat) (f : Group → Group) : (s.modGroup c k f).notify = s.notify := rfl
@[simp] theorem State.modGroup_receives (c k : Nat) (f : Group → Group) : (s.modGroup c k f).receives = s.receives := rfl
@[simp] theorem State.modGroup_handoffs (c k : Nat) (f : Group → Group) : (s.modGroup c k f).handoffs = s.handoffs := rfl
@[simp] theorem State.modGroup_damper (c k : Nat) (f : Group → Group) : (s.modGroup c k f).damper = s.damper := rfl
@[simp] theorem State.modGroup_saves (c k : Nat) (f : Group → Group) : (s.modGroup c k f).saves = s.saves := rfl
@[simp] theorem State.modGroup_traces (c k : Nat) (f : Group → Group) : (s.modGroup c k f).traces = s.traces := rfl
@[simp] theorem State.modGroup_tatAt (c k : Nat) (f : Group → Group) : (s.modGroup c k f).tatAt = s.tatAt := rfl
@[simp] theorem State.modGroup_tatFree (c k : Nat) (f : Group → Group) : (s.modGroup c k f).tatFree = s.tatFree := rfl
@[simp] theorem State.modGroup_tatClk (c k : Nat) (f : Group → Group) : (s.modGroup c k f).tatClk = s.tatClk := rfl
@[simp] theorem State.modGroup_tatIndex (c k : Nat) (f : Group → Group) : (s.modGroup c k f).tatIndex = s.tatIndex := rfl
@[simp] theorem State.modGroup_tatDrops (c k : Nat) (f : Group → Group) : (s.modGroup c k f).tatDrops = s.tatDrops := rfl
@[simp] theorem State.modGroup_units (c k : Nat) (f : Group → Group) : (s.modGroup c k f).units = s.units := rfl
@[simp] theorem State.modGroup_frozen (c k : Nat) (f : Group → Group) : (s.modGroup c k f).frozen = s.frozen := rfl
@[simp] theorem State.modGroup_firmware (c k : Nat) (f : Group → Group) : (s.modGroup c k f).firmware = s.firmware := rfl
@[simp] theorem State.modGroup_image (c k : Nat) (f : Group → Group) : (s.modGroup c k f).image = s.image := rfl
@[simp] theorem State.modGroup_secVersion (c k : Nat) (f : Group → Group) : (s.modGroup c k f).secVersion = s.secVersion := rfl
@[simp] theorem State.modGroup_hostOut (c k : Nat) (f : Group → Group) : (s.modGroup c k f).hostOut = s.hostOut := rfl
@[simp] theorem State.modGroup_toolGuest (c k : Nat) (f : Group → Group) : (s.modGroup c k f).toolGuest = s.toolGuest := rfl
@[simp] theorem State.modGroup_guestOut (c k : Nat) (f : Group → Group) : (s.modGroup c k f).guestOut = s.guestOut := rfl
@[simp] theorem State.modGroup_ueOut (c k : Nat) (f : Group → Group) : (s.modGroup c k f).ueOut = s.ueOut := rfl

/-! ### modTeam -/

@[simp] theorem State.modTeam_now (k : Nat) (f : Team → Team) : (s.modTeam k f).now = s.now := rfl
@[simp] theorem State.modTeam_clk (k : Nat) (f : Team → Team) : (s.modTeam k f).clk = s.clk := rfl
@[simp] theorem State.modTeam_agenda (k : Nat) (f : Team → Team) : (s.modTeam k f).agenda = s.agenda := rfl
@[simp] theorem State.modTeam_cur (k : Nat) (f : Team → Team) : (s.modTeam k f).cur = s.cur := rfl
@[simp] theorem State.modTeam_lastOn (k : Nat) (f : Team → Team) : (s.modTeam k f).lastOn = s.lastOn := rfl
@[simp] theorem State.modTeam_clkIssue (k : Nat) (f : Team → Team) : (s.modTeam k f).clkIssue = s.clkIssue := rfl
@[simp] theorem State.modTeam_freeCount (k : Nat) (f : Team → Team) : (s.modTeam k f).freeCount = s.freeCount := rfl
@[simp] theorem State.modTeam_nextId (k : Nat) (f : Team → Team) : (s.modTeam k f).nextId = s.nextId := rfl
@[simp] theorem State.modTeam_mem (k : Nat) (f : Team → Team) : (s.modTeam k f).mem = s.mem := rfl
@[simp] theorem State.modTeam_poisoned (k : Nat) (f : Team → Team) : (s.modTeam k f).poisoned = s.poisoned := rfl
@[simp] theorem State.modTeam_l1 (k : Nat) (f : Team → Team) : (s.modTeam k f).l1 = s.l1 := rfl
@[simp] theorem State.modTeam_l1pois (k : Nat) (f : Team → Team) : (s.modTeam k f).l1pois = s.l1pois := rfl
@[simp] theorem State.modTeam_crypt (k : Nat) (f : Team → Team) : (s.modTeam k f).crypt = s.crypt := rfl
@[simp] theorem State.modTeam_cfLines (k : Nat) (f : Team → Team) : (s.modTeam k f).cfLines = s.cfLines := rfl
@[simp] theorem State.modTeam_regs (k : Nat) (f : Team → Team) : (s.modTeam k f).regs = s.regs := rfl
@[simp] theorem State.modTeam_ctxs (k : Nat) (f : Team → Team) : (s.modTeam k f).ctxs = s.ctxs := rfl
@[simp] theorem State.modTeam_groups (k : Nat) (f : Team → Team) : (s.modTeam k f).groups = s.groups := rfl
@[simp] theorem State.modTeam_grids (k : Nat) (f : Team → Team) : (s.modTeam k f).grids = s.grids := rfl
@[simp] theorem State.modTeam_cores (k : Nat) (f : Team → Team) : (s.modTeam k f).cores = s.cores := rfl
@[simp] theorem State.modTeam_csHold (k : Nat) (f : Team → Team) : (s.modTeam k f).csHold = s.csHold := rfl
@[simp] theorem State.modTeam_memops (k : Nat) (f : Team → Team) : (s.modTeam k f).memops = s.memops := rfl
@[simp] theorem State.modTeam_sfuops (k : Nat) (f : Team → Team) : (s.modTeam k f).sfuops = s.sfuops := rfl
@[simp] theorem State.modTeam_copies (k : Nat) (f : Team → Team) : (s.modTeam k f).copies = s.copies := rfl
@[simp] theorem State.modTeam_matops (k : Nat) (f : Team → Team) : (s.modTeam k f).matops = s.matops := rfl
@[simp] theorem State.modTeam_psq (k : Nat) (f : Team → Team) : (s.modTeam k f).psq = s.psq := rfl
@[simp] theorem State.modTeam_moves (k : Nat) (f : Team → Team) : (s.modTeam k f).moves = s.moves := rfl
@[simp] theorem State.modTeam_mtus (k : Nat) (f : Team → Team) : (s.modTeam k f).mtus = s.mtus := rfl
@[simp] theorem State.modTeam_owned (k : Nat) (f : Team → Team) : (s.modTeam k f).owned = s.owned := rfl
@[simp] theorem State.modTeam_notices (k : Nat) (f : Team → Team) : (s.modTeam k f).notices = s.notices := rfl
@[simp] theorem State.modTeam_winWaits (k : Nat) (f : Team → Team) : (s.modTeam k f).winWaits = s.winWaits := rfl
@[simp] theorem State.modTeam_killedGens (k : Nat) (f : Team → Team) : (s.modTeam k f).killedGens = s.killedGens := rfl
@[simp] theorem State.modTeam_exports (k : Nat) (f : Team → Team) : (s.modTeam k f).exports = s.exports := rfl
@[simp] theorem State.modTeam_slices (k : Nat) (f : Team → Team) : (s.modTeam k f).slices = s.slices := rfl
@[simp] theorem State.modTeam_slicePend (k : Nat) (f : Team → Team) : (s.modTeam k f).slicePend = s.slicePend := rfl
@[simp] theorem State.modTeam_sliceFwd (k : Nat) (f : Team → Team) : (s.modTeam k f).sliceFwd = s.sliceFwd := rfl
@[simp] theorem State.modTeam_lent (k : Nat) (f : Team → Team) : (s.modTeam k f).lent = s.lent := rfl
@[simp] theorem State.modTeam_recalling (k : Nat) (f : Team → Team) : (s.modTeam k f).recalling = s.recalling := rfl
@[simp] theorem State.modTeam_ownerQ (k : Nat) (f : Team → Team) : (s.modTeam k f).ownerQ = s.ownerQ := rfl
@[simp] theorem State.modTeam_fabDir (k : Nat) (f : Team → Team) : (s.modTeam k f).fabDir = s.fabDir := rfl
@[simp] theorem State.modTeam_probes (k : Nat) (f : Team → Team) : (s.modTeam k f).probes = s.probes := rfl
@[simp] theorem State.modTeam_probeHeld (k : Nat) (f : Team → Team) : (s.modTeam k f).probeHeld = s.probeHeld := rfl
@[simp] theorem State.modTeam_out (k : Nat) (f : Team → Team) : (s.modTeam k f).out = s.out := rfl
@[simp] theorem State.modTeam_held (k : Nat) (f : Team → Team) : (s.modTeam k f).held = s.held := rfl
@[simp] theorem State.modTeam_orphans (k : Nat) (f : Team → Team) : (s.modTeam k f).orphans = s.orphans := rfl
@[simp] theorem State.modTeam_portErrors (k : Nat) (f : Team → Team) : (s.modTeam k f).portErrors = s.portErrors := rfl
@[simp] theorem State.modTeam_expGo (k : Nat) (f : Team → Team) : (s.modTeam k f).expGo = s.expGo := rfl
@[simp] theorem State.modTeam_pcie (k : Nat) (f : Team → Team) : (s.modTeam k f).pcie = s.pcie := rfl
@[simp] theorem State.modTeam_txTag (k : Nat) (f : Team → Team) : (s.modTeam k f).txTag = s.txTag := rfl
@[simp] theorem State.modTeam_noCredit (k : Nat) (f : Team → Team) : (s.modTeam k f).noCredit = s.noCredit := rfl
@[simp] theorem State.modTeam_portFail (k : Nat) (f : Team → Team) : (s.modTeam k f).portFail = s.portFail := rfl
@[simp] theorem State.modTeam_tsync (k : Nat) (f : Team → Team) : (s.modTeam k f).tsync = s.tsync := rfl
@[simp] theorem State.modTeam_tsyncAt (k : Nat) (f : Team → Team) : (s.modTeam k f).tsyncAt = s.tsyncAt := rfl
@[simp] theorem State.modTeam_slew (k : Nat) (f : Team → Team) : (s.modTeam k f).slew = s.slew := rfl
@[simp] theorem State.modTeam_carillon (k : Nat) (f : Team → Team) : (s.modTeam k f).carillon = s.carillon := rfl
@[simp] theorem State.modTeam_notify (k : Nat) (f : Team → Team) : (s.modTeam k f).notify = s.notify := rfl
@[simp] theorem State.modTeam_receives (k : Nat) (f : Team → Team) : (s.modTeam k f).receives = s.receives := rfl
@[simp] theorem State.modTeam_handoffs (k : Nat) (f : Team → Team) : (s.modTeam k f).handoffs = s.handoffs := rfl
@[simp] theorem State.modTeam_damper (k : Nat) (f : Team → Team) : (s.modTeam k f).damper = s.damper := rfl
@[simp] theorem State.modTeam_saves (k : Nat) (f : Team → Team) : (s.modTeam k f).saves = s.saves := rfl
@[simp] theorem State.modTeam_traces (k : Nat) (f : Team → Team) : (s.modTeam k f).traces = s.traces := rfl
@[simp] theorem State.modTeam_tatAt (k : Nat) (f : Team → Team) : (s.modTeam k f).tatAt = s.tatAt := rfl
@[simp] theorem State.modTeam_tatFree (k : Nat) (f : Team → Team) : (s.modTeam k f).tatFree = s.tatFree := rfl
@[simp] theorem State.modTeam_tatClk (k : Nat) (f : Team → Team) : (s.modTeam k f).tatClk = s.tatClk := rfl
@[simp] theorem State.modTeam_tatIndex (k : Nat) (f : Team → Team) : (s.modTeam k f).tatIndex = s.tatIndex := rfl
@[simp] theorem State.modTeam_tatDrops (k : Nat) (f : Team → Team) : (s.modTeam k f).tatDrops = s.tatDrops := rfl
@[simp] theorem State.modTeam_units (k : Nat) (f : Team → Team) : (s.modTeam k f).units = s.units := rfl
@[simp] theorem State.modTeam_frozen (k : Nat) (f : Team → Team) : (s.modTeam k f).frozen = s.frozen := rfl
@[simp] theorem State.modTeam_firmware (k : Nat) (f : Team → Team) : (s.modTeam k f).firmware = s.firmware := rfl
@[simp] theorem State.modTeam_image (k : Nat) (f : Team → Team) : (s.modTeam k f).image = s.image := rfl
@[simp] theorem State.modTeam_secVersion (k : Nat) (f : Team → Team) : (s.modTeam k f).secVersion = s.secVersion := rfl
@[simp] theorem State.modTeam_hostOut (k : Nat) (f : Team → Team) : (s.modTeam k f).hostOut = s.hostOut := rfl
@[simp] theorem State.modTeam_toolGuest (k : Nat) (f : Team → Team) : (s.modTeam k f).toolGuest = s.toolGuest := rfl
@[simp] theorem State.modTeam_guestOut (k : Nat) (f : Team → Team) : (s.modTeam k f).guestOut = s.guestOut := rfl
@[simp] theorem State.modTeam_ueOut (k : Nat) (f : Team → Team) : (s.modTeam k f).ueOut = s.ueOut := rfl

/-! ### setCore -/

@[simp] theorem State.setCore_now (k : Nat) (c : Core) : (s.setCore k c).now = s.now := rfl
@[simp] theorem State.setCore_clk (k : Nat) (c : Core) : (s.setCore k c).clk = s.clk := rfl
@[simp] theorem State.setCore_agenda (k : Nat) (c : Core) : (s.setCore k c).agenda = s.agenda := rfl
@[simp] theorem State.setCore_cur (k : Nat) (c : Core) : (s.setCore k c).cur = s.cur := rfl
@[simp] theorem State.setCore_lastOn (k : Nat) (c : Core) : (s.setCore k c).lastOn = s.lastOn := rfl
@[simp] theorem State.setCore_clkIssue (k : Nat) (c : Core) : (s.setCore k c).clkIssue = s.clkIssue := rfl
@[simp] theorem State.setCore_freeCount (k : Nat) (c : Core) : (s.setCore k c).freeCount = s.freeCount := rfl
@[simp] theorem State.setCore_nextId (k : Nat) (c : Core) : (s.setCore k c).nextId = s.nextId := rfl
@[simp] theorem State.setCore_mem (k : Nat) (c : Core) : (s.setCore k c).mem = s.mem := rfl
@[simp] theorem State.setCore_poisoned (k : Nat) (c : Core) : (s.setCore k c).poisoned = s.poisoned := rfl
@[simp] theorem State.setCore_l1 (k : Nat) (c : Core) : (s.setCore k c).l1 = s.l1 := rfl
@[simp] theorem State.setCore_l1pois (k : Nat) (c : Core) : (s.setCore k c).l1pois = s.l1pois := rfl
@[simp] theorem State.setCore_crypt (k : Nat) (c : Core) : (s.setCore k c).crypt = s.crypt := rfl
@[simp] theorem State.setCore_cfLines (k : Nat) (c : Core) : (s.setCore k c).cfLines = s.cfLines := rfl
@[simp] theorem State.setCore_regs (k : Nat) (c : Core) : (s.setCore k c).regs = s.regs := rfl
@[simp] theorem State.setCore_ctxs (k : Nat) (c : Core) : (s.setCore k c).ctxs = s.ctxs := rfl
@[simp] theorem State.setCore_groups (k : Nat) (c : Core) : (s.setCore k c).groups = s.groups := rfl
@[simp] theorem State.setCore_teams (k : Nat) (c : Core) : (s.setCore k c).teams = s.teams := rfl
@[simp] theorem State.setCore_grids (k : Nat) (c : Core) : (s.setCore k c).grids = s.grids := rfl
@[simp] theorem State.setCore_csHold (k : Nat) (c : Core) : (s.setCore k c).csHold = s.csHold := rfl
@[simp] theorem State.setCore_memops (k : Nat) (c : Core) : (s.setCore k c).memops = s.memops := rfl
@[simp] theorem State.setCore_sfuops (k : Nat) (c : Core) : (s.setCore k c).sfuops = s.sfuops := rfl
@[simp] theorem State.setCore_copies (k : Nat) (c : Core) : (s.setCore k c).copies = s.copies := rfl
@[simp] theorem State.setCore_matops (k : Nat) (c : Core) : (s.setCore k c).matops = s.matops := rfl
@[simp] theorem State.setCore_psq (k : Nat) (c : Core) : (s.setCore k c).psq = s.psq := rfl
@[simp] theorem State.setCore_moves (k : Nat) (c : Core) : (s.setCore k c).moves = s.moves := rfl
@[simp] theorem State.setCore_mtus (k : Nat) (c : Core) : (s.setCore k c).mtus = s.mtus := rfl
@[simp] theorem State.setCore_owned (k : Nat) (c : Core) : (s.setCore k c).owned = s.owned := rfl
@[simp] theorem State.setCore_notices (k : Nat) (c : Core) : (s.setCore k c).notices = s.notices := rfl
@[simp] theorem State.setCore_winWaits (k : Nat) (c : Core) : (s.setCore k c).winWaits = s.winWaits := rfl
@[simp] theorem State.setCore_killedGens (k : Nat) (c : Core) : (s.setCore k c).killedGens = s.killedGens := rfl
@[simp] theorem State.setCore_exports (k : Nat) (c : Core) : (s.setCore k c).exports = s.exports := rfl
@[simp] theorem State.setCore_slices (k : Nat) (c : Core) : (s.setCore k c).slices = s.slices := rfl
@[simp] theorem State.setCore_slicePend (k : Nat) (c : Core) : (s.setCore k c).slicePend = s.slicePend := rfl
@[simp] theorem State.setCore_sliceFwd (k : Nat) (c : Core) : (s.setCore k c).sliceFwd = s.sliceFwd := rfl
@[simp] theorem State.setCore_lent (k : Nat) (c : Core) : (s.setCore k c).lent = s.lent := rfl
@[simp] theorem State.setCore_recalling (k : Nat) (c : Core) : (s.setCore k c).recalling = s.recalling := rfl
@[simp] theorem State.setCore_ownerQ (k : Nat) (c : Core) : (s.setCore k c).ownerQ = s.ownerQ := rfl
@[simp] theorem State.setCore_fabDir (k : Nat) (c : Core) : (s.setCore k c).fabDir = s.fabDir := rfl
@[simp] theorem State.setCore_probes (k : Nat) (c : Core) : (s.setCore k c).probes = s.probes := rfl
@[simp] theorem State.setCore_probeHeld (k : Nat) (c : Core) : (s.setCore k c).probeHeld = s.probeHeld := rfl
@[simp] theorem State.setCore_out (k : Nat) (c : Core) : (s.setCore k c).out = s.out := rfl
@[simp] theorem State.setCore_held (k : Nat) (c : Core) : (s.setCore k c).held = s.held := rfl
@[simp] theorem State.setCore_orphans (k : Nat) (c : Core) : (s.setCore k c).orphans = s.orphans := rfl
@[simp] theorem State.setCore_portErrors (k : Nat) (c : Core) : (s.setCore k c).portErrors = s.portErrors := rfl
@[simp] theorem State.setCore_expGo (k : Nat) (c : Core) : (s.setCore k c).expGo = s.expGo := rfl
@[simp] theorem State.setCore_pcie (k : Nat) (c : Core) : (s.setCore k c).pcie = s.pcie := rfl
@[simp] theorem State.setCore_txTag (k : Nat) (c : Core) : (s.setCore k c).txTag = s.txTag := rfl
@[simp] theorem State.setCore_noCredit (k : Nat) (c : Core) : (s.setCore k c).noCredit = s.noCredit := rfl
@[simp] theorem State.setCore_portFail (k : Nat) (c : Core) : (s.setCore k c).portFail = s.portFail := rfl
@[simp] theorem State.setCore_tsync (k : Nat) (c : Core) : (s.setCore k c).tsync = s.tsync := rfl
@[simp] theorem State.setCore_tsyncAt (k : Nat) (c : Core) : (s.setCore k c).tsyncAt = s.tsyncAt := rfl
@[simp] theorem State.setCore_slew (k : Nat) (c : Core) : (s.setCore k c).slew = s.slew := rfl
@[simp] theorem State.setCore_carillon (k : Nat) (c : Core) : (s.setCore k c).carillon = s.carillon := rfl
@[simp] theorem State.setCore_notify (k : Nat) (c : Core) : (s.setCore k c).notify = s.notify := rfl
@[simp] theorem State.setCore_receives (k : Nat) (c : Core) : (s.setCore k c).receives = s.receives := rfl
@[simp] theorem State.setCore_handoffs (k : Nat) (c : Core) : (s.setCore k c).handoffs = s.handoffs := rfl
@[simp] theorem State.setCore_damper (k : Nat) (c : Core) : (s.setCore k c).damper = s.damper := rfl
@[simp] theorem State.setCore_saves (k : Nat) (c : Core) : (s.setCore k c).saves = s.saves := rfl
@[simp] theorem State.setCore_traces (k : Nat) (c : Core) : (s.setCore k c).traces = s.traces := rfl
@[simp] theorem State.setCore_tatAt (k : Nat) (c : Core) : (s.setCore k c).tatAt = s.tatAt := rfl
@[simp] theorem State.setCore_tatFree (k : Nat) (c : Core) : (s.setCore k c).tatFree = s.tatFree := rfl
@[simp] theorem State.setCore_tatClk (k : Nat) (c : Core) : (s.setCore k c).tatClk = s.tatClk := rfl
@[simp] theorem State.setCore_tatIndex (k : Nat) (c : Core) : (s.setCore k c).tatIndex = s.tatIndex := rfl
@[simp] theorem State.setCore_tatDrops (k : Nat) (c : Core) : (s.setCore k c).tatDrops = s.tatDrops := rfl
@[simp] theorem State.setCore_units (k : Nat) (c : Core) : (s.setCore k c).units = s.units := rfl
@[simp] theorem State.setCore_frozen (k : Nat) (c : Core) : (s.setCore k c).frozen = s.frozen := rfl
@[simp] theorem State.setCore_firmware (k : Nat) (c : Core) : (s.setCore k c).firmware = s.firmware := rfl
@[simp] theorem State.setCore_image (k : Nat) (c : Core) : (s.setCore k c).image = s.image := rfl
@[simp] theorem State.setCore_secVersion (k : Nat) (c : Core) : (s.setCore k c).secVersion = s.secVersion := rfl
@[simp] theorem State.setCore_hostOut (k : Nat) (c : Core) : (s.setCore k c).hostOut = s.hostOut := rfl
@[simp] theorem State.setCore_toolGuest (k : Nat) (c : Core) : (s.setCore k c).toolGuest = s.toolGuest := rfl
@[simp] theorem State.setCore_guestOut (k : Nat) (c : Core) : (s.setCore k c).guestOut = s.guestOut := rfl
@[simp] theorem State.setCore_ueOut (k : Nat) (c : Core) : (s.setCore k c).ueOut = s.ueOut := rfl

/-! ### setCtx -/

@[simp] theorem State.setCtx_now (a : BitVec 16) (c : Ctx) : (s.setCtx a c).now = s.now := rfl
@[simp] theorem State.setCtx_clk (a : BitVec 16) (c : Ctx) : (s.setCtx a c).clk = s.clk := rfl
@[simp] theorem State.setCtx_agenda (a : BitVec 16) (c : Ctx) : (s.setCtx a c).agenda = s.agenda := rfl
@[simp] theorem State.setCtx_cur (a : BitVec 16) (c : Ctx) : (s.setCtx a c).cur = s.cur := rfl
@[simp] theorem State.setCtx_lastOn (a : BitVec 16) (c : Ctx) : (s.setCtx a c).lastOn = s.lastOn := rfl
@[simp] theorem State.setCtx_clkIssue (a : BitVec 16) (c : Ctx) : (s.setCtx a c).clkIssue = s.clkIssue := rfl
@[simp] theorem State.setCtx_freeCount (a : BitVec 16) (c : Ctx) : (s.setCtx a c).freeCount = s.freeCount := rfl
@[simp] theorem State.setCtx_nextId (a : BitVec 16) (c : Ctx) : (s.setCtx a c).nextId = s.nextId := rfl
@[simp] theorem State.setCtx_mem (a : BitVec 16) (c : Ctx) : (s.setCtx a c).mem = s.mem := rfl
@[simp] theorem State.setCtx_poisoned (a : BitVec 16) (c : Ctx) : (s.setCtx a c).poisoned = s.poisoned := rfl
@[simp] theorem State.setCtx_l1 (a : BitVec 16) (c : Ctx) : (s.setCtx a c).l1 = s.l1 := rfl
@[simp] theorem State.setCtx_l1pois (a : BitVec 16) (c : Ctx) : (s.setCtx a c).l1pois = s.l1pois := rfl
@[simp] theorem State.setCtx_crypt (a : BitVec 16) (c : Ctx) : (s.setCtx a c).crypt = s.crypt := rfl
@[simp] theorem State.setCtx_cfLines (a : BitVec 16) (c : Ctx) : (s.setCtx a c).cfLines = s.cfLines := rfl
@[simp] theorem State.setCtx_regs (a : BitVec 16) (c : Ctx) : (s.setCtx a c).regs = s.regs := rfl
@[simp] theorem State.setCtx_groups (a : BitVec 16) (c : Ctx) : (s.setCtx a c).groups = s.groups := rfl
@[simp] theorem State.setCtx_teams (a : BitVec 16) (c : Ctx) : (s.setCtx a c).teams = s.teams := rfl
@[simp] theorem State.setCtx_grids (a : BitVec 16) (c : Ctx) : (s.setCtx a c).grids = s.grids := rfl
@[simp] theorem State.setCtx_cores (a : BitVec 16) (c : Ctx) : (s.setCtx a c).cores = s.cores := rfl
@[simp] theorem State.setCtx_csHold (a : BitVec 16) (c : Ctx) : (s.setCtx a c).csHold = s.csHold := rfl
@[simp] theorem State.setCtx_memops (a : BitVec 16) (c : Ctx) : (s.setCtx a c).memops = s.memops := rfl
@[simp] theorem State.setCtx_sfuops (a : BitVec 16) (c : Ctx) : (s.setCtx a c).sfuops = s.sfuops := rfl
@[simp] theorem State.setCtx_copies (a : BitVec 16) (c : Ctx) : (s.setCtx a c).copies = s.copies := rfl
@[simp] theorem State.setCtx_matops (a : BitVec 16) (c : Ctx) : (s.setCtx a c).matops = s.matops := rfl
@[simp] theorem State.setCtx_psq (a : BitVec 16) (c : Ctx) : (s.setCtx a c).psq = s.psq := rfl
@[simp] theorem State.setCtx_moves (a : BitVec 16) (c : Ctx) : (s.setCtx a c).moves = s.moves := rfl
@[simp] theorem State.setCtx_mtus (a : BitVec 16) (c : Ctx) : (s.setCtx a c).mtus = s.mtus := rfl
@[simp] theorem State.setCtx_owned (a : BitVec 16) (c : Ctx) : (s.setCtx a c).owned = s.owned := rfl
@[simp] theorem State.setCtx_notices (a : BitVec 16) (c : Ctx) : (s.setCtx a c).notices = s.notices := rfl
@[simp] theorem State.setCtx_winWaits (a : BitVec 16) (c : Ctx) : (s.setCtx a c).winWaits = s.winWaits := rfl
@[simp] theorem State.setCtx_killedGens (a : BitVec 16) (c : Ctx) : (s.setCtx a c).killedGens = s.killedGens := rfl
@[simp] theorem State.setCtx_exports (a : BitVec 16) (c : Ctx) : (s.setCtx a c).exports = s.exports := rfl
@[simp] theorem State.setCtx_slices (a : BitVec 16) (c : Ctx) : (s.setCtx a c).slices = s.slices := rfl
@[simp] theorem State.setCtx_slicePend (a : BitVec 16) (c : Ctx) : (s.setCtx a c).slicePend = s.slicePend := rfl
@[simp] theorem State.setCtx_sliceFwd (a : BitVec 16) (c : Ctx) : (s.setCtx a c).sliceFwd = s.sliceFwd := rfl
@[simp] theorem State.setCtx_lent (a : BitVec 16) (c : Ctx) : (s.setCtx a c).lent = s.lent := rfl
@[simp] theorem State.setCtx_recalling (a : BitVec 16) (c : Ctx) : (s.setCtx a c).recalling = s.recalling := rfl
@[simp] theorem State.setCtx_ownerQ (a : BitVec 16) (c : Ctx) : (s.setCtx a c).ownerQ = s.ownerQ := rfl
@[simp] theorem State.setCtx_fabDir (a : BitVec 16) (c : Ctx) : (s.setCtx a c).fabDir = s.fabDir := rfl
@[simp] theorem State.setCtx_probes (a : BitVec 16) (c : Ctx) : (s.setCtx a c).probes = s.probes := rfl
@[simp] theorem State.setCtx_probeHeld (a : BitVec 16) (c : Ctx) : (s.setCtx a c).probeHeld = s.probeHeld := rfl
@[simp] theorem State.setCtx_out (a : BitVec 16) (c : Ctx) : (s.setCtx a c).out = s.out := rfl
@[simp] theorem State.setCtx_held (a : BitVec 16) (c : Ctx) : (s.setCtx a c).held = s.held := rfl
@[simp] theorem State.setCtx_orphans (a : BitVec 16) (c : Ctx) : (s.setCtx a c).orphans = s.orphans := rfl
@[simp] theorem State.setCtx_portErrors (a : BitVec 16) (c : Ctx) : (s.setCtx a c).portErrors = s.portErrors := rfl
@[simp] theorem State.setCtx_expGo (a : BitVec 16) (c : Ctx) : (s.setCtx a c).expGo = s.expGo := rfl
@[simp] theorem State.setCtx_pcie (a : BitVec 16) (c : Ctx) : (s.setCtx a c).pcie = s.pcie := rfl
@[simp] theorem State.setCtx_txTag (a : BitVec 16) (c : Ctx) : (s.setCtx a c).txTag = s.txTag := rfl
@[simp] theorem State.setCtx_noCredit (a : BitVec 16) (c : Ctx) : (s.setCtx a c).noCredit = s.noCredit := rfl
@[simp] theorem State.setCtx_portFail (a : BitVec 16) (c : Ctx) : (s.setCtx a c).portFail = s.portFail := rfl
@[simp] theorem State.setCtx_tsync (a : BitVec 16) (c : Ctx) : (s.setCtx a c).tsync = s.tsync := rfl
@[simp] theorem State.setCtx_tsyncAt (a : BitVec 16) (c : Ctx) : (s.setCtx a c).tsyncAt = s.tsyncAt := rfl
@[simp] theorem State.setCtx_slew (a : BitVec 16) (c : Ctx) : (s.setCtx a c).slew = s.slew := rfl
@[simp] theorem State.setCtx_carillon (a : BitVec 16) (c : Ctx) : (s.setCtx a c).carillon = s.carillon := rfl
@[simp] theorem State.setCtx_notify (a : BitVec 16) (c : Ctx) : (s.setCtx a c).notify = s.notify := rfl
@[simp] theorem State.setCtx_receives (a : BitVec 16) (c : Ctx) : (s.setCtx a c).receives = s.receives := rfl
@[simp] theorem State.setCtx_handoffs (a : BitVec 16) (c : Ctx) : (s.setCtx a c).handoffs = s.handoffs := rfl
@[simp] theorem State.setCtx_damper (a : BitVec 16) (c : Ctx) : (s.setCtx a c).damper = s.damper := rfl
@[simp] theorem State.setCtx_saves (a : BitVec 16) (c : Ctx) : (s.setCtx a c).saves = s.saves := rfl
@[simp] theorem State.setCtx_traces (a : BitVec 16) (c : Ctx) : (s.setCtx a c).traces = s.traces := rfl
@[simp] theorem State.setCtx_tatAt (a : BitVec 16) (c : Ctx) : (s.setCtx a c).tatAt = s.tatAt := rfl
@[simp] theorem State.setCtx_tatFree (a : BitVec 16) (c : Ctx) : (s.setCtx a c).tatFree = s.tatFree := rfl
@[simp] theorem State.setCtx_tatClk (a : BitVec 16) (c : Ctx) : (s.setCtx a c).tatClk = s.tatClk := rfl
@[simp] theorem State.setCtx_tatIndex (a : BitVec 16) (c : Ctx) : (s.setCtx a c).tatIndex = s.tatIndex := rfl
@[simp] theorem State.setCtx_tatDrops (a : BitVec 16) (c : Ctx) : (s.setCtx a c).tatDrops = s.tatDrops := rfl
@[simp] theorem State.setCtx_units (a : BitVec 16) (c : Ctx) : (s.setCtx a c).units = s.units := rfl
@[simp] theorem State.setCtx_frozen (a : BitVec 16) (c : Ctx) : (s.setCtx a c).frozen = s.frozen := rfl
@[simp] theorem State.setCtx_firmware (a : BitVec 16) (c : Ctx) : (s.setCtx a c).firmware = s.firmware := rfl
@[simp] theorem State.setCtx_image (a : BitVec 16) (c : Ctx) : (s.setCtx a c).image = s.image := rfl
@[simp] theorem State.setCtx_secVersion (a : BitVec 16) (c : Ctx) : (s.setCtx a c).secVersion = s.secVersion := rfl
@[simp] theorem State.setCtx_hostOut (a : BitVec 16) (c : Ctx) : (s.setCtx a c).hostOut = s.hostOut := rfl
@[simp] theorem State.setCtx_toolGuest (a : BitVec 16) (c : Ctx) : (s.setCtx a c).toolGuest = s.toolGuest := rfl
@[simp] theorem State.setCtx_guestOut (a : BitVec 16) (c : Ctx) : (s.setCtx a c).guestOut = s.guestOut := rfl
@[simp] theorem State.setCtx_ueOut (a : BitVec 16) (c : Ctx) : (s.setCtx a c).ueOut = s.ueOut := rfl

/-! ### setMtu -/

@[simp] theorem State.setMtu_now (d : Nat) (m : Mtu) : (s.setMtu d m).now = s.now := rfl
@[simp] theorem State.setMtu_clk (d : Nat) (m : Mtu) : (s.setMtu d m).clk = s.clk := rfl
@[simp] theorem State.setMtu_agenda (d : Nat) (m : Mtu) : (s.setMtu d m).agenda = s.agenda := rfl
@[simp] theorem State.setMtu_cur (d : Nat) (m : Mtu) : (s.setMtu d m).cur = s.cur := rfl
@[simp] theorem State.setMtu_lastOn (d : Nat) (m : Mtu) : (s.setMtu d m).lastOn = s.lastOn := rfl
@[simp] theorem State.setMtu_clkIssue (d : Nat) (m : Mtu) : (s.setMtu d m).clkIssue = s.clkIssue := rfl
@[simp] theorem State.setMtu_freeCount (d : Nat) (m : Mtu) : (s.setMtu d m).freeCount = s.freeCount := rfl
@[simp] theorem State.setMtu_nextId (d : Nat) (m : Mtu) : (s.setMtu d m).nextId = s.nextId := rfl
@[simp] theorem State.setMtu_mem (d : Nat) (m : Mtu) : (s.setMtu d m).mem = s.mem := rfl
@[simp] theorem State.setMtu_poisoned (d : Nat) (m : Mtu) : (s.setMtu d m).poisoned = s.poisoned := rfl
@[simp] theorem State.setMtu_l1 (d : Nat) (m : Mtu) : (s.setMtu d m).l1 = s.l1 := rfl
@[simp] theorem State.setMtu_l1pois (d : Nat) (m : Mtu) : (s.setMtu d m).l1pois = s.l1pois := rfl
@[simp] theorem State.setMtu_crypt (d : Nat) (m : Mtu) : (s.setMtu d m).crypt = s.crypt := rfl
@[simp] theorem State.setMtu_cfLines (d : Nat) (m : Mtu) : (s.setMtu d m).cfLines = s.cfLines := rfl
@[simp] theorem State.setMtu_regs (d : Nat) (m : Mtu) : (s.setMtu d m).regs = s.regs := rfl
@[simp] theorem State.setMtu_ctxs (d : Nat) (m : Mtu) : (s.setMtu d m).ctxs = s.ctxs := rfl
@[simp] theorem State.setMtu_groups (d : Nat) (m : Mtu) : (s.setMtu d m).groups = s.groups := rfl
@[simp] theorem State.setMtu_teams (d : Nat) (m : Mtu) : (s.setMtu d m).teams = s.teams := rfl
@[simp] theorem State.setMtu_grids (d : Nat) (m : Mtu) : (s.setMtu d m).grids = s.grids := rfl
@[simp] theorem State.setMtu_cores (d : Nat) (m : Mtu) : (s.setMtu d m).cores = s.cores := rfl
@[simp] theorem State.setMtu_csHold (d : Nat) (m : Mtu) : (s.setMtu d m).csHold = s.csHold := rfl
@[simp] theorem State.setMtu_memops (d : Nat) (m : Mtu) : (s.setMtu d m).memops = s.memops := rfl
@[simp] theorem State.setMtu_sfuops (d : Nat) (m : Mtu) : (s.setMtu d m).sfuops = s.sfuops := rfl
@[simp] theorem State.setMtu_copies (d : Nat) (m : Mtu) : (s.setMtu d m).copies = s.copies := rfl
@[simp] theorem State.setMtu_matops (d : Nat) (m : Mtu) : (s.setMtu d m).matops = s.matops := rfl
@[simp] theorem State.setMtu_psq (d : Nat) (m : Mtu) : (s.setMtu d m).psq = s.psq := rfl
@[simp] theorem State.setMtu_moves (d : Nat) (m : Mtu) : (s.setMtu d m).moves = s.moves := rfl
@[simp] theorem State.setMtu_owned (d : Nat) (m : Mtu) : (s.setMtu d m).owned = s.owned := rfl
@[simp] theorem State.setMtu_notices (d : Nat) (m : Mtu) : (s.setMtu d m).notices = s.notices := rfl
@[simp] theorem State.setMtu_winWaits (d : Nat) (m : Mtu) : (s.setMtu d m).winWaits = s.winWaits := rfl
@[simp] theorem State.setMtu_killedGens (d : Nat) (m : Mtu) : (s.setMtu d m).killedGens = s.killedGens := rfl
@[simp] theorem State.setMtu_exports (d : Nat) (m : Mtu) : (s.setMtu d m).exports = s.exports := rfl
@[simp] theorem State.setMtu_slices (d : Nat) (m : Mtu) : (s.setMtu d m).slices = s.slices := rfl
@[simp] theorem State.setMtu_slicePend (d : Nat) (m : Mtu) : (s.setMtu d m).slicePend = s.slicePend := rfl
@[simp] theorem State.setMtu_sliceFwd (d : Nat) (m : Mtu) : (s.setMtu d m).sliceFwd = s.sliceFwd := rfl
@[simp] theorem State.setMtu_lent (d : Nat) (m : Mtu) : (s.setMtu d m).lent = s.lent := rfl
@[simp] theorem State.setMtu_recalling (d : Nat) (m : Mtu) : (s.setMtu d m).recalling = s.recalling := rfl
@[simp] theorem State.setMtu_ownerQ (d : Nat) (m : Mtu) : (s.setMtu d m).ownerQ = s.ownerQ := rfl
@[simp] theorem State.setMtu_fabDir (d : Nat) (m : Mtu) : (s.setMtu d m).fabDir = s.fabDir := rfl
@[simp] theorem State.setMtu_probes (d : Nat) (m : Mtu) : (s.setMtu d m).probes = s.probes := rfl
@[simp] theorem State.setMtu_probeHeld (d : Nat) (m : Mtu) : (s.setMtu d m).probeHeld = s.probeHeld := rfl
@[simp] theorem State.setMtu_out (d : Nat) (m : Mtu) : (s.setMtu d m).out = s.out := rfl
@[simp] theorem State.setMtu_held (d : Nat) (m : Mtu) : (s.setMtu d m).held = s.held := rfl
@[simp] theorem State.setMtu_orphans (d : Nat) (m : Mtu) : (s.setMtu d m).orphans = s.orphans := rfl
@[simp] theorem State.setMtu_portErrors (d : Nat) (m : Mtu) : (s.setMtu d m).portErrors = s.portErrors := rfl
@[simp] theorem State.setMtu_expGo (d : Nat) (m : Mtu) : (s.setMtu d m).expGo = s.expGo := rfl
@[simp] theorem State.setMtu_pcie (d : Nat) (m : Mtu) : (s.setMtu d m).pcie = s.pcie := rfl
@[simp] theorem State.setMtu_txTag (d : Nat) (m : Mtu) : (s.setMtu d m).txTag = s.txTag := rfl
@[simp] theorem State.setMtu_noCredit (d : Nat) (m : Mtu) : (s.setMtu d m).noCredit = s.noCredit := rfl
@[simp] theorem State.setMtu_portFail (d : Nat) (m : Mtu) : (s.setMtu d m).portFail = s.portFail := rfl
@[simp] theorem State.setMtu_tsync (d : Nat) (m : Mtu) : (s.setMtu d m).tsync = s.tsync := rfl
@[simp] theorem State.setMtu_tsyncAt (d : Nat) (m : Mtu) : (s.setMtu d m).tsyncAt = s.tsyncAt := rfl
@[simp] theorem State.setMtu_slew (d : Nat) (m : Mtu) : (s.setMtu d m).slew = s.slew := rfl
@[simp] theorem State.setMtu_carillon (d : Nat) (m : Mtu) : (s.setMtu d m).carillon = s.carillon := rfl
@[simp] theorem State.setMtu_notify (d : Nat) (m : Mtu) : (s.setMtu d m).notify = s.notify := rfl
@[simp] theorem State.setMtu_receives (d : Nat) (m : Mtu) : (s.setMtu d m).receives = s.receives := rfl
@[simp] theorem State.setMtu_handoffs (d : Nat) (m : Mtu) : (s.setMtu d m).handoffs = s.handoffs := rfl
@[simp] theorem State.setMtu_damper (d : Nat) (m : Mtu) : (s.setMtu d m).damper = s.damper := rfl
@[simp] theorem State.setMtu_saves (d : Nat) (m : Mtu) : (s.setMtu d m).saves = s.saves := rfl
@[simp] theorem State.setMtu_traces (d : Nat) (m : Mtu) : (s.setMtu d m).traces = s.traces := rfl
@[simp] theorem State.setMtu_tatAt (d : Nat) (m : Mtu) : (s.setMtu d m).tatAt = s.tatAt := rfl
@[simp] theorem State.setMtu_tatFree (d : Nat) (m : Mtu) : (s.setMtu d m).tatFree = s.tatFree := rfl
@[simp] theorem State.setMtu_tatClk (d : Nat) (m : Mtu) : (s.setMtu d m).tatClk = s.tatClk := rfl
@[simp] theorem State.setMtu_tatIndex (d : Nat) (m : Mtu) : (s.setMtu d m).tatIndex = s.tatIndex := rfl
@[simp] theorem State.setMtu_tatDrops (d : Nat) (m : Mtu) : (s.setMtu d m).tatDrops = s.tatDrops := rfl
@[simp] theorem State.setMtu_units (d : Nat) (m : Mtu) : (s.setMtu d m).units = s.units := rfl
@[simp] theorem State.setMtu_frozen (d : Nat) (m : Mtu) : (s.setMtu d m).frozen = s.frozen := rfl
@[simp] theorem State.setMtu_firmware (d : Nat) (m : Mtu) : (s.setMtu d m).firmware = s.firmware := rfl
@[simp] theorem State.setMtu_image (d : Nat) (m : Mtu) : (s.setMtu d m).image = s.image := rfl
@[simp] theorem State.setMtu_secVersion (d : Nat) (m : Mtu) : (s.setMtu d m).secVersion = s.secVersion := rfl
@[simp] theorem State.setMtu_hostOut (d : Nat) (m : Mtu) : (s.setMtu d m).hostOut = s.hostOut := rfl
@[simp] theorem State.setMtu_toolGuest (d : Nat) (m : Mtu) : (s.setMtu d m).toolGuest = s.toolGuest := rfl
@[simp] theorem State.setMtu_guestOut (d : Nat) (m : Mtu) : (s.setMtu d m).guestOut = s.guestOut := rfl
@[simp] theorem State.setMtu_ueOut (d : Nat) (m : Mtu) : (s.setMtu d m).ueOut = s.ueOut := rfl

/-! ### setReg -/

@[simp] theorem State.setReg_now (o : Nat) (v : BitVec 64) : (s.setReg o v).now = s.now := rfl
@[simp] theorem State.setReg_clk (o : Nat) (v : BitVec 64) : (s.setReg o v).clk = s.clk := rfl
@[simp] theorem State.setReg_agenda (o : Nat) (v : BitVec 64) : (s.setReg o v).agenda = s.agenda := rfl
@[simp] theorem State.setReg_cur (o : Nat) (v : BitVec 64) : (s.setReg o v).cur = s.cur := rfl
@[simp] theorem State.setReg_lastOn (o : Nat) (v : BitVec 64) : (s.setReg o v).lastOn = s.lastOn := rfl
@[simp] theorem State.setReg_clkIssue (o : Nat) (v : BitVec 64) : (s.setReg o v).clkIssue = s.clkIssue := rfl
@[simp] theorem State.setReg_freeCount (o : Nat) (v : BitVec 64) : (s.setReg o v).freeCount = s.freeCount := rfl
@[simp] theorem State.setReg_nextId (o : Nat) (v : BitVec 64) : (s.setReg o v).nextId = s.nextId := rfl
@[simp] theorem State.setReg_mem (o : Nat) (v : BitVec 64) : (s.setReg o v).mem = s.mem := rfl
@[simp] theorem State.setReg_poisoned (o : Nat) (v : BitVec 64) : (s.setReg o v).poisoned = s.poisoned := rfl
@[simp] theorem State.setReg_l1 (o : Nat) (v : BitVec 64) : (s.setReg o v).l1 = s.l1 := rfl
@[simp] theorem State.setReg_l1pois (o : Nat) (v : BitVec 64) : (s.setReg o v).l1pois = s.l1pois := rfl
@[simp] theorem State.setReg_crypt (o : Nat) (v : BitVec 64) : (s.setReg o v).crypt = s.crypt := rfl
@[simp] theorem State.setReg_cfLines (o : Nat) (v : BitVec 64) : (s.setReg o v).cfLines = s.cfLines := rfl
@[simp] theorem State.setReg_ctxs (o : Nat) (v : BitVec 64) : (s.setReg o v).ctxs = s.ctxs := rfl
@[simp] theorem State.setReg_groups (o : Nat) (v : BitVec 64) : (s.setReg o v).groups = s.groups := rfl
@[simp] theorem State.setReg_teams (o : Nat) (v : BitVec 64) : (s.setReg o v).teams = s.teams := rfl
@[simp] theorem State.setReg_grids (o : Nat) (v : BitVec 64) : (s.setReg o v).grids = s.grids := rfl
@[simp] theorem State.setReg_cores (o : Nat) (v : BitVec 64) : (s.setReg o v).cores = s.cores := rfl
@[simp] theorem State.setReg_csHold (o : Nat) (v : BitVec 64) : (s.setReg o v).csHold = s.csHold := rfl
@[simp] theorem State.setReg_memops (o : Nat) (v : BitVec 64) : (s.setReg o v).memops = s.memops := rfl
@[simp] theorem State.setReg_sfuops (o : Nat) (v : BitVec 64) : (s.setReg o v).sfuops = s.sfuops := rfl
@[simp] theorem State.setReg_copies (o : Nat) (v : BitVec 64) : (s.setReg o v).copies = s.copies := rfl
@[simp] theorem State.setReg_matops (o : Nat) (v : BitVec 64) : (s.setReg o v).matops = s.matops := rfl
@[simp] theorem State.setReg_psq (o : Nat) (v : BitVec 64) : (s.setReg o v).psq = s.psq := rfl
@[simp] theorem State.setReg_moves (o : Nat) (v : BitVec 64) : (s.setReg o v).moves = s.moves := rfl
@[simp] theorem State.setReg_mtus (o : Nat) (v : BitVec 64) : (s.setReg o v).mtus = s.mtus := rfl
@[simp] theorem State.setReg_owned (o : Nat) (v : BitVec 64) : (s.setReg o v).owned = s.owned := rfl
@[simp] theorem State.setReg_notices (o : Nat) (v : BitVec 64) : (s.setReg o v).notices = s.notices := rfl
@[simp] theorem State.setReg_winWaits (o : Nat) (v : BitVec 64) : (s.setReg o v).winWaits = s.winWaits := rfl
@[simp] theorem State.setReg_killedGens (o : Nat) (v : BitVec 64) : (s.setReg o v).killedGens = s.killedGens := rfl
@[simp] theorem State.setReg_exports (o : Nat) (v : BitVec 64) : (s.setReg o v).exports = s.exports := rfl
@[simp] theorem State.setReg_slices (o : Nat) (v : BitVec 64) : (s.setReg o v).slices = s.slices := rfl
@[simp] theorem State.setReg_slicePend (o : Nat) (v : BitVec 64) : (s.setReg o v).slicePend = s.slicePend := rfl
@[simp] theorem State.setReg_sliceFwd (o : Nat) (v : BitVec 64) : (s.setReg o v).sliceFwd = s.sliceFwd := rfl
@[simp] theorem State.setReg_lent (o : Nat) (v : BitVec 64) : (s.setReg o v).lent = s.lent := rfl
@[simp] theorem State.setReg_recalling (o : Nat) (v : BitVec 64) : (s.setReg o v).recalling = s.recalling := rfl
@[simp] theorem State.setReg_ownerQ (o : Nat) (v : BitVec 64) : (s.setReg o v).ownerQ = s.ownerQ := rfl
@[simp] theorem State.setReg_fabDir (o : Nat) (v : BitVec 64) : (s.setReg o v).fabDir = s.fabDir := rfl
@[simp] theorem State.setReg_probes (o : Nat) (v : BitVec 64) : (s.setReg o v).probes = s.probes := rfl
@[simp] theorem State.setReg_probeHeld (o : Nat) (v : BitVec 64) : (s.setReg o v).probeHeld = s.probeHeld := rfl
@[simp] theorem State.setReg_out (o : Nat) (v : BitVec 64) : (s.setReg o v).out = s.out := rfl
@[simp] theorem State.setReg_held (o : Nat) (v : BitVec 64) : (s.setReg o v).held = s.held := rfl
@[simp] theorem State.setReg_orphans (o : Nat) (v : BitVec 64) : (s.setReg o v).orphans = s.orphans := rfl
@[simp] theorem State.setReg_portErrors (o : Nat) (v : BitVec 64) : (s.setReg o v).portErrors = s.portErrors := rfl
@[simp] theorem State.setReg_expGo (o : Nat) (v : BitVec 64) : (s.setReg o v).expGo = s.expGo := rfl
@[simp] theorem State.setReg_pcie (o : Nat) (v : BitVec 64) : (s.setReg o v).pcie = s.pcie := rfl
@[simp] theorem State.setReg_txTag (o : Nat) (v : BitVec 64) : (s.setReg o v).txTag = s.txTag := rfl
@[simp] theorem State.setReg_noCredit (o : Nat) (v : BitVec 64) : (s.setReg o v).noCredit = s.noCredit := rfl
@[simp] theorem State.setReg_portFail (o : Nat) (v : BitVec 64) : (s.setReg o v).portFail = s.portFail := rfl
@[simp] theorem State.setReg_tsync (o : Nat) (v : BitVec 64) : (s.setReg o v).tsync = s.tsync := rfl
@[simp] theorem State.setReg_tsyncAt (o : Nat) (v : BitVec 64) : (s.setReg o v).tsyncAt = s.tsyncAt := rfl
@[simp] theorem State.setReg_slew (o : Nat) (v : BitVec 64) : (s.setReg o v).slew = s.slew := rfl
@[simp] theorem State.setReg_carillon (o : Nat) (v : BitVec 64) : (s.setReg o v).carillon = s.carillon := rfl
@[simp] theorem State.setReg_notify (o : Nat) (v : BitVec 64) : (s.setReg o v).notify = s.notify := rfl
@[simp] theorem State.setReg_receives (o : Nat) (v : BitVec 64) : (s.setReg o v).receives = s.receives := rfl
@[simp] theorem State.setReg_handoffs (o : Nat) (v : BitVec 64) : (s.setReg o v).handoffs = s.handoffs := rfl
@[simp] theorem State.setReg_damper (o : Nat) (v : BitVec 64) : (s.setReg o v).damper = s.damper := rfl
@[simp] theorem State.setReg_saves (o : Nat) (v : BitVec 64) : (s.setReg o v).saves = s.saves := rfl
@[simp] theorem State.setReg_traces (o : Nat) (v : BitVec 64) : (s.setReg o v).traces = s.traces := rfl
@[simp] theorem State.setReg_tatAt (o : Nat) (v : BitVec 64) : (s.setReg o v).tatAt = s.tatAt := rfl
@[simp] theorem State.setReg_tatFree (o : Nat) (v : BitVec 64) : (s.setReg o v).tatFree = s.tatFree := rfl
@[simp] theorem State.setReg_tatClk (o : Nat) (v : BitVec 64) : (s.setReg o v).tatClk = s.tatClk := rfl
@[simp] theorem State.setReg_tatIndex (o : Nat) (v : BitVec 64) : (s.setReg o v).tatIndex = s.tatIndex := rfl
@[simp] theorem State.setReg_tatDrops (o : Nat) (v : BitVec 64) : (s.setReg o v).tatDrops = s.tatDrops := rfl
@[simp] theorem State.setReg_units (o : Nat) (v : BitVec 64) : (s.setReg o v).units = s.units := rfl
@[simp] theorem State.setReg_frozen (o : Nat) (v : BitVec 64) : (s.setReg o v).frozen = s.frozen := rfl
@[simp] theorem State.setReg_firmware (o : Nat) (v : BitVec 64) : (s.setReg o v).firmware = s.firmware := rfl
@[simp] theorem State.setReg_image (o : Nat) (v : BitVec 64) : (s.setReg o v).image = s.image := rfl
@[simp] theorem State.setReg_secVersion (o : Nat) (v : BitVec 64) : (s.setReg o v).secVersion = s.secVersion := rfl
@[simp] theorem State.setReg_hostOut (o : Nat) (v : BitVec 64) : (s.setReg o v).hostOut = s.hostOut := rfl
@[simp] theorem State.setReg_toolGuest (o : Nat) (v : BitVec 64) : (s.setReg o v).toolGuest = s.toolGuest := rfl
@[simp] theorem State.setReg_guestOut (o : Nat) (v : BitVec 64) : (s.setReg o v).guestOut = s.guestOut := rfl
@[simp] theorem State.setReg_ueOut (o : Nat) (v : BitVec 64) : (s.setReg o v).ueOut = s.ueOut := rfl

/-! ### writeLE -/

@[simp] theorem State.writeLE_now (k n v : Nat) : (s.writeLE k n v).now = s.now := rfl
@[simp] theorem State.writeLE_clk (k n v : Nat) : (s.writeLE k n v).clk = s.clk := rfl
@[simp] theorem State.writeLE_agenda (k n v : Nat) : (s.writeLE k n v).agenda = s.agenda := rfl
@[simp] theorem State.writeLE_cur (k n v : Nat) : (s.writeLE k n v).cur = s.cur := rfl
@[simp] theorem State.writeLE_lastOn (k n v : Nat) : (s.writeLE k n v).lastOn = s.lastOn := rfl
@[simp] theorem State.writeLE_clkIssue (k n v : Nat) : (s.writeLE k n v).clkIssue = s.clkIssue := rfl
@[simp] theorem State.writeLE_freeCount (k n v : Nat) : (s.writeLE k n v).freeCount = s.freeCount := rfl
@[simp] theorem State.writeLE_nextId (k n v : Nat) : (s.writeLE k n v).nextId = s.nextId := rfl
@[simp] theorem State.writeLE_l1 (k n v : Nat) : (s.writeLE k n v).l1 = s.l1 := rfl
@[simp] theorem State.writeLE_l1pois (k n v : Nat) : (s.writeLE k n v).l1pois = s.l1pois := rfl
@[simp] theorem State.writeLE_crypt (k n v : Nat) : (s.writeLE k n v).crypt = s.crypt := rfl
@[simp] theorem State.writeLE_cfLines (k n v : Nat) : (s.writeLE k n v).cfLines = s.cfLines := rfl
@[simp] theorem State.writeLE_regs (k n v : Nat) : (s.writeLE k n v).regs = s.regs := rfl
@[simp] theorem State.writeLE_ctxs (k n v : Nat) : (s.writeLE k n v).ctxs = s.ctxs := rfl
@[simp] theorem State.writeLE_groups (k n v : Nat) : (s.writeLE k n v).groups = s.groups := rfl
@[simp] theorem State.writeLE_teams (k n v : Nat) : (s.writeLE k n v).teams = s.teams := rfl
@[simp] theorem State.writeLE_grids (k n v : Nat) : (s.writeLE k n v).grids = s.grids := rfl
@[simp] theorem State.writeLE_cores (k n v : Nat) : (s.writeLE k n v).cores = s.cores := rfl
@[simp] theorem State.writeLE_csHold (k n v : Nat) : (s.writeLE k n v).csHold = s.csHold := rfl
@[simp] theorem State.writeLE_memops (k n v : Nat) : (s.writeLE k n v).memops = s.memops := rfl
@[simp] theorem State.writeLE_sfuops (k n v : Nat) : (s.writeLE k n v).sfuops = s.sfuops := rfl
@[simp] theorem State.writeLE_copies (k n v : Nat) : (s.writeLE k n v).copies = s.copies := rfl
@[simp] theorem State.writeLE_matops (k n v : Nat) : (s.writeLE k n v).matops = s.matops := rfl
@[simp] theorem State.writeLE_psq (k n v : Nat) : (s.writeLE k n v).psq = s.psq := rfl
@[simp] theorem State.writeLE_moves (k n v : Nat) : (s.writeLE k n v).moves = s.moves := rfl
@[simp] theorem State.writeLE_mtus (k n v : Nat) : (s.writeLE k n v).mtus = s.mtus := rfl
@[simp] theorem State.writeLE_owned (k n v : Nat) : (s.writeLE k n v).owned = s.owned := rfl
@[simp] theorem State.writeLE_notices (k n v : Nat) : (s.writeLE k n v).notices = s.notices := rfl
@[simp] theorem State.writeLE_winWaits (k n v : Nat) : (s.writeLE k n v).winWaits = s.winWaits := rfl
@[simp] theorem State.writeLE_killedGens (k n v : Nat) : (s.writeLE k n v).killedGens = s.killedGens := rfl
@[simp] theorem State.writeLE_exports (k n v : Nat) : (s.writeLE k n v).exports = s.exports := rfl
@[simp] theorem State.writeLE_slices (k n v : Nat) : (s.writeLE k n v).slices = s.slices := rfl
@[simp] theorem State.writeLE_slicePend (k n v : Nat) : (s.writeLE k n v).slicePend = s.slicePend := rfl
@[simp] theorem State.writeLE_sliceFwd (k n v : Nat) : (s.writeLE k n v).sliceFwd = s.sliceFwd := rfl
@[simp] theorem State.writeLE_lent (k n v : Nat) : (s.writeLE k n v).lent = s.lent := rfl
@[simp] theorem State.writeLE_recalling (k n v : Nat) : (s.writeLE k n v).recalling = s.recalling := rfl
@[simp] theorem State.writeLE_ownerQ (k n v : Nat) : (s.writeLE k n v).ownerQ = s.ownerQ := rfl
@[simp] theorem State.writeLE_fabDir (k n v : Nat) : (s.writeLE k n v).fabDir = s.fabDir := rfl
@[simp] theorem State.writeLE_probes (k n v : Nat) : (s.writeLE k n v).probes = s.probes := rfl
@[simp] theorem State.writeLE_probeHeld (k n v : Nat) : (s.writeLE k n v).probeHeld = s.probeHeld := rfl
@[simp] theorem State.writeLE_out (k n v : Nat) : (s.writeLE k n v).out = s.out := rfl
@[simp] theorem State.writeLE_held (k n v : Nat) : (s.writeLE k n v).held = s.held := rfl
@[simp] theorem State.writeLE_orphans (k n v : Nat) : (s.writeLE k n v).orphans = s.orphans := rfl
@[simp] theorem State.writeLE_portErrors (k n v : Nat) : (s.writeLE k n v).portErrors = s.portErrors := rfl
@[simp] theorem State.writeLE_expGo (k n v : Nat) : (s.writeLE k n v).expGo = s.expGo := rfl
@[simp] theorem State.writeLE_pcie (k n v : Nat) : (s.writeLE k n v).pcie = s.pcie := rfl
@[simp] theorem State.writeLE_txTag (k n v : Nat) : (s.writeLE k n v).txTag = s.txTag := rfl
@[simp] theorem State.writeLE_noCredit (k n v : Nat) : (s.writeLE k n v).noCredit = s.noCredit := rfl
@[simp] theorem State.writeLE_portFail (k n v : Nat) : (s.writeLE k n v).portFail = s.portFail := rfl
@[simp] theorem State.writeLE_tsync (k n v : Nat) : (s.writeLE k n v).tsync = s.tsync := rfl
@[simp] theorem State.writeLE_tsyncAt (k n v : Nat) : (s.writeLE k n v).tsyncAt = s.tsyncAt := rfl
@[simp] theorem State.writeLE_slew (k n v : Nat) : (s.writeLE k n v).slew = s.slew := rfl
@[simp] theorem State.writeLE_carillon (k n v : Nat) : (s.writeLE k n v).carillon = s.carillon := rfl
@[simp] theorem State.writeLE_notify (k n v : Nat) : (s.writeLE k n v).notify = s.notify := rfl
@[simp] theorem State.writeLE_receives (k n v : Nat) : (s.writeLE k n v).receives = s.receives := rfl
@[simp] theorem State.writeLE_handoffs (k n v : Nat) : (s.writeLE k n v).handoffs = s.handoffs := rfl
@[simp] theorem State.writeLE_damper (k n v : Nat) : (s.writeLE k n v).damper = s.damper := rfl
@[simp] theorem State.writeLE_saves (k n v : Nat) : (s.writeLE k n v).saves = s.saves := rfl
@[simp] theorem State.writeLE_traces (k n v : Nat) : (s.writeLE k n v).traces = s.traces := rfl
@[simp] theorem State.writeLE_tatAt (k n v : Nat) : (s.writeLE k n v).tatAt = s.tatAt := rfl
@[simp] theorem State.writeLE_tatFree (k n v : Nat) : (s.writeLE k n v).tatFree = s.tatFree := rfl
@[simp] theorem State.writeLE_tatClk (k n v : Nat) : (s.writeLE k n v).tatClk = s.tatClk := rfl
@[simp] theorem State.writeLE_tatIndex (k n v : Nat) : (s.writeLE k n v).tatIndex = s.tatIndex := rfl
@[simp] theorem State.writeLE_tatDrops (k n v : Nat) : (s.writeLE k n v).tatDrops = s.tatDrops := rfl
@[simp] theorem State.writeLE_units (k n v : Nat) : (s.writeLE k n v).units = s.units := rfl
@[simp] theorem State.writeLE_frozen (k n v : Nat) : (s.writeLE k n v).frozen = s.frozen := rfl
@[simp] theorem State.writeLE_firmware (k n v : Nat) : (s.writeLE k n v).firmware = s.firmware := rfl
@[simp] theorem State.writeLE_image (k n v : Nat) : (s.writeLE k n v).image = s.image := rfl
@[simp] theorem State.writeLE_secVersion (k n v : Nat) : (s.writeLE k n v).secVersion = s.secVersion := rfl
@[simp] theorem State.writeLE_hostOut (k n v : Nat) : (s.writeLE k n v).hostOut = s.hostOut := rfl
@[simp] theorem State.writeLE_toolGuest (k n v : Nat) : (s.writeLE k n v).toolGuest = s.toolGuest := rfl
@[simp] theorem State.writeLE_guestOut (k n v : Nat) : (s.writeLE k n v).guestOut = s.guestOut := rfl
@[simp] theorem State.writeLE_ueOut (k n v : Nat) : (s.writeLE k n v).ueOut = s.ueOut := rfl

/-! ### bump -/

@[simp] theorem State.bump_now (c n k : Nat) : (s.bump c n k).now = s.now := by unfold State.bump; split <;> rfl
@[simp] theorem State.bump_clk (c n k : Nat) : (s.bump c n k).clk = s.clk := by unfold State.bump; split <;> rfl
@[simp] theorem State.bump_agenda (c n k : Nat) : (s.bump c n k).agenda = s.agenda := by unfold State.bump; split <;> rfl
@[simp] theorem State.bump_cur (c n k : Nat) : (s.bump c n k).cur = s.cur := by unfold State.bump; split <;> rfl
@[simp] theorem State.bump_lastOn (c n k : Nat) : (s.bump c n k).lastOn = s.lastOn := by unfold State.bump; split <;> rfl
@[simp] theorem State.bump_clkIssue (c n k : Nat) : (s.bump c n k).clkIssue = s.clkIssue := by unfold State.bump; split <;> rfl
@[simp] theorem State.bump_freeCount (c n k : Nat) : (s.bump c n k).freeCount = s.freeCount := by unfold State.bump; split <;> rfl
@[simp] theorem State.bump_nextId (c n k : Nat) : (s.bump c n k).nextId = s.nextId := by unfold State.bump; split <;> rfl
@[simp] theorem State.bump_mem (c n k : Nat) : (s.bump c n k).mem = s.mem := by unfold State.bump; split <;> rfl
@[simp] theorem State.bump_poisoned (c n k : Nat) : (s.bump c n k).poisoned = s.poisoned := by unfold State.bump; split <;> rfl
@[simp] theorem State.bump_l1 (c n k : Nat) : (s.bump c n k).l1 = s.l1 := by unfold State.bump; split <;> rfl
@[simp] theorem State.bump_l1pois (c n k : Nat) : (s.bump c n k).l1pois = s.l1pois := by unfold State.bump; split <;> rfl
@[simp] theorem State.bump_crypt (c n k : Nat) : (s.bump c n k).crypt = s.crypt := by unfold State.bump; split <;> rfl
@[simp] theorem State.bump_cfLines (c n k : Nat) : (s.bump c n k).cfLines = s.cfLines := by unfold State.bump; split <;> rfl
@[simp] theorem State.bump_regs (c n k : Nat) : (s.bump c n k).regs = s.regs := by unfold State.bump; split <;> rfl
@[simp] theorem State.bump_ctxs (c n k : Nat) : (s.bump c n k).ctxs = s.ctxs := by unfold State.bump; split <;> rfl
@[simp] theorem State.bump_groups (c n k : Nat) : (s.bump c n k).groups = s.groups := by unfold State.bump; split <;> rfl
@[simp] theorem State.bump_teams (c n k : Nat) : (s.bump c n k).teams = s.teams := by unfold State.bump; split <;> rfl
@[simp] theorem State.bump_grids (c n k : Nat) : (s.bump c n k).grids = s.grids := by unfold State.bump; split <;> rfl
@[simp] theorem State.bump_csHold (c n k : Nat) : (s.bump c n k).csHold = s.csHold := by unfold State.bump; split <;> rfl
@[simp] theorem State.bump_memops (c n k : Nat) : (s.bump c n k).memops = s.memops := by unfold State.bump; split <;> rfl
@[simp] theorem State.bump_sfuops (c n k : Nat) : (s.bump c n k).sfuops = s.sfuops := by unfold State.bump; split <;> rfl
@[simp] theorem State.bump_copies (c n k : Nat) : (s.bump c n k).copies = s.copies := by unfold State.bump; split <;> rfl
@[simp] theorem State.bump_matops (c n k : Nat) : (s.bump c n k).matops = s.matops := by unfold State.bump; split <;> rfl
@[simp] theorem State.bump_psq (c n k : Nat) : (s.bump c n k).psq = s.psq := by unfold State.bump; split <;> rfl
@[simp] theorem State.bump_moves (c n k : Nat) : (s.bump c n k).moves = s.moves := by unfold State.bump; split <;> rfl
@[simp] theorem State.bump_mtus (c n k : Nat) : (s.bump c n k).mtus = s.mtus := by unfold State.bump; split <;> rfl
@[simp] theorem State.bump_owned (c n k : Nat) : (s.bump c n k).owned = s.owned := by unfold State.bump; split <;> rfl
@[simp] theorem State.bump_notices (c n k : Nat) : (s.bump c n k).notices = s.notices := by unfold State.bump; split <;> rfl
@[simp] theorem State.bump_winWaits (c n k : Nat) : (s.bump c n k).winWaits = s.winWaits := by unfold State.bump; split <;> rfl
@[simp] theorem State.bump_killedGens (c n k : Nat) : (s.bump c n k).killedGens = s.killedGens := by unfold State.bump; split <;> rfl
@[simp] theorem State.bump_exports (c n k : Nat) : (s.bump c n k).exports = s.exports := by unfold State.bump; split <;> rfl
@[simp] theorem State.bump_slices (c n k : Nat) : (s.bump c n k).slices = s.slices := by unfold State.bump; split <;> rfl
@[simp] theorem State.bump_slicePend (c n k : Nat) : (s.bump c n k).slicePend = s.slicePend := by unfold State.bump; split <;> rfl
@[simp] theorem State.bump_sliceFwd (c n k : Nat) : (s.bump c n k).sliceFwd = s.sliceFwd := by unfold State.bump; split <;> rfl
@[simp] theorem State.bump_lent (c n k : Nat) : (s.bump c n k).lent = s.lent := by unfold State.bump; split <;> rfl
@[simp] theorem State.bump_recalling (c n k : Nat) : (s.bump c n k).recalling = s.recalling := by unfold State.bump; split <;> rfl
@[simp] theorem State.bump_ownerQ (c n k : Nat) : (s.bump c n k).ownerQ = s.ownerQ := by unfold State.bump; split <;> rfl
@[simp] theorem State.bump_fabDir (c n k : Nat) : (s.bump c n k).fabDir = s.fabDir := by unfold State.bump; split <;> rfl
@[simp] theorem State.bump_probes (c n k : Nat) : (s.bump c n k).probes = s.probes := by unfold State.bump; split <;> rfl
@[simp] theorem State.bump_probeHeld (c n k : Nat) : (s.bump c n k).probeHeld = s.probeHeld := by unfold State.bump; split <;> rfl
@[simp] theorem State.bump_out (c n k : Nat) : (s.bump c n k).out = s.out := by unfold State.bump; split <;> rfl
@[simp] theorem State.bump_held (c n k : Nat) : (s.bump c n k).held = s.held := by unfold State.bump; split <;> rfl
@[simp] theorem State.bump_orphans (c n k : Nat) : (s.bump c n k).orphans = s.orphans := by unfold State.bump; split <;> rfl
@[simp] theorem State.bump_portErrors (c n k : Nat) : (s.bump c n k).portErrors = s.portErrors := by unfold State.bump; split <;> rfl
@[simp] theorem State.bump_expGo (c n k : Nat) : (s.bump c n k).expGo = s.expGo := by unfold State.bump; split <;> rfl
@[simp] theorem State.bump_pcie (c n k : Nat) : (s.bump c n k).pcie = s.pcie := by unfold State.bump; split <;> rfl
@[simp] theorem State.bump_txTag (c n k : Nat) : (s.bump c n k).txTag = s.txTag := by unfold State.bump; split <;> rfl
@[simp] theorem State.bump_noCredit (c n k : Nat) : (s.bump c n k).noCredit = s.noCredit := by unfold State.bump; split <;> rfl
@[simp] theorem State.bump_portFail (c n k : Nat) : (s.bump c n k).portFail = s.portFail := by unfold State.bump; split <;> rfl
@[simp] theorem State.bump_tsync (c n k : Nat) : (s.bump c n k).tsync = s.tsync := by unfold State.bump; split <;> rfl
@[simp] theorem State.bump_tsyncAt (c n k : Nat) : (s.bump c n k).tsyncAt = s.tsyncAt := by unfold State.bump; split <;> rfl
@[simp] theorem State.bump_slew (c n k : Nat) : (s.bump c n k).slew = s.slew := by unfold State.bump; split <;> rfl
@[simp] theorem State.bump_carillon (c n k : Nat) : (s.bump c n k).carillon = s.carillon := by unfold State.bump; split <;> rfl
@[simp] theorem State.bump_notify (c n k : Nat) : (s.bump c n k).notify = s.notify := by unfold State.bump; split <;> rfl
@[simp] theorem State.bump_receives (c n k : Nat) : (s.bump c n k).receives = s.receives := by unfold State.bump; split <;> rfl
@[simp] theorem State.bump_handoffs (c n k : Nat) : (s.bump c n k).handoffs = s.handoffs := by unfold State.bump; split <;> rfl
@[simp] theorem State.bump_damper (c n k : Nat) : (s.bump c n k).damper = s.damper := by unfold State.bump; split <;> rfl
@[simp] theorem State.bump_saves (c n k : Nat) : (s.bump c n k).saves = s.saves := by unfold State.bump; split <;> rfl
@[simp] theorem State.bump_traces (c n k : Nat) : (s.bump c n k).traces = s.traces := by unfold State.bump; split <;> rfl
@[simp] theorem State.bump_tatAt (c n k : Nat) : (s.bump c n k).tatAt = s.tatAt := by unfold State.bump; split <;> rfl
@[simp] theorem State.bump_tatFree (c n k : Nat) : (s.bump c n k).tatFree = s.tatFree := by unfold State.bump; split <;> rfl
@[simp] theorem State.bump_tatClk (c n k : Nat) : (s.bump c n k).tatClk = s.tatClk := by unfold State.bump; split <;> rfl
@[simp] theorem State.bump_tatIndex (c n k : Nat) : (s.bump c n k).tatIndex = s.tatIndex := by unfold State.bump; split <;> rfl
@[simp] theorem State.bump_tatDrops (c n k : Nat) : (s.bump c n k).tatDrops = s.tatDrops := by unfold State.bump; split <;> rfl
@[simp] theorem State.bump_units (c n k : Nat) : (s.bump c n k).units = s.units := by unfold State.bump; split <;> rfl
@[simp] theorem State.bump_frozen (c n k : Nat) : (s.bump c n k).frozen = s.frozen := by unfold State.bump; split <;> rfl
@[simp] theorem State.bump_firmware (c n k : Nat) : (s.bump c n k).firmware = s.firmware := by unfold State.bump; split <;> rfl
@[simp] theorem State.bump_image (c n k : Nat) : (s.bump c n k).image = s.image := by unfold State.bump; split <;> rfl
@[simp] theorem State.bump_secVersion (c n k : Nat) : (s.bump c n k).secVersion = s.secVersion := by unfold State.bump; split <;> rfl
@[simp] theorem State.bump_hostOut (c n k : Nat) : (s.bump c n k).hostOut = s.hostOut := by unfold State.bump; split <;> rfl
@[simp] theorem State.bump_toolGuest (c n k : Nat) : (s.bump c n k).toolGuest = s.toolGuest := by unfold State.bump; split <;> rfl
@[simp] theorem State.bump_guestOut (c n k : Nat) : (s.bump c n k).guestOut = s.guestOut := by unfold State.bump; split <;> rfl
@[simp] theorem State.bump_ueOut (c n k : Nat) : (s.bump c n k).ueOut = s.ueOut := by unfold State.bump; split <;> rfl

/-! ### tracePut -/

@[simp] theorem State.tracePut_now (c : Nat) (r : BitVec 256) : (s.tracePut c r).now = s.now := rfl
@[simp] theorem State.tracePut_clk (c : Nat) (r : BitVec 256) : (s.tracePut c r).clk = s.clk := rfl
@[simp] theorem State.tracePut_agenda (c : Nat) (r : BitVec 256) : (s.tracePut c r).agenda = s.agenda := rfl
@[simp] theorem State.tracePut_cur (c : Nat) (r : BitVec 256) : (s.tracePut c r).cur = s.cur := rfl
@[simp] theorem State.tracePut_lastOn (c : Nat) (r : BitVec 256) : (s.tracePut c r).lastOn = s.lastOn := rfl
@[simp] theorem State.tracePut_clkIssue (c : Nat) (r : BitVec 256) : (s.tracePut c r).clkIssue = s.clkIssue := rfl
@[simp] theorem State.tracePut_freeCount (c : Nat) (r : BitVec 256) : (s.tracePut c r).freeCount = s.freeCount := rfl
@[simp] theorem State.tracePut_nextId (c : Nat) (r : BitVec 256) : (s.tracePut c r).nextId = s.nextId := rfl
@[simp] theorem State.tracePut_mem (c : Nat) (r : BitVec 256) : (s.tracePut c r).mem = s.mem := rfl
@[simp] theorem State.tracePut_poisoned (c : Nat) (r : BitVec 256) : (s.tracePut c r).poisoned = s.poisoned := rfl
@[simp] theorem State.tracePut_l1 (c : Nat) (r : BitVec 256) : (s.tracePut c r).l1 = s.l1 := rfl
@[simp] theorem State.tracePut_l1pois (c : Nat) (r : BitVec 256) : (s.tracePut c r).l1pois = s.l1pois := rfl
@[simp] theorem State.tracePut_crypt (c : Nat) (r : BitVec 256) : (s.tracePut c r).crypt = s.crypt := rfl
@[simp] theorem State.tracePut_cfLines (c : Nat) (r : BitVec 256) : (s.tracePut c r).cfLines = s.cfLines := rfl
@[simp] theorem State.tracePut_regs (c : Nat) (r : BitVec 256) : (s.tracePut c r).regs = s.regs := rfl
@[simp] theorem State.tracePut_ctxs (c : Nat) (r : BitVec 256) : (s.tracePut c r).ctxs = s.ctxs := rfl
@[simp] theorem State.tracePut_groups (c : Nat) (r : BitVec 256) : (s.tracePut c r).groups = s.groups := rfl
@[simp] theorem State.tracePut_teams (c : Nat) (r : BitVec 256) : (s.tracePut c r).teams = s.teams := rfl
@[simp] theorem State.tracePut_grids (c : Nat) (r : BitVec 256) : (s.tracePut c r).grids = s.grids := rfl
@[simp] theorem State.tracePut_cores (c : Nat) (r : BitVec 256) : (s.tracePut c r).cores = s.cores := rfl
@[simp] theorem State.tracePut_csHold (c : Nat) (r : BitVec 256) : (s.tracePut c r).csHold = s.csHold := rfl
@[simp] theorem State.tracePut_memops (c : Nat) (r : BitVec 256) : (s.tracePut c r).memops = s.memops := rfl
@[simp] theorem State.tracePut_sfuops (c : Nat) (r : BitVec 256) : (s.tracePut c r).sfuops = s.sfuops := rfl
@[simp] theorem State.tracePut_copies (c : Nat) (r : BitVec 256) : (s.tracePut c r).copies = s.copies := rfl
@[simp] theorem State.tracePut_matops (c : Nat) (r : BitVec 256) : (s.tracePut c r).matops = s.matops := rfl
@[simp] theorem State.tracePut_psq (c : Nat) (r : BitVec 256) : (s.tracePut c r).psq = s.psq := rfl
@[simp] theorem State.tracePut_moves (c : Nat) (r : BitVec 256) : (s.tracePut c r).moves = s.moves := rfl
@[simp] theorem State.tracePut_mtus (c : Nat) (r : BitVec 256) : (s.tracePut c r).mtus = s.mtus := rfl
@[simp] theorem State.tracePut_owned (c : Nat) (r : BitVec 256) : (s.tracePut c r).owned = s.owned := rfl
@[simp] theorem State.tracePut_notices (c : Nat) (r : BitVec 256) : (s.tracePut c r).notices = s.notices := rfl
@[simp] theorem State.tracePut_winWaits (c : Nat) (r : BitVec 256) : (s.tracePut c r).winWaits = s.winWaits := rfl
@[simp] theorem State.tracePut_killedGens (c : Nat) (r : BitVec 256) : (s.tracePut c r).killedGens = s.killedGens := rfl
@[simp] theorem State.tracePut_exports (c : Nat) (r : BitVec 256) : (s.tracePut c r).exports = s.exports := rfl
@[simp] theorem State.tracePut_slices (c : Nat) (r : BitVec 256) : (s.tracePut c r).slices = s.slices := rfl
@[simp] theorem State.tracePut_slicePend (c : Nat) (r : BitVec 256) : (s.tracePut c r).slicePend = s.slicePend := rfl
@[simp] theorem State.tracePut_sliceFwd (c : Nat) (r : BitVec 256) : (s.tracePut c r).sliceFwd = s.sliceFwd := rfl
@[simp] theorem State.tracePut_lent (c : Nat) (r : BitVec 256) : (s.tracePut c r).lent = s.lent := rfl
@[simp] theorem State.tracePut_recalling (c : Nat) (r : BitVec 256) : (s.tracePut c r).recalling = s.recalling := rfl
@[simp] theorem State.tracePut_ownerQ (c : Nat) (r : BitVec 256) : (s.tracePut c r).ownerQ = s.ownerQ := rfl
@[simp] theorem State.tracePut_fabDir (c : Nat) (r : BitVec 256) : (s.tracePut c r).fabDir = s.fabDir := rfl
@[simp] theorem State.tracePut_probes (c : Nat) (r : BitVec 256) : (s.tracePut c r).probes = s.probes := rfl
@[simp] theorem State.tracePut_probeHeld (c : Nat) (r : BitVec 256) : (s.tracePut c r).probeHeld = s.probeHeld := rfl
@[simp] theorem State.tracePut_out (c : Nat) (r : BitVec 256) : (s.tracePut c r).out = s.out := rfl
@[simp] theorem State.tracePut_held (c : Nat) (r : BitVec 256) : (s.tracePut c r).held = s.held := rfl
@[simp] theorem State.tracePut_orphans (c : Nat) (r : BitVec 256) : (s.tracePut c r).orphans = s.orphans := rfl
@[simp] theorem State.tracePut_portErrors (c : Nat) (r : BitVec 256) : (s.tracePut c r).portErrors = s.portErrors := rfl
@[simp] theorem State.tracePut_expGo (c : Nat) (r : BitVec 256) : (s.tracePut c r).expGo = s.expGo := rfl
@[simp] theorem State.tracePut_pcie (c : Nat) (r : BitVec 256) : (s.tracePut c r).pcie = s.pcie := rfl
@[simp] theorem State.tracePut_txTag (c : Nat) (r : BitVec 256) : (s.tracePut c r).txTag = s.txTag := rfl
@[simp] theorem State.tracePut_noCredit (c : Nat) (r : BitVec 256) : (s.tracePut c r).noCredit = s.noCredit := rfl
@[simp] theorem State.tracePut_portFail (c : Nat) (r : BitVec 256) : (s.tracePut c r).portFail = s.portFail := rfl
@[simp] theorem State.tracePut_tsync (c : Nat) (r : BitVec 256) : (s.tracePut c r).tsync = s.tsync := rfl
@[simp] theorem State.tracePut_tsyncAt (c : Nat) (r : BitVec 256) : (s.tracePut c r).tsyncAt = s.tsyncAt := rfl
@[simp] theorem State.tracePut_slew (c : Nat) (r : BitVec 256) : (s.tracePut c r).slew = s.slew := rfl
@[simp] theorem State.tracePut_carillon (c : Nat) (r : BitVec 256) : (s.tracePut c r).carillon = s.carillon := rfl
@[simp] theorem State.tracePut_notify (c : Nat) (r : BitVec 256) : (s.tracePut c r).notify = s.notify := rfl
@[simp] theorem State.tracePut_receives (c : Nat) (r : BitVec 256) : (s.tracePut c r).receives = s.receives := rfl
@[simp] theorem State.tracePut_handoffs (c : Nat) (r : BitVec 256) : (s.tracePut c r).handoffs = s.handoffs := rfl
@[simp] theorem State.tracePut_damper (c : Nat) (r : BitVec 256) : (s.tracePut c r).damper = s.damper := rfl
@[simp] theorem State.tracePut_saves (c : Nat) (r : BitVec 256) : (s.tracePut c r).saves = s.saves := rfl
@[simp] theorem State.tracePut_tatAt (c : Nat) (r : BitVec 256) : (s.tracePut c r).tatAt = s.tatAt := rfl
@[simp] theorem State.tracePut_tatFree (c : Nat) (r : BitVec 256) : (s.tracePut c r).tatFree = s.tatFree := rfl
@[simp] theorem State.tracePut_tatClk (c : Nat) (r : BitVec 256) : (s.tracePut c r).tatClk = s.tatClk := rfl
@[simp] theorem State.tracePut_tatIndex (c : Nat) (r : BitVec 256) : (s.tracePut c r).tatIndex = s.tatIndex := rfl
@[simp] theorem State.tracePut_tatDrops (c : Nat) (r : BitVec 256) : (s.tracePut c r).tatDrops = s.tatDrops := rfl
@[simp] theorem State.tracePut_units (c : Nat) (r : BitVec 256) : (s.tracePut c r).units = s.units := rfl
@[simp] theorem State.tracePut_frozen (c : Nat) (r : BitVec 256) : (s.tracePut c r).frozen = s.frozen := rfl
@[simp] theorem State.tracePut_firmware (c : Nat) (r : BitVec 256) : (s.tracePut c r).firmware = s.firmware := rfl
@[simp] theorem State.tracePut_image (c : Nat) (r : BitVec 256) : (s.tracePut c r).image = s.image := rfl
@[simp] theorem State.tracePut_secVersion (c : Nat) (r : BitVec 256) : (s.tracePut c r).secVersion = s.secVersion := rfl
@[simp] theorem State.tracePut_hostOut (c : Nat) (r : BitVec 256) : (s.tracePut c r).hostOut = s.hostOut := rfl
@[simp] theorem State.tracePut_toolGuest (c : Nat) (r : BitVec 256) : (s.tracePut c r).toolGuest = s.toolGuest := rfl
@[simp] theorem State.tracePut_guestOut (c : Nat) (r : BitVec 256) : (s.tracePut c r).guestOut = s.guestOut := rfl
@[simp] theorem State.tracePut_ueOut (c : Nat) (r : BitVec 256) : (s.tracePut c r).ueOut = s.ueOut := rfl

/-! ### modOp -/

@[simp] theorem State.modOp_now (k : Nat) (f : MemOp → MemOp) : (s.modOp k f).now = s.now := rfl
@[simp] theorem State.modOp_clk (k : Nat) (f : MemOp → MemOp) : (s.modOp k f).clk = s.clk := rfl
@[simp] theorem State.modOp_agenda (k : Nat) (f : MemOp → MemOp) : (s.modOp k f).agenda = s.agenda := rfl
@[simp] theorem State.modOp_cur (k : Nat) (f : MemOp → MemOp) : (s.modOp k f).cur = s.cur := rfl
@[simp] theorem State.modOp_lastOn (k : Nat) (f : MemOp → MemOp) : (s.modOp k f).lastOn = s.lastOn := rfl
@[simp] theorem State.modOp_clkIssue (k : Nat) (f : MemOp → MemOp) : (s.modOp k f).clkIssue = s.clkIssue := rfl
@[simp] theorem State.modOp_freeCount (k : Nat) (f : MemOp → MemOp) : (s.modOp k f).freeCount = s.freeCount := rfl
@[simp] theorem State.modOp_nextId (k : Nat) (f : MemOp → MemOp) : (s.modOp k f).nextId = s.nextId := rfl
@[simp] theorem State.modOp_mem (k : Nat) (f : MemOp → MemOp) : (s.modOp k f).mem = s.mem := rfl
@[simp] theorem State.modOp_poisoned (k : Nat) (f : MemOp → MemOp) : (s.modOp k f).poisoned = s.poisoned := rfl
@[simp] theorem State.modOp_l1 (k : Nat) (f : MemOp → MemOp) : (s.modOp k f).l1 = s.l1 := rfl
@[simp] theorem State.modOp_l1pois (k : Nat) (f : MemOp → MemOp) : (s.modOp k f).l1pois = s.l1pois := rfl
@[simp] theorem State.modOp_crypt (k : Nat) (f : MemOp → MemOp) : (s.modOp k f).crypt = s.crypt := rfl
@[simp] theorem State.modOp_cfLines (k : Nat) (f : MemOp → MemOp) : (s.modOp k f).cfLines = s.cfLines := rfl
@[simp] theorem State.modOp_regs (k : Nat) (f : MemOp → MemOp) : (s.modOp k f).regs = s.regs := rfl
@[simp] theorem State.modOp_ctxs (k : Nat) (f : MemOp → MemOp) : (s.modOp k f).ctxs = s.ctxs := rfl
@[simp] theorem State.modOp_groups (k : Nat) (f : MemOp → MemOp) : (s.modOp k f).groups = s.groups := rfl
@[simp] theorem State.modOp_teams (k : Nat) (f : MemOp → MemOp) : (s.modOp k f).teams = s.teams := rfl
@[simp] theorem State.modOp_grids (k : Nat) (f : MemOp → MemOp) : (s.modOp k f).grids = s.grids := rfl
@[simp] theorem State.modOp_cores (k : Nat) (f : MemOp → MemOp) : (s.modOp k f).cores = s.cores := rfl
@[simp] theorem State.modOp_csHold (k : Nat) (f : MemOp → MemOp) : (s.modOp k f).csHold = s.csHold := rfl
@[simp] theorem State.modOp_sfuops (k : Nat) (f : MemOp → MemOp) : (s.modOp k f).sfuops = s.sfuops := rfl
@[simp] theorem State.modOp_copies (k : Nat) (f : MemOp → MemOp) : (s.modOp k f).copies = s.copies := rfl
@[simp] theorem State.modOp_matops (k : Nat) (f : MemOp → MemOp) : (s.modOp k f).matops = s.matops := rfl
@[simp] theorem State.modOp_psq (k : Nat) (f : MemOp → MemOp) : (s.modOp k f).psq = s.psq := rfl
@[simp] theorem State.modOp_moves (k : Nat) (f : MemOp → MemOp) : (s.modOp k f).moves = s.moves := rfl
@[simp] theorem State.modOp_mtus (k : Nat) (f : MemOp → MemOp) : (s.modOp k f).mtus = s.mtus := rfl
@[simp] theorem State.modOp_owned (k : Nat) (f : MemOp → MemOp) : (s.modOp k f).owned = s.owned := rfl
@[simp] theorem State.modOp_notices (k : Nat) (f : MemOp → MemOp) : (s.modOp k f).notices = s.notices := rfl
@[simp] theorem State.modOp_winWaits (k : Nat) (f : MemOp → MemOp) : (s.modOp k f).winWaits = s.winWaits := rfl
@[simp] theorem State.modOp_killedGens (k : Nat) (f : MemOp → MemOp) : (s.modOp k f).killedGens = s.killedGens := rfl
@[simp] theorem State.modOp_exports (k : Nat) (f : MemOp → MemOp) : (s.modOp k f).exports = s.exports := rfl
@[simp] theorem State.modOp_slices (k : Nat) (f : MemOp → MemOp) : (s.modOp k f).slices = s.slices := rfl
@[simp] theorem State.modOp_slicePend (k : Nat) (f : MemOp → MemOp) : (s.modOp k f).slicePend = s.slicePend := rfl
@[simp] theorem State.modOp_sliceFwd (k : Nat) (f : MemOp → MemOp) : (s.modOp k f).sliceFwd = s.sliceFwd := rfl
@[simp] theorem State.modOp_lent (k : Nat) (f : MemOp → MemOp) : (s.modOp k f).lent = s.lent := rfl
@[simp] theorem State.modOp_recalling (k : Nat) (f : MemOp → MemOp) : (s.modOp k f).recalling = s.recalling := rfl
@[simp] theorem State.modOp_ownerQ (k : Nat) (f : MemOp → MemOp) : (s.modOp k f).ownerQ = s.ownerQ := rfl
@[simp] theorem State.modOp_fabDir (k : Nat) (f : MemOp → MemOp) : (s.modOp k f).fabDir = s.fabDir := rfl
@[simp] theorem State.modOp_probes (k : Nat) (f : MemOp → MemOp) : (s.modOp k f).probes = s.probes := rfl
@[simp] theorem State.modOp_probeHeld (k : Nat) (f : MemOp → MemOp) : (s.modOp k f).probeHeld = s.probeHeld := rfl
@[simp] theorem State.modOp_out (k : Nat) (f : MemOp → MemOp) : (s.modOp k f).out = s.out := rfl
@[simp] theorem State.modOp_held (k : Nat) (f : MemOp → MemOp) : (s.modOp k f).held = s.held := rfl
@[simp] theorem State.modOp_orphans (k : Nat) (f : MemOp → MemOp) : (s.modOp k f).orphans = s.orphans := rfl
@[simp] theorem State.modOp_portErrors (k : Nat) (f : MemOp → MemOp) : (s.modOp k f).portErrors = s.portErrors := rfl
@[simp] theorem State.modOp_expGo (k : Nat) (f : MemOp → MemOp) : (s.modOp k f).expGo = s.expGo := rfl
@[simp] theorem State.modOp_pcie (k : Nat) (f : MemOp → MemOp) : (s.modOp k f).pcie = s.pcie := rfl
@[simp] theorem State.modOp_txTag (k : Nat) (f : MemOp → MemOp) : (s.modOp k f).txTag = s.txTag := rfl
@[simp] theorem State.modOp_noCredit (k : Nat) (f : MemOp → MemOp) : (s.modOp k f).noCredit = s.noCredit := rfl
@[simp] theorem State.modOp_portFail (k : Nat) (f : MemOp → MemOp) : (s.modOp k f).portFail = s.portFail := rfl
@[simp] theorem State.modOp_tsync (k : Nat) (f : MemOp → MemOp) : (s.modOp k f).tsync = s.tsync := rfl
@[simp] theorem State.modOp_tsyncAt (k : Nat) (f : MemOp → MemOp) : (s.modOp k f).tsyncAt = s.tsyncAt := rfl
@[simp] theorem State.modOp_slew (k : Nat) (f : MemOp → MemOp) : (s.modOp k f).slew = s.slew := rfl
@[simp] theorem State.modOp_carillon (k : Nat) (f : MemOp → MemOp) : (s.modOp k f).carillon = s.carillon := rfl
@[simp] theorem State.modOp_notify (k : Nat) (f : MemOp → MemOp) : (s.modOp k f).notify = s.notify := rfl
@[simp] theorem State.modOp_receives (k : Nat) (f : MemOp → MemOp) : (s.modOp k f).receives = s.receives := rfl
@[simp] theorem State.modOp_handoffs (k : Nat) (f : MemOp → MemOp) : (s.modOp k f).handoffs = s.handoffs := rfl
@[simp] theorem State.modOp_damper (k : Nat) (f : MemOp → MemOp) : (s.modOp k f).damper = s.damper := rfl
@[simp] theorem State.modOp_saves (k : Nat) (f : MemOp → MemOp) : (s.modOp k f).saves = s.saves := rfl
@[simp] theorem State.modOp_traces (k : Nat) (f : MemOp → MemOp) : (s.modOp k f).traces = s.traces := rfl
@[simp] theorem State.modOp_tatAt (k : Nat) (f : MemOp → MemOp) : (s.modOp k f).tatAt = s.tatAt := rfl
@[simp] theorem State.modOp_tatFree (k : Nat) (f : MemOp → MemOp) : (s.modOp k f).tatFree = s.tatFree := rfl
@[simp] theorem State.modOp_tatClk (k : Nat) (f : MemOp → MemOp) : (s.modOp k f).tatClk = s.tatClk := rfl
@[simp] theorem State.modOp_tatIndex (k : Nat) (f : MemOp → MemOp) : (s.modOp k f).tatIndex = s.tatIndex := rfl
@[simp] theorem State.modOp_tatDrops (k : Nat) (f : MemOp → MemOp) : (s.modOp k f).tatDrops = s.tatDrops := rfl
@[simp] theorem State.modOp_units (k : Nat) (f : MemOp → MemOp) : (s.modOp k f).units = s.units := rfl
@[simp] theorem State.modOp_frozen (k : Nat) (f : MemOp → MemOp) : (s.modOp k f).frozen = s.frozen := rfl
@[simp] theorem State.modOp_firmware (k : Nat) (f : MemOp → MemOp) : (s.modOp k f).firmware = s.firmware := rfl
@[simp] theorem State.modOp_image (k : Nat) (f : MemOp → MemOp) : (s.modOp k f).image = s.image := rfl
@[simp] theorem State.modOp_secVersion (k : Nat) (f : MemOp → MemOp) : (s.modOp k f).secVersion = s.secVersion := rfl
@[simp] theorem State.modOp_hostOut (k : Nat) (f : MemOp → MemOp) : (s.modOp k f).hostOut = s.hostOut := rfl
@[simp] theorem State.modOp_toolGuest (k : Nat) (f : MemOp → MemOp) : (s.modOp k f).toolGuest = s.toolGuest := rfl
@[simp] theorem State.modOp_guestOut (k : Nat) (f : MemOp → MemOp) : (s.modOp k f).guestOut = s.guestOut := rfl
@[simp] theorem State.modOp_ueOut (k : Nat) (f : MemOp → MemOp) : (s.modOp k f).ueOut = s.ueOut := rfl

end Sys2Proof.Machine
end

