-- ==== Sys2Proof/Laws/Issue.lean ====
section
/-!
SUPPORT. What the shared operations of issue can do: the gate of operands, retiring, waiting and stopping, each said once.
-/
namespace Sys2Proof.Machine

/-! ### The gate -/

theorem firstTrap_none (g : Group) (act : BitVec 64) (os : List (Opd × Bool))
    (h : ∀ o ∈ os, o.1.isFull g = true) : firstTrap g act os = none := by
  induction os with
  | nil => rfl
  | cons o os ih =>
    obtain ⟨o, t⟩ := o
    have := h (o, t) (by simp)
    simp only at this
    simp [firstTrap, this]
    exact ih fun p hp => h p (by simp [hp])

/-- Nothing holds back an instruction whose operands and guard are full (R193, R194). -/
theorem gate_ok {g : Group} {x : Pfx} {lane : Bool} {srcs : List (Opd × Bool)} {dsts : List Opd}
    (h : Ready g x (srcs.map (·.1) ++ dsts)) : gate g x lane srcs dsts = .ok () := by
  obtain ⟨hp, h⟩ := h
  have hs : ∀ o ∈ srcs, o.1.isFull g = true := fun o ho => h o.1 (by simp only [List.mem_append, List.mem_map]; exact Or.inl ⟨o, ho, rfl⟩)
  have hd : ∀ o ∈ dsts, o.isFull g = true := fun o ho => h o (by simp [ho])
  unfold gate
  rw [if_neg (by simp [hp]), firstTrap_none _ _ _ hs]
  simp only
  rw [if_pos]
  simp only [Bool.and_eq_true, List.all_eq_true]
  exact ⟨hs, hd⟩

/-! ### Retiring -/

@[simp] theorem State.group_setGroup (s : State) (g : Group) : (s.setGroup g).group g.core g.slot = some g := by
  simp [State.group, State.setGroup]

theorem State.find_setGroup (s : State) (g : Group) {k : Nat} (h : k ≠ gkey g.core g.slot) :
    Tab.find (s.setGroup g).groups k = Tab.find s.groups k := by
  simp [State.setGroup, Tab.find_put_other, h]

theorem State.trace_eq (s : State) (g : Group) (cls typ : Nat) (pc : BitVec 64) (seq : BitVec 32) (p : Nat) :
    s.trace g cls typ pc seq p = { s with traces := (s.trace g cls typ pc seq p).traces } := by
  unfold State.trace; split <;> rfl

theorem State.waitEnd_eq (s : State) (g : Group) : s.waitEnd g = { s with traces := (s.waitEnd g).traces } := by
  unfold State.waitEnd
  split
  · exact s.trace_eq ..
  · rfl

theorem State.bump_eq (s : State) (c n k : Nat) : s.bump c n k = { s with cores := (s.bump c n k).cores } := by
  unfold State.bump; split <;> rfl

/-- Counting changes only the counters of a core. -/
theorem State.core_bump (s : State) (c n k j : Nat) :
    (s.bump c n k).core j = { s.core j with counters := ((s.bump c n k).core j).counters } := by
  unfold State.bump
  split
  · rfl
  · by_cases h : j = c
    · subst h; simp [State.core, State.setCore]
    · simp [State.core, State.setCore, Tab.get_set_other, h]

@[simp] theorem State.trace_groups (s : State) (g : Group) (cls typ : Nat) (pc : BitVec 64) (seq : BitVec 32) (p : Nat) :
    (s.trace g cls typ pc seq p).groups = s.groups := by rw [s.trace_eq]

@[simp] theorem State.trace_cores (s : State) (g : Group) (cls typ : Nat) (pc : BitVec 64) (seq : BitVec 32) (p : Nat) :
    (s.trace g cls typ pc seq p).cores = s.cores := by rw [s.trace_eq]

@[simp] theorem State.waitEnd_groups (s : State) (g : Group) : (s.waitEnd g).groups = s.groups := by rw [s.waitEnd_eq]

@[simp] theorem State.waitEnd_cores (s : State) (g : Group) : (s.waitEnd g).cores = s.cores := by rw [s.waitEnd_eq]

/-- The steps of retiring, in order. -/
def State.retireSteps (s : State) (c : Code) (before h : Group) : State :=
  let s := (s.waitEnd before).setGroup h
  let s := s.bump h.core 0x001 1
  let s := s.bump h.core 0x00E (zeroReads c before)
  let s := if isEngineCommand c.major.toNat c.fnNat && c.major.toNat != 0x32
    then s.trace h 1 2 before.pc before.seqNo (c.major.toNat + c.fnNat * 64) else s
  if clearsRepl c.major.toNat c.fnNat then s.modTeam h.team fun t => { t with repl := false } else s

theorem State.retire_eq (s : State) (g h : Group) (c : Code) (pc : Option (BitVec 64)) :
    State.retire { s := s, g := h, pc := pc } c g = (s.tokenAcquire c g).retireSteps c g (retired g h c pc s.clk) := by
  unfold State.retire State.retireSteps retired moreReps
  cases pc <;> simp

/-- An acquire at T that the reading of a token is leaves all but L1 copies and the marks of awaited entries. -/
theorem State.tokenAcquire_eq (s : State) (c : Code) (g : Group) :
    s.tokenAcquire c g = { s with
      l1 := (s.tokenAcquire c g).l1, l1pois := (s.tokenAcquire c g).l1pois, memops := (s.tokenAcquire c g).memops } := by
  unfold State.tokenAcquire State.acquireT State.l1Drop State.entriesOld
  (repeat' split) <;> rfl

@[simp] theorem State.tokenAcquire_groups (s : State) (c : Code) (g : Group) : (s.tokenAcquire c g).groups = s.groups := by
  rw [s.tokenAcquire_eq]

@[simp] theorem State.tokenAcquire_teams (s : State) (c : Code) (g : Group) : (s.tokenAcquire c g).teams = s.teams := by
  rw [s.tokenAcquire_eq]

@[simp] theorem State.tokenAcquire_core (s : State) (c : Code) (g : Group) (k : Nat) :
    (s.tokenAcquire c g).core k = s.core k := by rw [s.tokenAcquire_eq]; rfl

theorem State.retireSteps_groups (s : State) (c : Code) (b h : Group) :
    (s.retireSteps c b h).groups = Tab.put s.groups (gkey h.core h.slot) h := by
  unfold State.retireSteps
  simp only
  split <;> split <;> simp [State.setGroup]

/-- State t is state s but for groups, counters, traces and teams. -/
def Beside (s t : State) : Prop :=
  t = { s with groups := t.groups, cores := t.cores, traces := t.traces, teams := t.teams }

theorem Beside.trans {a b c : State} (h : Beside a b) (k : Beside b c) : Beside a c :=
  Eq.trans k (congrArg (fun x : State => { x with
    groups := c.groups, cores := c.cores, traces := c.traces, teams := c.teams }) h)

theorem State.beside_trace (s : State) (g : Group) (cls typ : Nat) (pc : BitVec 64) (seq : BitVec 32) (p : Nat) :
    Beside s (s.trace g cls typ pc seq p) := by unfold State.trace; split <;> rfl

theorem State.beside_waitEnd (s : State) (g : Group) : Beside s (s.waitEnd g) := by
  unfold State.waitEnd
  split
  · exact s.beside_trace ..
  · rfl

theorem State.beside_bump (s : State) (c n k : Nat) : Beside s (s.bump c n k) := by
  unfold State.bump; split <;> rfl

theorem State.beside_setGroup (s : State) (g : Group) : Beside s (s.setGroup g) := rfl

theorem State.beside_modTeam (s : State) (k : Nat) (f : Team → Team) : Beside s (s.modTeam k f) := rfl

theorem State.retireSteps_rest (s : State) (c : Code) (b h : Group) : Beside s (s.retireSteps c b h) := by
  unfold State.retireSteps
  simp only
  have e := (((s.beside_waitEnd b).trans (State.beside_setGroup _ h)).trans (State.beside_bump _ h.core 0x001 1)).trans
    (State.beside_bump _ h.core 0x00E (zeroReads c b))
  split <;> split
  · exact (e.trans (State.beside_trace ..)).trans (State.beside_modTeam ..)
  · exact e.trans (State.beside_modTeam ..)
  · exact e.trans (State.beside_trace ..)
  · exact e

theorem State.retireSteps_core (s : State) (c : Code) (b h : Group) (k : Nat) :
    (s.retireSteps c b h).core k = { s.core k with counters := ((s.retireSteps c b h).core k).counters } := by
  have e : ∃ u : State, (s.retireSteps c b h).core k = ((u.bump h.core 0x001 1).bump h.core 0x00E (zeroReads c b)).core k
      ∧ u.core k = s.core k := by
    refine ⟨(s.waitEnd b).setGroup h, ?_, ?_⟩
    · unfold State.retireSteps
      simp only
      split <;> split <;> simp [State.core]
    · simp [State.core]
  obtain ⟨u, e, f⟩ := e
  rw [e, State.core_bump, State.core_bump, f]

theorem State.retireSteps_teams (s : State) (c : Code) (b h : Group) :
    (s.retireSteps c b h).teams = if clearsRepl c.major.toNat c.fnNat
      then Tab.modify s.teams h.team fun m => { m with repl := false } else s.teams := by
  have w : (s.waitEnd b).teams = s.teams := by rw [s.waitEnd_eq]
  unfold State.retireSteps
  simp only
  have tr : ∀ (u : State) a b c d e f, (u.trace a b c d e f).teams = u.teams := fun u a b c d e f => by
    rw [u.trace_eq]
  split <;> split <;> simp [State.modTeam, w, tr]

/-- Retiring does what `Retires` says. -/
theorem State.retire_retires (s : State) {g h : Group} (c : Code) (pc : Option (BitVec 64))
    (hc : h.core = g.core) (hs : h.slot = g.slot) :
    Retires s (State.retire { s := s, g := h, pc := pc } c g) g h c pc := by
  rw [State.retire_eq]
  have hg : (retired g h c pc s.clk).core = g.core ∧ (retired g h c pc s.clk).slot = g.slot := ⟨hc, hs⟩
  have ht : (retired g h c pc s.clk).team = h.team := rfl
  generalize hr : retired g h c pc s.clk = r at hg ht
  constructor
  · simp [State.group, State.retireSteps_groups, hg, hr]
  · intro k hk
    rw [State.retireSteps_groups, hg.1, hg.2, Tab.find_put_other _ _ hk, State.tokenAcquire_groups]
  · intro k
    have e := (s.tokenAcquire c g).retireSteps_core c g r k
    rwa [State.tokenAcquire_core] at e
  · rw [State.retireSteps_teams, ht, State.tokenAcquire_teams]
  · exact (s.tokenAcquire c g).retireSteps_rest c g r

/-- An instruction whose own part answers a state and group completes. -/
theorem issueWith_ok {i : Instr} {c : Code} {s s' : State} {g h : Group} {pc : Option (BitVec 64)}
    {limit : State → Group → Bool} {body : State → Group → Run Done} (hi : Issues i c s g) (hl : limit s g = false)
    (hb : body s g = .ok { s := s', g := h, pc := pc }) (hc : h.core = g.core) (hs : h.slot = g.slot) :
    ∃ t, issueWith i limit body s = .next t ∧ Retires s' t g h c pc := by
  obtain ⟨h1, h2, h3, h4, h5, h6⟩ := hi
  refine ⟨State.retire { s := s', g := h, pc := pc } c g, ?_, s'.retire_retires c pc hc hs⟩
  unfold issueWith
  cases ht : s.team g.team <;> simp only [tregsOf, ht] at h6 <;> simp [h1, h2, h3, h4, h5, h6, hl, hb, ht]

/-- Instructions that change their group alone. -/
theorem issueG_ok {i : Instr} {c : Code} {s : State} {g h : Group} {body : Group → Run Group} (hi : Issues i c s g)
    (hb : body g = .ok h) (hc : h.core = g.core) (hs : h.slot = g.slot) :
    ∃ t, issueG i body s = .next t ∧ Retires s t g h c none :=
  issueWith_ok hi rfl (by simp [hb, Except.map]) hc hs

/-- Instructions that change the state and their group. -/
theorem issueS_ok {i : Instr} {c : Code} {s s' : State} {g h : Group} {limit : State → Group → Bool}
    {body : State → Group → Run (State × Group)} (hi : Issues i c s g) (hl : limit s g = false)
    (hb : body s g = .ok (s', h)) (hc : h.core = g.core) (hs : h.slot = g.slot) :
    ∃ t, issueS i limit body s = .next t ∧ Retires s' t g h c none :=
  issueWith_ok hi hl (by simp [hb, Except.map]) hc hs

/-- Control transfers. -/
theorem issueJ_ok {i : Instr} {c : Code} {s : State} {g h : Group} {pc : Option (BitVec 64)}
    {body : Group → Run (Group × Option (BitVec 64))} (hi : Issues i c s g) (hb : body g = .ok (h, pc))
    (hc : h.core = g.core) (hs : h.slot = g.slot) : ∃ t, issueJ i body s = .next t ∧ Retires s t g h c pc :=
  issueWith_ok hi rfl (by simp [hb, Except.map]) hc hs

/-! ### Waiting and stopping -/

/-- An instruction whose own part answers a halt settles it. -/
theorem issueWith_halt {i : Instr} {c : Code} {s : State} {g : Group} {limit : State → Group → Bool}
    {body : State → Group → Run Done} {x : Halt} (hi : Issues i c s g) (hl : limit s g = false)
    (hb : body s g = .error x) : issueWith i limit body s = .next (s.settle g c.word x) := by
  obtain ⟨h1, h2, h3, h4, h5, h6⟩ := hi
  unfold issueWith
  cases ht : s.team g.team <;> simp only [tregsOf, ht] at h6 <;> simp [h1, h2, h3, h4, h5, h6, hl, hb, ht]

/-- Parking a group writes its entry and the trace buffers, nothing else. -/
theorem State.waitGroup_eq (s : State) (g : Group) (site : Option (BitVec 3 × BitVec 16)) :
    ∃ tr, s.waitGroup g site =
      { s.setGroup ({ g with waiting := true, waitsIn := site }.recount g s.clk) with traces := tr } := by
  obtain ⟨a, ha⟩ : ∃ tr, (if g.waitsIn = site then s else s.waitEnd g) = { s with traces := tr } := by
    split
    · exact ⟨s.traces, rfl⟩
    · exact ⟨_, s.waitEnd_eq g⟩
  unfold State.waitGroup
  simp only [ha]
  cases site with
  | none => exact ⟨a, rfl⟩
  | some k =>
    dsimp only
    split
    · exact ⟨a, rfl⟩
    · exact ⟨_, State.trace_eq ..⟩

theorem State.waitGroup_waits (s : State) (g : Group) (site : Option (BitVec 3 × BitVec 16)) (b : Bool) :
    Waits s (s.waitGroup { g with onEmpty := b } site) g := by
  obtain ⟨tr, h⟩ := s.waitGroup_eq { g with onEmpty := b } site
  rw [h]
  refine ⟨⟨b, site, ?_⟩, fun j hj => ?_, rfl⟩
  · exact Tab.find_put_same _ _ _
  · exact Tab.find_put_other _ _ hj

/-- A state with other groups. -/
def State.withGroups (s : State) (x : Tab Group) : State := { s with groups := x }

theorem State.ite_withGroups (c : Prop) [Decidable c] (a b : State) (x : Tab Group) :
    (if c then a else b).withGroups x = if c then a.withGroups x else b.withGroups x := by split <;> rfl

section withGroups
variable (s : State) (x : Tab Group)

theorem State.withGroups_now : (s.withGroups x).now = s.now := rfl
theorem State.withGroups_reg (o : Nat) : (s.withGroups x).reg o = s.reg o := rfl
theorem State.withGroups_mtu (d : Nat) : (s.withGroups x).mtu d = s.mtu d := rfl
theorem State.withGroups_fqFull (d : Nat) : (s.withGroups x).fqFull d = s.fqFull d := rfl
theorem State.withGroups_setReg (o : Nat) (v : BitVec 64) :
    (s.withGroups x).setReg o v = (s.setReg o v).withGroups x := rfl
theorem State.withGroups_setMtu (d : Nat) (m : Mtu) : (s.withGroups x).setMtu d m = (s.setMtu d m).withGroups x := rfl
theorem State.withGroups_writeLE (k n v : Nat) :
    (s.withGroups x).writeLE k n v = (s.writeLE k n v).withGroups x := rfl

theorem State.withGroups_fqWrite (d : Nat) (r : BitVec 256) :
    (s.withGroups x).fqWrite d r = (s.fqWrite d r).withGroups x := by
  unfold State.fqWrite
  simp only [State.withGroups_reg, State.withGroups_writeLE, State.withGroups_setReg]

theorem State.withGroups_queueRecord (d : Nat) (r : BitVec 256) :
    (s.withGroups x).queueRecord d r = (s.queueRecord d r).withGroups x := by
  unfold State.queueRecord
  simp only [State.withGroups_mtu, State.withGroups_setMtu, State.withGroups_fqFull, State.withGroups_reg,
    State.withGroups_setReg, State.withGroups_fqWrite, State.ite_withGroups]
  rfl

theorem State.withGroups_readLE (k n : Nat) : (s.withGroups x).readLE k n = s.readLE k n := by
  induction n generalizing k with
  | zero => rfl
  | succ n ih => unfold State.readLE; rw [ih]; rfl

theorem State.withGroups_fqRecord (d i : Nat) : (s.withGroups x).fqRecord d i = s.fqRecord d i := by
  unfold State.fqRecord
  rw [State.withGroups_reg, State.withGroups_readLE]

theorem State.withGroups_unqueue (d : Nat) :
    (s.withGroups x).unqueue d = (s.unqueue d).map fun p => (p.1.withGroups x, p.2) := by
  unfold State.unqueue
  simp only [State.withGroups_mtu, State.withGroups_reg, State.withGroups_fqRecord]
  split
  · rfl
  · rfl
  · by_cases h : fld (s.reg (mtuReg d 48)) 0 20 = fld (s.reg (mtuReg d 40)) 0 20
    · rw [if_pos h, if_pos h, Option.map_none]
    · rw [if_neg h, if_neg h, Option.map_some, State.withGroups_setReg]

end withGroups

theorem State.withGroups_queueAhead (s : State) (x : Tab Group) (d : Nat) (r : BitVec 256) (n : Nat) :
    State.queueAhead d r n (s.withGroups x) = (State.queueAhead d r n s).withGroups x := by
  induction n generalizing s with
  | zero => exact s.withGroups_queueRecord x d r
  | succ n ih =>
    unfold State.queueAhead
    rw [State.withGroups_unqueue]
    cases s.unqueue d with
    | none => exact s.withGroups_queueRecord x d r
    | some p => exact (congrArg (fun u : State => u.queueRecord d p.2) (ih p.1)).trans (State.withGroups_queueRecord _ x d p.2)

theorem State.withGroups_queueNow (s : State) (x : Tab Group) (d : Nat) (r : BitVec 256) :
    (s.withGroups x).queueNow d r = (s.queueNow d r).withGroups x := by
  unfold State.queueNow
  simp only [State.withGroups_mtu, State.withGroups_now, State.withGroups_queueAhead, State.withGroups_setMtu]
  rfl

/-- Reporting a record reads no group. -/
theorem State.withGroups_emit (s : State) (x : Tab Group) (d : Nat) (r : BitVec 256) :
    (s.withGroups x).emit d r = (s.emit d r).withGroups x := by
  obtain ⟨u, hu⟩ : ∃ u, u = s.setMtu d { s.mtu d with records := (s.mtu d).records + 1 } := ⟨_, rfl⟩
  have e : (s.withGroups x).setMtu d { (s.withGroups x).mtu d with records := ((s.withGroups x).mtu d).records + 1 } =
      u.withGroups x := by rw [hu]; rfl
  unfold State.emit
  simp only [e, ← hu]
  have f : ((u.withGroups x).fenceBefore d (u.withGroups x).now.toNat (recordSource d r)) =
      u.fenceBefore d u.now.toNat (recordSource d r) := rfl
  rw [f, u.withGroups_queueNow x d r]
  split
  · rfl
  · rfl

/-- State t is state s but for a die's queue: what an MTU holds, its registers and storage. -/
def BesideQueue (s t : State) : Prop :=
  t = { s with mtus := t.mtus, regs := t.regs, mem := t.mem, poisoned := t.poisoned }

theorem BesideQueue.trans {a b c : State} (h : BesideQueue a b) (k : BesideQueue b c) : BesideQueue a c :=
  Eq.trans k (congrArg (fun y : State => { y with mtus := c.mtus, regs := c.regs, mem := c.mem, poisoned := c.poisoned }) h)

theorem State.beside_fqWrite (s : State) (d : Nat) (r : BitVec 256) : BesideQueue s (s.fqWrite d r) := by
  unfold BesideQueue State.fqWrite State.writeLE State.setReg
  with_reducible rfl

theorem State.beside_setMtu (s : State) (d : Nat) (m : Mtu) : BesideQueue s (s.setMtu d m) := by
  unfold BesideQueue State.setMtu
  with_reducible rfl

theorem State.beside_setReg (s : State) (o : Nat) (v : BitVec 64) : BesideQueue s (s.setReg o v) := by
  unfold BesideQueue State.setReg
  with_reducible rfl

theorem State.beside_queueRecord (s : State) (d : Nat) (r : BitVec 256) : BesideQueue s (s.queueRecord d r) := by
  unfold State.queueRecord
  dsimp only
  split
  · exact s.beside_fqWrite d r
  · split <;> exact (s.beside_setReg _ _).trans (State.beside_setMtu ..)

theorem State.beside_unqueue (s : State) (d : Nat) {p : State × BitVec 256} (h : s.unqueue d = some p) :
    BesideQueue s p.1 := by
  unfold State.unqueue at h
  dsimp only at h
  split at h
  · exact Option.some.inj h ▸ s.beside_setMtu ..
  · exact Option.some.inj h ▸ s.beside_setMtu ..
  · split at h
    · exact nomatch h
    · exact Option.some.inj h ▸ s.beside_setReg ..

theorem State.beside_queueAhead (s : State) (d : Nat) (r : BitVec 256) (n : Nat) :
    BesideQueue s (State.queueAhead d r n s) := by
  induction n generalizing s with
  | zero => exact s.beside_queueRecord d r
  | succ n ih =>
    unfold State.queueAhead
    cases h : s.unqueue d with
    | none => exact s.beside_queueRecord d r
    | some p => exact ((s.beside_unqueue d h).trans (ih p.1)).trans (State.beside_queueRecord ..)

/-- Reporting a record changes nothing but a die's queue (R41, R253). -/
theorem State.beside_emit (s : State) (d : Nat) (r : BitVec 256) : BesideQueue s (s.emit d r) := by
  unfold State.emit State.queueNow
  dsimp only
  split
  · exact (s.beside_setMtu ..).trans (State.beside_setMtu ..)
  · exact ((s.beside_setMtu ..).trans (State.beside_queueAhead ..)).trans (State.beside_setMtu ..)

theorem State.emit_groups (s : State) (die : Nat) (r : BitVec 256) : (s.emit die r).groups = s.groups := by
  rw [s.beside_emit die r]

theorem State.emit_cores (s : State) (die : Nat) (r : BitVec 256) : (s.emit die r).cores = s.cores := by
  rw [s.beside_emit die r]

theorem State.emit_clk (s : State) (die : Nat) (r : BitVec 256) : (s.emit die r).clk = s.clk := by
  rw [s.beside_emit die r]

/-- Stopping precisely does what `Stops` says (R227, R230). -/
theorem State.stopPrecise_stops (s : State) (g : Group) (die cause : Nat) (d0 mask : BitVec 64) (access : Nat) :
    Stops s (s.stopPrecise g die cause d0 mask access) g die cause d0 mask access := by
  obtain ⟨r, hr⟩ : ∃ r, r = record0 d0 mask g.pc access cause g.seqNo g.asid g.core g.slot := ⟨_, rfl⟩
  obtain ⟨w, hw⟩ : ∃ w : Group, w = { g with
    stop := some ⟨BitVec.ofNat 8 cause, .precise, mask, []⟩
    waiting := false, waitsIn := none, reissue := none, growSince := none, lastRetire := g.wdCount s.clk } := ⟨_, rfl⟩
  have hc : w.core = g.core ∧ w.slot = g.slot := by subst hw; exact ⟨rfl, rfl⟩
  obtain ⟨u, hu⟩ : ∃ u : State, u = { s.emit die r with groups := (s.setGroup w).groups } := ⟨_, rfl⟩
  have hg : u.groups = (s.setGroup w).groups := by rw [hu]
  have hk : ∀ k, u.core k = s.core k := by intro k; rw [hu, State.core, State.core]; exact congrArg (Tab.get _ · k) (s.emit_cores die r)
  obtain ⟨b, hb⟩ : ∃ b, b = if BitVec.ofNat 8 cause = 0x20 then u.bump g.core 0x011 1 else u := ⟨_, rfl⟩
  have bg : b.groups = u.groups := by rw [hb]; split <;> simp
  have bc : ∀ k, b.core k = { u.core k with counters := (b.core k).counters } := by
    intro k; rw [hb]; split
    · exact u.core_bump ..
    · rfl
  have br : b = { u with groups := b.groups, cores := b.cores } := by
    rw [hb]; split
    · unfold State.bump; split <;> rfl
    · rfl
  obtain ⟨v, hv⟩ : ∃ v, v = b.waitEnd g := ⟨_, rfl⟩
  have vr : v = { b with traces := v.traces } := by rw [hv]; exact b.waitEnd_eq g
  have e : s.stopPrecise g die cause d0 mask access = v.trace g 4 6 g.pc g.seqNo (BitVec.ofNat 8 cause).toNat := by
    have hs : u = (s.emit die r).setGroup w := by rw [hu, State.setGroup, State.setGroup, s.emit_groups]
    rw [hv, hb, hs, hw, hr]
    simp only [State.stopPrecise, State.stopGroup, State.parkGroup, State.emit_clk]
  obtain ⟨x, hx⟩ : ∃ x, x = v.trace g 4 6 g.pc g.seqNo (BitVec.ofNat 8 cause).toNat := ⟨_, rfl⟩
  have xr : x = { b with traces := x.traces } := by
    have t1 : x = { v with traces := x.traces } := by rw [hx]; exact v.trace_eq ..
    exact t1.trans (congrArg (fun y : State => { y with traces := x.traces }) vr)
  have xg : x.groups = (s.setGroup w).groups := by rw [xr]; exact bg.trans hg
  rw [e, ← hx]
  constructor
  · rw [State.group, xg, ← hw, State.setGroup, hc.1, hc.2]; simp
  · intro k h
    rw [xg, State.setGroup, hc.1, hc.2, Tab.find_put_other _ _ h]
  · intro k
    have : x.core k = b.core k := by rw [xr]; rfl
    rw [this, bc k, hk k]
  · rw [← hr]
    refine xr.trans (Eq.trans (congrArg (fun y : State => { y with traces := x.traces }) br) ?_)
    rw [hu, xr]

end Sys2Proof.Machine
end

