-- ==== Sys2Proof/Laws/Memory.lean ====
section
/-!
SUPPORT. Storage: what a read gives after a write, what a write leaves alone, and that every write keeps the canonical
form of the listed bytes.
-/
namespace Sys2Proof.Machine

/-- A byte after n bytes were written at k. -/
theorem get_writeCells (m : List Host.Cell) (k n v j : Nat) :
    Tab.get 0 (writeCells m k n v) j =
      if k ≤ j ∧ j < k + n then BitVec.ofNat 8 (v / 256 ^ (j - k)) else Tab.get 0 m j := by
  induction n generalizing m k v with
  | zero => simp only [writeCells]; rw [if_neg (by omega)]
  | succ n ih =>
    simp only [writeCells]
    rw [ih]
    by_cases h : k + 1 ≤ j ∧ j < k + 1 + n
    · rw [if_pos h, if_pos (by omega)]
      obtain ⟨i, rfl⟩ : ∃ i, j = k + 1 + i := ⟨j - (k + 1), by omega⟩
      have e : k + 1 + i - (k + 1) = i := by omega
      have f : k + 1 + i - k = i + 1 := by omega
      rw [e, f, Nat.div_div_eq_div_mul, Nat.pow_succ, Nat.mul_comm 256]
    · rw [if_neg h, Tab.get_set]
      by_cases hj : j = k
      · subst hj; simp
      · rw [if_neg hj, if_neg (by omega)]

/-- A byte after a write (R4). -/
theorem State.byte_writeLE (s : State) (k n v j : Nat) :
    (s.writeLE k n v).byte j = if k ≤ j ∧ j < k + n then BitVec.ofNat 8 (v / 256 ^ (j - k)) else s.byte j :=
  get_writeCells ..

/-- A write leaves every byte outside it alone. -/
theorem State.byte_writeLE_other (s : State) {k n v j : Nat} (h : j < k ∨ k + n ≤ j) :
    (s.writeLE k n v).byte j = s.byte j := by
  rw [State.byte_writeLE, if_neg (by omega)]

theorem State.readLE_congr (s t : State) (k n : Nat) (h : ∀ j, k ≤ j → j < k + n → t.byte j = s.byte j) :
    t.readLE k n = s.readLE k n := by
  induction n generalizing k with
  | zero => rfl
  | succ n ih =>
    simp only [State.readLE]
    rw [h k (by omega) (by omega), ih (k + 1) fun j a b => h j (by omega) (by omega)]

/-- A read beside a write sees what was there before. -/
theorem State.readLE_writeLE_other (s : State) {k n v j m : Nat} (h : j + m ≤ k ∨ k + n ≤ j) :
    (s.writeLE k n v).readLE j m = s.readLE j m :=
  State.readLE_congr _ _ _ _ fun i a b => s.byte_writeLE_other (by omega)

/-- A read of what was written gives it, reduced to the width (R4). -/
theorem State.readLE_writeLE (s : State) (k n v : Nat) : (s.writeLE k n v).readLE k n = v % 256 ^ n := by
  have key : ∀ (t : State) (k n v : Nat),
      (∀ j, k ≤ j → j < k + n → t.byte j = BitVec.ofNat 8 (v / 256 ^ (j - k))) → t.readLE k n = v % 256 ^ n := by
    intro t k n
    induction n generalizing k with
    | zero => intro v _; simp [State.readLE, Nat.mod_one]
    | succ n ih =>
      intro v h
      simp only [State.readLE]
      rw [h k (by omega) (by omega), ih (k + 1) (v / 256) fun j a b => by
        obtain ⟨i, rfl⟩ : ∃ i, j = k + 1 + i := ⟨j - (k + 1), by omega⟩
        rw [h _ (by omega) (by omega)]
        have e : k + 1 + i - (k + 1) = i := by omega
        have f : k + 1 + i - k = i + 1 := by omega
        rw [e, f, Nat.div_div_eq_div_mul, Nat.pow_succ, Nat.mul_comm 256]]
      have e : 256 ^ (n + 1) = 256 * 256 ^ n := by rw [Nat.pow_succ, Nat.mul_comm]
      rw [e, Nat.mod_mul, Nat.sub_self, Nat.pow_zero, Nat.div_one]
      rfl
  exact key _ k n v fun j a b => by rw [State.byte_writeLE, if_pos ⟨a, b⟩]

theorem wf_writeCells (m : List Host.Cell) (k n v : Nat) (w : Memory.wf m = true) :
    Memory.wf (writeCells m k n v) = true := by
  induction n generalizing m k v with
  | zero => exact w
  | succ n ih => exact ih _ _ _ (Tab.wf_set 0 m k _ w)

/-- A write keeps the canonical form of storage. -/
theorem State.wf_writeLE (s : State) (k n v : Nat) (w : Memory.wf s.mem = true) :
    Memory.wf (s.writeLE k n v).mem = true := wf_writeCells _ _ _ _ w

/-- Queueing a fault record keeps the canonical form of storage. -/
theorem State.wf_queueRecord (s : State) (die : Nat) (r : BitVec 256) (w : Memory.wf s.mem = true) :
    Memory.wf (s.queueRecord die r).mem = true := by
  unfold State.queueRecord
  dsimp only
  split
  · exact wf_writeCells _ _ _ _ w
  · split <;> simpa using w

/-- Taking a record back reads storage alone. -/
theorem State.mem_unqueue (s : State) (die : Nat) {p : State × BitVec 256} (h : s.unqueue die = some p) :
    p.1.mem = s.mem := by
  unfold State.unqueue at h
  dsimp only at h
  split at h
  · exact Option.some.inj h ▸ s.setMtu_mem ..
  · exact Option.some.inj h ▸ s.setMtu_mem ..
  · split at h
    · exact nomatch h
    · exact Option.some.inj h ▸ s.setReg_mem ..

theorem State.wf_queueAhead (s : State) (die : Nat) (r : BitVec 256) (n : Nat) (w : Memory.wf s.mem = true) :
    Memory.wf (State.queueAhead die r n s).mem = true := by
  induction n generalizing s with
  | zero => exact s.wf_queueRecord die r w
  | succ n ih =>
    unfold State.queueAhead
    cases h : s.unqueue die with
    | none => exact s.wf_queueRecord die r w
    | some p => exact State.wf_queueRecord _ die p.2 (ih p.1 (by rw [s.mem_unqueue die h]; exact w))

/-- Reporting a fault record keeps the canonical form of storage. -/
theorem State.wf_emit (s : State) (die : Nat) (r : BitVec 256) (w : Memory.wf s.mem = true) :
    Memory.wf (s.emit die r).mem = true := by
  unfold State.emit State.queueNow
  dsimp only
  split
  · exact w
  · exact State.wf_queueAhead _ die r _ w

/-- Zeroing a range keeps the canonical form of storage. -/
theorem State.wf_zeroRange (s : State) (k n : Nat) (w : Memory.wf s.mem = true) :
    Memory.wf (s.zeroRange k n).mem = true := Tab.wf_filter 0 _ _ w

/-- Writing a list of bytes keeps the canonical form of storage. -/
theorem State.wf_putBytes (s : State) (k : Nat) (bs : List Byte) (w : Memory.wf s.mem = true) :
    Memory.wf (s.putBytes k bs).mem = true := by
  induction bs generalizing s k with
  | nil => exact w
  | cons b bs ih => exact ih _ _ (State.wf_writeLE s k 1 _ w)

/-- Writing a list of dwords keeps the canonical form of storage. -/
theorem State.wf_putDwords (s : State) (k : Nat) (ds : List (BitVec 64)) (w : Memory.wf s.mem = true) :
    Memory.wf (s.putDwords k ds).mem = true := by
  induction ds generalizing s k with
  | nil => exact w
  | cons d ds ih =>
    refine ih _ _ ?_
    split
    · exact w
    · exact State.wf_writeLE s k 8 _ w

/-- Copying a block keeps the canonical form of storage (R114). -/
theorem State.wf_copyBlock (s : State) (dst src n : Nat) (w : Memory.wf s.mem = true) :
    Memory.wf (s.copyBlock dst src n).mem = true := by
  have key : ∀ (l m : List Host.Cell), Memory.wf m = true → Memory.wf (l.foldl (fun m e => Tab.set 0 m e.1 e.2) m) = true := by
    intro l
    induction l with
    | nil => exact fun m h => h
    | cons e l ih => exact fun m h => ih _ (Tab.wf_set 0 m _ _ h)
  exact key _ _ (State.wf_zeroRange s dst n w)

/-- Making entries old changes no storage. -/
@[simp] theorem State.entriesOld_mem (s : State) (core : Nat) : (s.entriesOld core).mem = s.mem := by
  unfold State.entriesOld
  split <;> rfl

/-- Clearing a core's local SRAM keeps the canonical form of storage (R67). -/
theorem State.wf_takeCore (s : State) (core : Nat) (asid : BitVec 16) (w : Memory.wf s.mem = true) :
    Memory.wf (s.takeCore core asid).mem = true := by
  unfold State.takeCore
  dsimp only
  split
  · exact w
  · simpa [State.l1Drop, Memory.wf] using Tab.wf_filter 0 s.mem _ w

/-- What a team finds in its local SRAM is storage in canonical form (R67). -/
theorem State.wf_carryOver (s : State) (left : List (BitVec 8)) (k n : Nat) (w : Memory.wf s.mem = true) :
    Memory.wf (s.carryOver left k n).mem = true := by
  have key : ∀ (f : Nat → Nat) (l : List Nat) (u : State), Memory.wf u.mem = true →
      Memory.wf (l.foldl (fun u i => u.writeLE (k + i) 1 (f i)) u).mem = true := by
    intro f l
    induction l with
    | nil => exact fun _ h => h
    | cons i l ih => exact fun u h => ih _ (State.wf_writeLE u (k + i) 1 _ h)
  unfold State.carryOver
  dsimp only
  split
  · exact w
  · exact key _ _ _ w

/-- What reset leaves is storage in canonical form (R469). -/
theorem State.wf_afterReset (s : State) (w : Memory.wf s.mem = true) : Memory.wf s.afterReset.mem = true := by
  refine Tab.wf_pass 0 s.mem _ s.freeCount (fun r e _ => ?_) w
  dsimp only
  split
  · exact .inl rfl
  · exact .inr ⟨_, ‹_›, rfl⟩

/-- The storage after reset has the canonical form. -/
theorem reset_mem_wf : Memory.wf State.reset.mem = true := rfl

end Sys2Proof.Machine
end

