-- ==== Sys2Proof/Laws/Scalar.lean ====
section
/-!
SUPPORT. What the shared scalar forms do when their operands are full (R313 to R316).
-/
namespace Sys2Proof.Machine

/-- The form of two sources (R313). -/
theorem scalarTwo_ok {i : Instr} {x : Pfx} {r : RRR} {rd : Bool}
    {f : Group → BitVec 64 → BitVec 64 → BitVec 64 → SRes} {s : State} {g : Group} {c : Code} (hi : Issues i c s g)
    (h : Ready g x [.s (rrrAt r x g.repIdx).a.toNat 1, .s (rrrAt r x g.repIdx).b.toNat 1,
      .s (rrrAt r x g.repIdx).d.toNat 1]) :
    let q := rrrAt r x g.repIdx
    let y := f g (g.sv q.a.toNat) (g.sv q.b.toNat) (g.sv q.d.toNat)
    ∃ t, scalarTwo i x r rd f s = .next t ∧ Retires s t g ((g.writeS q.d.toNat y.1
      (g.spois q.a.toNat 1 || g.spois q.b.toNat 1 || (rd && g.spois q.d.toNat 1) || y.2.2)).raise y.2.1) c none := by
  refine issueG_ok hi ?_ (by simp) (by simp)
  have k := gate_ok (g := g) (x := x) (lane := false)
    (srcs := [(.s (rrrAt r x g.repIdx).a.toNat 1, (rrrAt r x g.repIdx).wa),
      (.s (rrrAt r x g.repIdx).b.toNat 1, (rrrAt r x g.repIdx).wb)]) (dsts := [.s (rrrAt r x g.repIdx).d.toNat 1]) h
  simp only [k]
  rfl

/-- The form of one source (R313). -/
theorem scalarOne_ok {i : Instr} {x : Pfx} {r : RRR} {f : BitVec 64 → BitVec 64} {s : State} {g : Group} {c : Code}
    (hi : Issues i c s g)
    (h : Ready g x [.s (rrrAt r x g.repIdx).a.toNat 1, .s (rrrAt r x g.repIdx).d.toNat 1]) :
    let q := rrrAt r x g.repIdx
    ∃ t, scalarOne i x r f s = .next t ∧
      Retires s t g (g.writeS q.d.toNat (f (g.sv q.a.toNat)) (g.spois q.a.toNat 1)) c none := by
  refine issueG_ok hi ?_ (by simp) (by simp)
  have k := gate_ok (g := g) (x := x) (lane := false)
    (srcs := [(.s (rrrAt r x g.repIdx).a.toNat 1, (rrrAt r x g.repIdx).wa)])
    (dsts := [.s (rrrAt r x g.repIdx).d.toNat 1]) h
  simp only [k]
  rfl

/-- The form of one source and an immediate (R316). -/
theorem scalarImm_ok {i : Instr} {x : Pfx} {r : RI} {f : BitVec 64 → BitVec 64 × Exc} {s : State} {g : Group} {c : Code}
    (hi : Issues i c s g) (h : Ready g x [.s r.a.toNat 1, .s r.d.toNat 1]) :
    let y := f (g.sv r.a.toNat)
    ∃ t, scalarImm i x r f s = .next t ∧
      Retires s t g ((g.writeS r.d.toNat y.1 (g.spois r.a.toNat 1)).raise y.2) c none := by
  refine issueG_ok hi ?_ (by simp) (by simp)
  have k := gate_ok (g := g) (x := x) (lane := false) (srcs := [(.s r.a.toNat 1, r.wa)]) (dsts := [.s r.d.toNat 1]) h
  simp only [k]
  rfl

end Sys2Proof.Machine
end

