-- ==== Sys2Proof/Laws/Step.lean ====
section
/-!
SUPPORT. What one step does, by cases: with no structure held by a switch (R166, log 22) it is the turn's, else the recall's.
-/
namespace Sys2Proof.Machine

/-- While nothing is lent to a switch, no structure is. -/
theorem structLent_of_lent (s : State) (h : s.lent = []) : s.structLent = [] := by simp [State.structLent, h]

/-- While only the platform block responds, nothing is recalled. -/
theorem structLent_of_platformOnly (s : State) (h : s.platformOnly = true) : s.structLent = [] := by
  simp [State.structLent, h]

/-- With no structure held a step is the turn's. -/
theorem step_open (s : State) (h : s.structLent = []) : step s = openStep s := by simp [step, h]

/-- With one held a step is the recall's. -/
theorem step_recalls (s : State) (h : s.structLent ≠ []) : step s = recallStep s := by
  simp [step, List.isEmpty_iff, h]

/-- An event that is taken up runs and wakes the waiting groups. -/
theorem runEvent_open (i : Instr) (s : State) (h : i.isEncoded = false) (p : s.platformOnly = false ∨ frozenOut i = false) :
    runEvent i s = wakeAll (exec i s) := by
  rcases p with p | p <;> simp [runEvent, h, p]

/-- An empty agenda gives one tick and names nothing. -/
theorem turn_nil (s : State) (h : s.agenda = []) : s.turn = (s.pass 1, ⟨1, none, none⟩) := by simp [State.turn, h]

/-- The turn at the head of the agenda. -/
theorem turn_cons (s : State) (t : Turn) (ts : List Turn) (h : s.agenda = t :: ts) :
    s.turn = ({ s with agenda := ts }.pass t.dt, t) := by simp [State.turn, h]

end Sys2Proof.Machine
end

