-- ==== Sys2Proof/Tests/Slice0.lean ====
section
/-!
SUPPORT. Tests.  Decoding: words put together field by field from the formats of R283 and the opcode map of R292, for
every major.  The smoke test of the checks: for each check an ill-formed term that it refuses.  Single steps with
results taken from the rules.  Witnesses: for each statement a state and operands that meet its hypotheses.
-/
namespace Sys2Proof.Tests

open Sys2Proof Sys2Proof.Machine

set_option Elab.async false

/-! ### Words -/

/-- An RRR word (R283): major [31:26], d [25:19], a [18:12], b [11:5], fn [4:2], wa [1], wb [0]. -/
def rrrWord (major : BitVec 6) (d a b : BitVec 7) (fn : BitVec 3) (wa wb : BitVec 1 := 0#1) : Word :=
  major ++ d ++ a ++ b ++ fn ++ wa ++ wb

/-- An RI word (R283): major, d, a, imm [11:1], wa [0]. -/
def riWord (major : BitVec 6) (d a : BitVec 7) (imm : BitVec 11) (wa : BitVec 1 := 0#1) : Word :=
  major ++ d ++ a ++ imm ++ wa

/-- A TS word (R283): major, d, tile [18:15], row or column [14], index register [13:7], offset [6:0]. -/
def tsWord (major : BitVec 6) (d : BitVec 7) (t : BitVec 4) (rc : BitVec 1) (s i : BitVec 7) : Word :=
  major ++ d ++ t ++ rc ++ s ++ i

/-- The fields d, a and b of a word without wait-or-trap bits. -/
def f3 (d a b : BitVec 7) : RRR := ⟨d, a, b, false, false⟩

/-- R15's worked encodings: SADD s5, s6, s7 and SADD s5, s6!, s7. -/
theorem test_decode_worked : decode [0x242860E0] = .ok (.sadd Pfx.none ⟨5, 6, 7, false, false⟩) 1 ∧
    decode [0x242860E2] = .ok (.sadd Pfx.none ⟨5, 6, 7, true, false⟩) 1 := by decide +kernel

theorem test_decode_control : decode [rrrWord 0x01 0 1 2 3] = .ok (.bkpt (f3 0 1 2)) 1 ∧
    decode [rrrWord 0x01 9 0 0 7] = .ok (.tstamp (f3 9 0 0)) 1 ∧
    decode [0x02#6 ++ 0x3FFFFFE#26] = .ok (.bra none 0x3FFFFFE) 1 ∧ decode [0x03#6 ++ 5#26] = .ok (.call none 5) 1 ∧
    decode [0x04#6 ++ 9#7 ++ 2#3 ++ 0xFFF0#16] = .ok (.bcc none ⟨9, 2, 0xFFF0⟩) 1 ∧
    decode [rrrWord 0x05 3 4 0 0 1] = .ok (.jr ⟨3, 4, 0, true, false⟩) 1 ∧
    decode [rrrWord 0x05 7 0x21 0 6] = .ok (.mfs (f3 7 0x21 0)) 1 ∧
    decode [0x06#6 ++ 9#7 ++ 0#3 ++ 7#16] = .ok (.loop none ⟨9, 0, 7⟩) 1 := by decide +kernel

theorem test_decode_scalar : decode [0x07#6 ++ 4#7 ++ 0x7FFFF#19] = .ok (.sli none ⟨4, 0x7FFFF⟩) 1 ∧
    decode [0x08#6 ++ 4#7 ++ 1#19] = .ok (.slih ⟨4, 1⟩) 1 ∧ decode [rrrWord 0x09 1 2 3 7] = .ok (.srem Pfx.none (f3 1 2 3)) 1 ∧
    decode [rrrWord 0x0A 1 2 3 4] = .ok (.sshl Pfx.none (f3 1 2 3)) 1 ∧
    decode [rrrWord 0x0B 1 2 0 4] = .ok (.sclz Pfx.none (f3 1 2 0)) 1 ∧
    decode [rrrWord 0x0C 1 2 3 6 0 1] = .ok (.sbfx Pfx.none ⟨1, 2, 3, false, true⟩) 1 ∧
    decode [riWord 0x0D 1 2 0x7FF] = .ok (.saddi Pfx.none ⟨1, 2, 0x7FF, false⟩) 1 ∧
    decode [riWord 0x0E 1 2 3 1] = .ok (.sandi none ⟨1, 2, 3, true⟩) 1 ∧
    decode [riWord 0x0F 1 2 3] = .ok (.sori none ⟨1, 2, 3, false⟩) 1 ∧
    decode [riWord 0x10 1 2 3] = .ok (.sxori none ⟨1, 2, 3, false⟩) 1 ∧
    decode [riWord 0x11 1 2 0x63F] = .ok (.sshi ⟨1, 2, 0x63F, false⟩) 1 := by decide +kernel

theorem test_decode_vector : decode [rrrWord 0x15 1 2 3 4] = .ok (.vmad Pfx.none (f3 1 2 3)) 1 ∧
    decode [rrrWord 0x16 1 2 3 3] = .ok (.vandn Pfx.none (f3 1 2 3)) 1 ∧
    decode [rrrWord 0x17 1 2 0 0] = .ok (.vclz Pfx.none (f3 1 2 0)) 1 ∧
    decode [rrrWord 0x18 15 2 3 6] = .ok (.vcmp Pfx.none 6 (f3 15 2 3)) 1 ∧
    decode [rrrWord 0x19 1 2 0 2] = .ok (.vbcast Pfx.none (f3 1 2 0)) 1 ∧
    decode [rrrWord 0x1A 1 2 3 3] = .ok (.vfma Pfx.none (f3 1 2 3)) 1 ∧
    decode [rrrWord 0x1B 1 2 0 2] = .ok (.vfclass Pfx.none (f3 1 2 0)) 1 ∧
    decode [rrrWord 0x1C 2 3 4 7] = .ok (.vfcmp Pfx.none 7 (f3 2 3 4)) 1 ∧
    decode [rrrWord 0x1D 1 2 0 7] = .ok (.vtanh Pfx.none (f3 1 2 0)) 1 ∧
    decode [rrrWord 0x1E 1 2 3 0] = .ok (.vfdiv Pfx.none (f3 1 2 3)) 1 ∧
    decode [rrrWord 0x1F 1 2 9 0] = .ok (.vcvt Pfx.none (f3 1 2 9)) 1 := by decide +kernel

theorem test_decode_cross : decode [rrrWord 0x20 1 2 3 3] = .ok (.vshflx Pfx.none (f3 1 2 3)) 1 ∧
    decode [rrrWord 0x20 2 3 0 7] = .ok (.vmatch Pfx.none (f3 2 3 0)) 1 ∧
    decode [rrrWord 0x21 1 2 0 5] = .ok (.vscanadd Pfx.none (f3 1 2 0)) 1 ∧
    decode [rrrWord 0x21 0 0 4 7] = .ok (.part Pfx.none (f3 0 0 4)) 1 ∧
    decode [rrrWord 0x22 1 2 3 3] = .ok (.pandn Pfx.none (f3 1 2 3)) 1 := by decide +kernel

theorem test_decode_memory : decode [riWord 0x12 1 2 0x400] = .ok (.sld Pfx.none ⟨1, 2, 0x400, false⟩) 1 ∧
    decode [riWord 0x13 1 2 8] = .ok (.sst Pfx.none ⟨1, 2, 8, false⟩) 1 ∧
    decode [rrrWord 0x14 1 2 3 1] = .ok (.satom Pfx.none 1 (f3 1 2 3)) 1 ∧
    decode [rrrWord 0x23 1 2 3 0] = .ok (.vld Pfx.none 0 (f3 1 2 3)) 1 ∧
    decode [rrrWord 0x24 1 2 3 1] = .ok (.vst Pfx.none 1 (f3 1 2 3)) 1 ∧
    decode [rrrWord 0x25 1 2 3 0] = .ok (.vldnf Pfx.none 0 (f3 1 2 3)) 1 ∧
    decode [rrrWord 0x26 1 2 3 0] = .ok (.atom Pfx.none 0 (f3 1 2 3)) 1 ∧
    decode [rrrWord 0x27 1 2 3 2] = .ok (.hinc Pfx.none (f3 1 2 3)) 1 ∧
    decode [rrrWord 0x28 0 0 0 0] = .ok (.fence Pfx.none) 1 ∧
    decode [rrrWord 0x28 1 2 3 7] = .ok (.rlq Pfx.none (f3 1 2 3)) 1 := by decide +kernel

theorem test_decode_engines : decode [rrrWord 0x29 1 2 3 0] = .ok (.cpy Pfx.none (f3 1 2 3)) 1 ∧
    decode [rrrWord 0x2A 0 2 5 3] = .ok (.stageacq (f3 0 2 5)) 1 ∧ decode [rrrWord 0x2A 1 2 0 7] = .ok (.launch (f3 1 2 0)) 1 ∧
    decode [rrrWord 0x2B 1 2 0 0] = .ok (.mtile Pfx.none (f3 1 2 0)) 1 ∧
    decode [rrrWord 0x2C 1 2 3 0] = .ok (.mloop Pfx.none (f3 1 2 3)) 1 ∧
    decode [tsWord 0x2D 1 2 1 3 4] = .ok (.tswr Pfx.none ⟨1, 2, true, 3, 4⟩) 1 ∧
    decode [tsWord 0x2E 1 2 0 3 4] = .ok (.tsrd Pfx.none ⟨1, 2, false, 3, 4⟩) 1 ∧
    decode [rrrWord 0x2F 1 2 3 0] = .ok (.tld Pfx.none (f3 1 2 3)) 1 := by decide +kernel

theorem test_decode_serving : decode [rrrWord 0x30 1 2 0 0] = .ok (.rngdraw Pfx.none (f3 1 2 0)) 1 ∧
    decode [rrrWord 0x31 1 2 3 5] = .ok (.seqemit Pfx.none (f3 1 2 3)) 1 ∧
    decode [rrrWord 0x32 1 2 3 1] = .ok (.kvtrunc Pfx.none (f3 1 2 3)) 1 ∧
    decode [rrrWord 0x33 1 2 3 0] = .ok (.brank Pfx.none (f3 1 2 3)) 1 ∧
    decode [rrrWord 0x34 4 2 0 0] = .ok (.tapeget (f3 4 2 0)) 1 ∧
    decode [rrrWord 0x35 0 2 0 1] = .ok (.ballast (f3 0 2 0)) 1 := by decide +kernel

/-- The prefixes (R287): REP count, strides; MOD with TYPE in [18:14]; EXT extends the immediate (R286). -/
theorem test_decode_prefixes :
    decode [0x3C#6 ++ 1#2 ++ 3#6 ++ 1#2 ++ 1#2 ++ 0#2 ++ 0#12, rrrWord 0x15 8 16 24 0] =
      .ok (.vadd ⟨some ⟨3, 1, 1, 0⟩, none, none⟩ (f3 8 16 24)) 2 ∧
    decode [0x3C#6 ++ 0#2 ++ 3#4 ++ 1#1 ++ 6#5 ++ 0#2 ++ 0#3 ++ 0#3 ++ 0#2 ++ 0#3 ++ 0#1, rrrWord 0x15 8 16 24 0] =
      .ok (.vadd ⟨none, some ⟨3, true, 6, 0, 0, 0, 0, 0, false⟩, none⟩ (f3 8 16 24)) 2 ∧
    decode [0x3C#6 ++ 2#2 ++ 0x800000#24, 0x07#6 ++ 4#7 ++ 0#19] = .ok (.sli (some 0x800000) ⟨4, 0⟩) 2 := by decide +kernel

/-- The table's numbering: the second word's bits count on from bit 32. -/
theorem test_table_word : decodeTableWord 32 0x0400000C = some (.bkpt (f3 0 0 0)) ∧ decodeTableWord 32 0 = none := by
  decide +kernel

/-! ### Ill-formed terms, one for each check -/

/-- A register number out of its class: d of a unary form, a predicate past p15, a tile past t15, an accumulator (R284). -/
theorem test_wf_fields : (Instr.smov Pfx.none (f3 1 2 3)).wf = false ∧ (Instr.vcmp Pfx.none 0 (f3 16 2 3)).wf = false ∧
    (Instr.tmov Pfx.none (f3 16 2 0)).wf = false ∧ (Instr.mzero Pfx.none (f3 16 0 0)).wf = false ∧
    (Instr.nop).wf = true := by decide +kernel

/-- A prefix that the major does not accept, a MOD value that the form does not admit, a wait bit where there is no source
(R285, R288, R290). -/
theorem test_wf_prefixes : (Instr.fence ⟨some ⟨1, 0, 0, 0⟩, none, none⟩).wf = false ∧
    (Instr.sadd ⟨none, some { Mod.zero with type := 31 }, none⟩ (f3 1 2 3)).wf = false ∧
    (Instr.sadd ⟨none, some { Mod.zero with pred := 1 }, none⟩ (f3 1 2 3)).wf = false ∧
    (Instr.vfmin ⟨none, some { Mod.zero with round := 1 }, none⟩ (f3 1 2 3)).wf = false ∧
    (Instr.sclz Pfx.none ⟨1, 2, 0, false, true⟩).wf = false ∧ (Instr.vadd ⟨none, none, some 1⟩ (f3 1 2 3)).wf = false := by
  decide +kernel

/-- A reserved fn, a LOOP with a cc, a BCC on a predicate past p15, a stage or shift field with high bits (R292, R293,
R308, R316). -/
theorem test_wf_main : (Instr.vcmp Pfx.none 7 (f3 1 2 3)).wf = false ∧ (Instr.loop none ⟨1, 1, 0⟩).wf = false ∧
    (Instr.bcc none ⟨16, 6, 0⟩).wf = false ∧ (Instr.sshi ⟨1, 2, 0x40, false⟩).wf = false ∧
    (Instr.part Pfx.none (f3 0 0 5)).wf = false := by decide +kernel

/-! ### A machine with one group at its start -/

/-- The machine of the witnesses: an instruction placed, whose group issues next. -/
def base : State := State.reset.withFetchWord 32 0

/-- The same with the group changed. -/
def withG (f : Group → Group) : State := { base with groups := [(0, f placedGroup)] }

/-- Scalar registers set, full. -/
def regs (l : List (Nat × BitVec 64)) (g : Group) : Group := l.foldl (fun g e => g.writeS e.1 e.2 false) g

/-- The machine with scalar registers set. -/
def withS (l : List (Nat × BitVec 64)) : State := withG (regs l)

/-- The group of a state. -/
def grp (s : State) : Group := (s.group 0 0).getD placedGroup

/-- Instruction i meets `Issues` and, with some operands, `Ready` in state s. -/
def meets (s : State) (i : Instr) (os : List Opd) : Bool :=
  match i.code with
  | some c => decide (Issues i c s (grp s)) && decide (Ready (grp s) c.pfx os)
  | none => false

/-- What a group is after instruction i, when that leaves a next state. -/
def after (s : State) (i : Instr) : Option Group :=
  match exec i s with
  | .next t => t.group 0 0
  | _ => none

/-- Instruction i completes in state s: the group goes on past it. -/
def goesOn (s : State) (i : Instr) : Bool :=
  match after s i with
  | some h => h.stop.isNone && !h.waiting && decide (h.pc ≠ (grp s).pc)
  | none => false

/-- Instruction i stops its group in state s for a cause. -/
def stopsFor (s : State) (i : Instr) (cause : BitVec 8) : Bool :=
  match after s i with
  | some h => decide (h.stop.map Stop.cause = some cause)
  | none => false

/-- Instruction i waits in state s. -/
def waitsIn (s : State) (i : Instr) : Bool :=
  match after s i with
  | some h => h.stop.isNone && h.waiting && decide (h.pc = (grp s).pc)
  | none => false

/-- The operands of s1 := s2 op s3. -/
def s123 : List Opd := [.s 2 1, .s 3 1, .s 1 1]

/-- The operands of v1 := v2 op v3 in 16 lanes. -/
def v123 : List Opd := [.v 2 1 0xFFFF, .v 3 1 0xFFFF, .v 1 1 0xFFFF]

/-- R1, R3: s1, s2, s3. -/
def r123 : RRR := f3 1 2 3

/-! ### Scalar instructions and control flow -/

/-- Each scalar instruction of majors 0x09 to 0x11 can issue with its operands full, and completes. -/
theorem witness_scalar : ([Instr.sadd Pfx.none r123, .ssub Pfx.none r123, .smul Pfx.none r123, .smulh Pfx.none r123,
    .smulhn Pfx.none r123, .sdiv Pfx.none r123, .sdivn Pfx.none r123, .srem Pfx.none r123, .sand Pfx.none r123,
    .sor Pfx.none r123, .sxor Pfx.none r123, .sandn Pfx.none r123, .sshl Pfx.none r123, .sshr Pfx.none r123,
    .ssra Pfx.none r123, .srot Pfx.none r123, .smin Pfx.none r123, .smax Pfx.none r123, .sminn Pfx.none r123,
    .smaxn Pfx.none r123, .sclz Pfx.none (f3 1 2 0), .spopc Pfx.none (f3 1 2 0), .sbrev Pfx.none (f3 1 2 0),
    .smov Pfx.none (f3 1 2 0), .seq Pfx.none r123, .sne Pfx.none r123, .slt Pfx.none r123, .sle Pfx.none r123,
    .sltn Pfx.none r123, .slen Pfx.none r123, .sbfx Pfx.none r123, .sbfi Pfx.none r123,
    .saddi Pfx.none ⟨1, 2, 0x7FF, false⟩, .sandi none ⟨1, 2, 3, false⟩, .sori none ⟨1, 2, 3, false⟩,
    .sxori none ⟨1, 2, 3, false⟩, .sshi ⟨1, 2, 0x603, false⟩].all fun i => meets base i s123 && goesOn base i) = true := by
  decide +kernel

/-- R314: the most negative number over -1 gives itself with IOV; by zero, all ones with IDZ, poisoned under TRAPEN.IDZ. -/
theorem test_sdiv_corners :
    ((after (withS [(2, BitVec.intMin 64), (3, BitVec.allOnes 64)]) (.sdiv Pfx.none r123)).map
      fun h => (h.sv 1, h.flags)) = some (BitVec.intMin 64, 0x20) ∧
    ((after (withG fun g => { regs [(2, 7)] g with trapen := 0x40 }) (.sdiv Pfx.none r123)).map
      fun h => (h.sel 1, h.flags)) = some (⟨BitVec.allOnes 64, true, true⟩, 0x40) := by decide +kernel

/-- R315's worked example of SBFX. -/
theorem test_sbfx : ((after (withS [(2, 0xF0), (3, 0x8404)]) (.sbfx Pfx.none r123)).map fun h => h.sv 1) =
    some (BitVec.allOnes 64) := by decide +kernel

/-- R316: SADDI.N64 of -1 gives S(a) - 1, with IOV only when S(a) is 0. -/
theorem test_saddi_n64 :
    let i := Instr.saddi ⟨none, some { Mod.zero with type := 8 }, none⟩ ⟨1, 2, 0x7FF, false⟩
    ((after (withS [(2, 5)]) i).map fun h => (h.sv 1, h.flags)) = some (4, 0) ∧
    ((after base i).map fun h => (h.sv 1, h.flags)) = some (BitVec.allOnes 64, 0x20) := by decide +kernel

/-- SLI with and without EXT and SLIH complete; SLIH waits for its register. -/
theorem witness_load_immediate : ([Instr.sli none ⟨1, 5⟩, .sli (some 3) ⟨1, 5⟩, .slih ⟨1, 5⟩].all fun i =>
      meets base i [.s 1 1] && goesOn base i) = true ∧
    let s := withG fun g => g.emptyS 1
    meets s (.slih ⟨1, 5⟩) [] = true ∧ (grp s).sel 1 = ⟨0, false, false⟩ ∧ waitsIn s (.slih ⟨1, 5⟩) = true := by
  decide +kernel

theorem witness_system : ([Instr.nop, .yield, .pmark (f3 0 1 2), .tstamp (f3 1 0 0)].all fun i =>
    meets base i [.s 1 1] && goesOn base i) = true := by decide +kernel

/-- Branches: taken and not taken on a scalar and on a predicate, and a poisoned condition. -/
theorem witness_branches : ([Instr.bra none 4, .call (some 1) 4, .bcc none ⟨2, 0, 4⟩, .bcc none ⟨2, 1, 4⟩, .bcc none ⟨1, 6, 4⟩,
      .bcc none ⟨1, 7, 4⟩].all fun i => meets base i [.s 127 1, .s 2 1, .p 1] && goesOn base i) = true ∧
    let s := withG fun g => g.putS 2 ⟨0, true, true⟩
    meets s (.bcc none ⟨2, 0, 4⟩) [.s 2 1] = true ∧ stopsFor s (.bcc none ⟨2, 0, 4⟩) 0x05 = true := by decide +kernel

/-- JR and RET: a good target, one with low bits, one with bit 57, a poisoned one; RET with s127 empty. -/
theorem witness_register_jumps :
    let jr := Instr.jr (f3 1 127 0)
    ([withS [(127, 0x100)]].all fun s => meets s jr [.s 127 1, .s 1 1] && goesOn s jr && goesOn s .ret) = true ∧
    ([withS [(127, 2)], withS [(127, 2 ^ 57)]].all fun s =>
      meets s jr [.s 127 1, .s 1 1] && stopsFor s jr 0x10 && meets s .ret [] && stopsFor s .ret 0x10) = true ∧
    (let s := withG fun g => g.putS 127 ⟨0, true, true⟩
     meets s jr [.s 127 1, .s 1 1] && stopsFor s jr 0x05 && stopsFor s .ret 0x05) = true ∧
    (let s := withG fun g => g.emptyS 127
     meets s .ret [] && waitsIn s .ret) = true := by decide +kernel

/-- LOOP leaves at zero, to its target, and else counts down and goes on after its word. -/
theorem witness_loop : ([withS [], withS [(2, 1)]].all fun s => meets s (.loop none ⟨2, 0, 0x10⟩) [.s 2 1]) = true ∧
    ((after (withS []) (.loop none ⟨2, 0, 0x10⟩)).map fun h => h.pc) = some 0x20000040 ∧
    ((after (withS [(2, 1)]) (.loop none ⟨2, 0, 0x10⟩)).map fun h => (h.pc, h.sv 2)) = some (0x20000004, 0) := by
  decide +kernel

/-- WBASE within the block and past it; RPF; REGGROW and REGSHRINK at each limit. -/
theorem witness_blocks :
    (meets base (.wbase (f3 0 0 1)) [] && goesOn base (.wbase (f3 0 0 1)) && meets base (.wbase (f3 0 0 4)) [] &&
      stopsFor base (.wbase (f3 0 0 4)) 0x42 && meets base (.rpf (f3 0 2 3)) [] && goesOn base (.rpf (f3 0 2 3))) = true ∧
    (meets base .reggrow [] && goesOn base .reggrow && meets base .regshrink [] && goesOn base .regshrink) = true ∧
    ((grp base).blockN < 4 ∧ base.growBehind (grp base) = false ∧ (grp base).granules ≤ base.freeGranules 0) ∧
    (let s := withG fun g => { g with blockN := 4 }
     meets s .reggrow [] && stopsFor s .reggrow 0x43) = true ∧
    (let s := withG fun g => { g with blockN := 0 }
     meets s .regshrink [] && stopsFor s .regshrink 0x43) = true := by decide +kernel

/-- MFS of each state register and MTS of each that may be written, at the greatest value of its layout. -/
theorem witness_state_registers :
    ([0x000, 0x001, 0x002, 0x003, 0x010, 0x011, 0x012, 0x013, 0x014, 0x020, 0x021, 0x022].all fun n =>
      let i := Instr.mfs (f3 1 (BitVec.ofNat 7 n) (BitVec.ofNat 7 (n / 128)))
      meets base i [.s 1 1] && goesOn base i) = true ∧
    ([(0x000, 0x17F), (0x001, 0x7F), (0x002, 4), (0x003, 96), (0x020, 0x1FFF)].all fun e =>
      let s := withS [(2, BitVec.ofNat 64 e.2)]
      let i := Instr.mts (f3 (BitVec.ofNat 7 e.1) 2 0)
      meets s i [.s 2 1] && goesOn s i) = true ∧ base.flagsPending (grp base) = false := by decide +kernel

/-- R10, R294: a one in a reserved bit of FLAGS is ignored; a reserved SIZE in PART is an illegal instruction. -/
theorem test_mts_reserved : decide ((after (withS [(2, 0x81)]) (.mts (f3 0 2 0))).map (·.flags) = some 1) = true ∧
    stopsFor (withS [(2, 5)]) (.mts (f3 2 2 0)) 0x01 = true := by decide +kernel

/-- BKPT, TRAP and TRAPFENCE with and without an enabled flag. -/
theorem witness_traps : (meets base (.bkpt (f3 0 0 3)) [] && stopsFor base (.bkpt (f3 0 0 3)) 0x02 &&
      stopsFor base (.trap (f3 0 0 3)) 0x03 && meets base .trapfence [] && goesOn base .trapfence) = true ∧
    (let s := withG fun g => { g with flags := 3, trapen := 2 }
     meets s .trapfence [] && stopsFor s .trapfence 0x04 && decide ((after s .trapfence).map (·.flags) = some 1)) = true := by
  decide +kernel

/-! ### Memory -/

/-- The state after instruction i, or s where it leaves none. -/
def ran (s : State) (i : Instr) : State :=
  match exec i s with
  | .next t => t
  | _ => s

/-- The machine with addresses for accesses: s2 a multiple of 64, v2 and v3 an address pair in each lane. -/
def memBase : State := withS [(2, 0x1000), (5, 0x7)]

/-- The MOD prefix with a type and a space. -/
def modTS (t : BitVec 5) (sp : BitVec 3) : Pfx := ⟨none, some { Mod.zero with type := t, space := sp }, none⟩

/-- Thread accesses issue, in global memory and in the scratchpad. -/
theorem witness_accesses : ([Pfx.none, modTS 0 2].all fun x =>
    ([Instr.sld x ⟨1, 2, 8, false⟩, .sst x ⟨1, 2, 8, false⟩, .satom x 0 (f3 1 2 5), .satom x 7 (f3 1 2 5)] ++
      ([0, 1, 2, 3, 6].flatMap fun fn => [Instr.vld x fn (f3 8 2 0), .vst x fn (f3 8 2 0), .vldnf x fn (f3 8 2 0)]) ++
      ([4, 5].flatMap fun fn => [Instr.vld x fn (f3 8 2 2), .vst x fn (f3 8 2 2), .vldnf x fn (f3 8 2 2)]) ++
      [Instr.atom x 0 (f3 8 2 2), .atom x 7 (f3 8 2 2), .smaxpk x (f3 8 2 2), .sminpk x (f3 8 2 2), .hinc x (f3 8 2 2)]).all fun i =>
        meets memBase i [.s 1 1, .s 2 1, .s 5 1, .v 2 2 0xFFFF, .v 8 4 0xFFFF, .p 14, .p 15] && goesOn memBase i &&
          decide ((ran memBase i).memops.length = 1)) = true := by decide +kernel

/-- A poisoned address and a poisoned datum are poison uses. -/
theorem witness_access_poison :
    (let s := withG fun g => g.putS 2 ⟨0x1000, true, true⟩
     [Instr.sld Pfx.none ⟨1, 2, 0, false⟩, .sst Pfx.none ⟨1, 2, 0, false⟩].all fun i => meets s i [.s 1 1, .s 2 1] && stopsFor s i 0x05) = true ∧
    (let s := withG fun g => (g.putS 2 ⟨0x1000, true, false⟩).putS 1 ⟨0, true, true⟩
     meets s (.sst Pfx.none ⟨1, 2, 0, false⟩) [.s 1 1, .s 2 1] && stopsFor s (.sst Pfx.none ⟨1, 2, 0, false⟩) 0x05) = true := by
  decide +kernel

/-- The checks of an access pass for a load of eight bytes at 0x1008 in spaces 0 and 2. -/
theorem witness_passes : ∀ sp ∈ [0, 2],
    let o := { Claims.op (grp memBase) Pfx.none ⟨Pfx.none, 0, .rrr 0 RRR.zero⟩ .load 8 8 with
      space := sp, lanes := [Claims.lane 0 0x1008 0 0] }
    Claims.passes memBase (grp memBase) placedTeam o := by
  unfold Claims.passes; decide +kernel

/-- Some operation in flight of a state, of number 0, has a property. -/
def op0 (s : State) (p : MemOp → Bool) : Bool := (Tab.find s.memops 0).any p

/-- Whether every lane of an operation has its place. -/
def allPlaced (o : MemOp) : Bool :=
  o.lanes.all fun l => match l.at_ with | .placed _ => true | _ => false

/-- A load of eight bytes from a page not yet in the residency filter: it is held, confirmed, and its data arrives. -/
theorem witness_load_confirms :
    let i := Instr.sld Pfx.none ⟨1, 2, 8, false⟩
    let s := ran { memBase with mem := memBase.mem ++ [(0x30000000, 9)] } i
    (op0 s fun o => o.kind = .load && o.lanes.all (fun l => l.at_ = .unconfirmed) &&
      (s.translateLanes o).2.all fun r => match r.2 with | .ok _ => true | .error _ => false) = true ∧
    (grp s).holds = [0] ∧
    (let t := ran s (.mtuConfirmation 0)
     (op0 t fun o => allPlaced o && t.opReady 0 o && o.lines.isEmpty) && (grp t).holds.isEmpty &&
       decide ((ran t (.loadDataArrival 0 (BitVec.allOnes 64) false)).memops = []) &&
       decide ((grp (ran t (.loadDataArrival 0 (BitVec.allOnes 64) false))).sel 1 = ⟨0, true, false⟩)) = true := by
  decide +kernel

/-- A load whose page is not mapped is refused by its MTU: a precise stop with cause 0x11. -/
theorem witness_load_refused :
    let s := ran (withS [(2, 0x40000000)]) (.sld Pfx.none ⟨1, 2, 0, false⟩)
    (op0 s fun o => o.lanes.length = 1 && (s.translateLanes o).2.all fun r => match r.2 with | .error n => decide (n = 0x11) | .ok _ => false) = true ∧
    (grp (ran s (.mtuConfirmation 0))).stop = some ⟨0x11, .precise, 1, []⟩ := by decide +kernel

/-- R79, R83: lanes that write the same bytes: the highest lane's value stands.  (Shape 3 with stride 0.) -/
theorem witness_store :
    let s := ran (withG fun g => (regs [(2, 0x100)] g).writeV 8 15 0xAB false) (.vst (modTS 0 2) 3 (f3 8 2 0))
    (op0 s fun o => o.kind = .store && allPlaced o && s.opReady 0 o && decide (o.lanes.length = 16)) = true ∧
    (let t := ran s (.writeThroughAcknowledgement 0 (BitVec.allOnes 64))
     decide (t.memops = []) && decide (t.readLE (region 16 + 0x100) 4 = 0xAB)) = true := by decide +kernel

/-- SATOM ADD and CAS on the scratchpad: the old value to s1, the sum or the swapped value in memory. -/
theorem witness_atomic :
    let b := { withS [(2, 0x100), (5, 7)] with mem := base.mem ++ [(region 16 + 0x100, 3)] }
    let s := ran b (.satom (modTS 0 2) 0 (f3 1 2 5))
    (op0 s fun o => o.kind = .atomic && allPlaced o && s.opReady 0 o && decide (o.type = 7)) = true ∧
    s.isPoisoned (region 16 + 0x100) 8 = false ∧
    (let t := ran s (.loadDataArrival 0 (BitVec.allOnes 64) false)
     decide (t.readLE (region 16 + 0x100) 8 = 10) && decide ((grp t).sel 1 = ⟨3, true, false⟩)) = true := by
  decide +kernel

/-! ### Fences, windows and the fabric -/

/-- The machine with the fabric interface on: node 7, its tables at 0x1100_0000 and 0x1120_0000; peer 1 up at node 2 on
every plane, peer 2 absent; of peer 1, window 3 is valid for context 0 and grants reads, writes and atomics. -/
def fabBase (f : Group → Group) : State :=
  let s := (((withG f).setReg 0x6000 (1 + 7 * 2)).setReg 0x6008 0x11000000).setReg 0x6010 0x11200000
  let s := (s.write64 0x11000010 (BitVec.allOnes 64)).write64 0x11000018 (1 + 2 * 4)
  s.writeLE (s.winKey 1 3) 32 (dw3 (0x10 * 2 ^ 16) (0x100 * 2 ^ 16) (5 + 0x07 * 2 ^ 40 + 2 ^ 45) 0)
where
  dw3 (a b c d : Nat) : Nat := a + b * 2 ^ 64 + c * 2 ^ 128 + d * 2 ^ 192

/-- An address in window 3 of peer 1. -/
def winAddr : BitVec 64 := 2 ^ 56 + 1 * 2 ^ 46 + 3 * 2 ^ 40

/-- FENCE, NTDRAIN and FWAIT complete with nothing in flight; FENCE at each scope. -/
theorem witness_fences : ([0, 1, 2, 3, 4, 5].all fun sc =>
      let x : Pfx := ⟨none, some { Mod.zero with scope := sc }, none⟩
      !(meets base (.fence x) []) || goesOn base (.fence x)) = true ∧
    ([Instr.fence Pfx.none, .ntdrain Pfx.none, .fwait Pfx.none].all fun i => meets base i [] && goesOn base i) = true ∧
    base.quiet 0 0 = true ∧ base.ticketsOpen 0 0 = false ∧ (base.accessesOf 0 0).isEmpty = true := by decide +kernel

/-- PREFETCH; PGREQ of a page that is resident and of one that is not, which is asked for with cause 0x1D. -/
theorem witness_page_requests :
    let pg := Instr.pgreq Pfx.none (f3 0 2 2)
    let far := withG fun g => ((List.range 16).foldl (fun g l => g.writeV 3 l 0x10 false) g)
    (meets base (.prefetch Pfx.none (f3 0 2 2)) [.s 2 1] && goesOn base (.prefetch Pfx.none (f3 0 2 2)) &&
      meets base pg [.s 2 1, .v 2 2 0xFFFF] && goesOn base pg && meets far pg [.s 2 1, .v 2 2 0xFFFF] && goesOn far pg) = true ∧
    (far.residency 0 0 0x1000000000).2 = some 0x11 ∧
    ((ran far pg).mtu 0).pend.length + fld ((ran far pg).reg 0x1030) 0 20 = 1 := by decide +kernel

/-- WINREQ of the host's peer, of an absent one, of a valid window, and of one to be fetched; WINREL of a valid window. -/
theorem witness_windows :
    let i := Instr.winreq Pfx.none (f3 1 2 5)
    ([(1023, 0x19), (2, 0x19), (1 + 3 * 1024, 0)].all fun e =>
      let s := fabBase (regs [(2, BitVec.ofNat 64 e.1), (5, 5)])
      meets s i [.s 1 1, .s 2 1, .s 5 1] && goesOn s i && decide ((grp (ran s i)).sel 1 = ⟨BitVec.ofNat 64 e.2, true, false⟩)) = true ∧
    (let s := fabBase (regs [(2, 1 + 4 * 1024), (5, 5)])
     meets s i [.s 1 1, .s 2 1, .s 5 1] && goesOn s i && !((grp (ran s i)).sel 1).full &&
       decide ((ran s i).winWaits = [⟨0, 0, 1, 0, 1, 4, 5⟩])) = true ∧
    (let s := fabBase (regs [(2, 1 + 3 * 1024)])
     let j := Instr.winrel Pfx.none (f3 0 2 0)
     meets s j [.s 2 1] && goesOn s j && decide (descState ((ran s j).winDesc 1 3) = 2)) = true := by decide +kernel

/-- RLQ of an empty range, of one that a write-locked entry meets, and of one past it. -/
theorem witness_rlq :
    let i := Instr.rlq Pfx.none (f3 1 2 5)
    let s (n : BitVec 64) : State := { withS [(2, 0x1000), (5, n)] with
      cores := [(0, { Core.zero with locks := [(3, ⟨9, 0, 0, 0x1040, 0x1080, true⟩)] })] }
    ([(0, 0), (0x40, 0), (0x41, 2 + 4 * 3)].all fun e => meets (s e.1) i [.s 1 1, .s 2 1, .s 5 1] &&
      decide ((after (s e.1) i).map (fun h => h.sv 1) = some e.2)) = true := by decide +kernel

/-! ### Vectors -/

/-- Every v register of the witnesses, s1, s2 and the predicates 1 to 3 are full. -/
def vecOpds : List Opd := [.v 8 16 0xFFFF, .s 1 1, .s 2 1, .p 1, .p 2, .p 3]

/-- Integer vector instructions can issue and complete, at 32 and 64 bits. -/
theorem witness_vector_integer : ([Pfx.none, modTS 8 0].all fun x =>
    ([Instr.vadd x (f3 8 10 12), .vsub x (f3 8 10 12), .vmul x (f3 8 10 12), .vmulh x (f3 8 10 12), .vmad x (f3 8 10 12),
      .vmin x (f3 8 10 12), .vmax x (f3 8 10 12), .vabsd x (f3 8 10 12), .vand x (f3 8 10 12), .vor x (f3 8 10 12),
      .vxor x (f3 8 10 12), .vandn x (f3 8 10 12), .vshl x (f3 8 10 12), .vshr x (f3 8 10 12), .vsra x (f3 8 10 12),
      .vrot x (f3 8 10 12), .vclz x (f3 8 10 0), .vpopc x (f3 8 10 0), .vbrev x (f3 8 10 0), .vneg x (f3 8 10 0),
      .vabs x (f3 8 10 0), .vnot x (f3 8 10 0), .vbfx x (f3 8 10 12), .vbfi x (f3 8 10 12), .vmov x (f3 8 10 0),
      .vsel x (f3 8 10 12), .vbcast x (f3 8 2 0), .vextr x (f3 1 10 2), .vins x (f3 8 2 2)].all fun i =>
      meets base i vecOpds && goesOn base i)) = true ∧
    ([Instr.viota Pfx.none (f3 8 0 0), .vlane Pfx.none (f3 8 0 0)].all fun i => meets base i vecOpds && goesOn base i) = true := by
  decide +kernel

/-- R255: S32 addition of the greatest number and 1 wraps with IOV, and with SAT stays; a guard leaves other lanes alone. -/
theorem test_vadd :
    let s := withG fun g => ((g.writeV 2 0 0x7FFFFFFF false).writeV 3 0 1 false).writeV 1 1 9 false
    ((after s (.vadd ⟨none, some { Mod.zero with sat := true }, none⟩ r123)).map fun h => (h.vel 1 0, h.flags)) =
      some (⟨0x7FFFFFFF, true, false, false⟩, 0x20) ∧
    (let t := withG fun g => ((regs [] g).putP 1 ⟨1, true⟩).writeV 1 1 9 false
     (after t (.vadd ⟨none, some { Mod.zero with pred := 1 }, none⟩ r123)).map fun h => ((h.vel 1 0).val, (h.vel 1 1).val)) =
      some (0, 9) := by decide +kernel

/-- Compares: unpoisoned, and with a poisoned source in an active lane. -/
theorem witness_compares : (([0, 1, 2, 3, 4, 5, 6].map fun fn => Instr.vcmp Pfx.none fn (f3 1 8 9)) ++
      ([0, 1, 2, 3, 4, 5, 6, 7].map fun fn => Instr.vfcmp Pfx.none fn (f3 1 8 9)) ++ [Instr.vmatch Pfx.none (f3 1 16 0)]).all (fun i =>
      meets base i vecOpds && goesOn base i) = true ∧
    (let s := withG fun g => g.writeV 9 3 1 true
     [Instr.vcmp Pfx.none 2 (f3 1 8 9), .vfcmp Pfx.none 2 (f3 1 8 9), .vmatch Pfx.none (f3 1 9 0)].all fun i =>
      meets s i vecOpds && stopsFor s i 0x05 && decide ((after s i).bind (fun h => h.stop.map Stop.mask) = some 8)) = true := by
  decide +kernel

/-- R334, R336: VMATCH marks the first holder of each value in its tile; an index of a PART past 4 is refused. -/
theorem test_vmatch :
    ((after (withG fun g => (g.writeV 2 0 7 false).writeV 2 2 7 false) (.vmatch Pfx.none (f3 1 2 0))).map fun h => (h.pel 1).bits) =
      some 3 ∧ decode [rrrWord 0x21 0 0 5 7] = .illegal 0 := by decide +kernel

/-- Floating-point instructions complete. -/
theorem witness_vector_float : ([Instr.vfadd Pfx.none (f3 8 9 10), .vfsub Pfx.none (f3 8 9 10), .vfmul Pfx.none (f3 8 9 10),
    .vfma Pfx.none (f3 8 9 10), .vfms Pfx.none (f3 8 9 10), .vfmin Pfx.none (f3 8 9 10), .vfmax Pfx.none (f3 8 9 10),
    .vfabsd Pfx.none (f3 8 9 10), .vfcpys Pfx.none (f3 8 9 10), .vfneg Pfx.none (f3 8 9 0), .vfabs Pfx.none (f3 8 9 0),
    .vfclass Pfx.none (f3 8 9 0), .vffloor Pfx.none (f3 8 9 0), .vfceil Pfx.none (f3 8 9 0), .vfrint Pfx.none (f3 8 9 0),
    .vffrac Pfx.none (f3 8 9 0)].all fun i => meets base i vecOpds && goesOn base i) = true := by decide +kernel

/-- R266: 1.5 + 3 = 4.5 exactly; the greatest finite number doubled overflows to infinity with OF and NX. -/
theorem test_vfadd :
    ((after (withG fun g => (g.writeV 8 0 0x3FC00000 false).writeV 10 0 0x40400000 false) (.vfadd Pfx.none (f3 20 8 10))).map
      fun h => ((h.vel 20 0).val, h.flags)) = some (0x40900000, 0) ∧
    ((after (withG fun g => g.writeV 2 0 0x7F7FFFFF false) (.vfadd Pfx.none (f3 1 2 2))).map
      fun h => ((h.vel 1 0).val, h.flags)) = some (0x7F800000, 0x14) := by decide +kernel

/-- Special functions issue and their results fill; VSQRT of 2.25 is 1.5. -/
theorem witness_special : ([Instr.vrcp Pfx.none (f3 20 8 0), .vrsq Pfx.none (f3 20 8 0), .vsqrt Pfx.none (f3 20 8 0),
      .vfdiv Pfx.none (f3 20 8 10)].all fun i => meets base i vecOpds && goesOn base i &&
        decide ((ran base i).sfuops.length = 1)) = true ∧
    ([Instr.vexp2 Pfx.none (f3 20 8 0), .vlog2 Pfx.none (f3 20 8 0), .vsin Pfx.none (f3 20 8 0), .vcos Pfx.none (f3 20 8 0),
      .vtanh Pfx.none (f3 20 8 0), .vsigm Pfx.none (f3 20 8 0), .verf Pfx.none (f3 20 8 0), .vlog1p Pfx.none (f3 20 8 0)].all
        fun i => meets base i (.v 20 1 0xFFFF :: vecOpds)) = true ∧
    (let s := ran (withG fun g => g.writeV 2 0 0x40100000 false) (.vsqrt Pfx.none (f3 1 2 0))
     (Tab.find s.sfuops 0).any (fun o => decide (o.res.map (·.1)).Nodup) &&
       decide ((grp (ran s (.sfuResult 0))).vel 1 0 = ⟨0x3FC00000, true, false, false⟩)) = true := by decide +kernel

/-- Conversions complete; R330: a BF16 low half unpacks to F32. -/
theorem witness_conversions : ([Instr.vcvt Pfx.none (f3 20 16 5), .vpack2 Pfx.none (f3 20 8 9), .vpack4 Pfx.none (f3 20 8 10),
      .vunpk2lo Pfx.none (f3 20 8 0), .vunpk2hi Pfx.none (f3 20 8 0), .vunpk4 Pfx.none (f3 20 8 0), .vqscl Pfx.none (f3 20 8 0)].all
      fun i => meets base i (.v 20 4 0xFFFF :: vecOpds) && goesOn base i) = true ∧
    (let s := withG fun g => (g.writeV 16 3 3 false).writeV 8 3 0x3FC00000 false
     decide ((after s (.vcvt Pfx.none (f3 20 16 5))).map (fun h => (h.vel 20 3).val) = some 0x40400000) &&
       decide ((after s (.vunpk2hi Pfx.none (f3 20 8 0))).map (fun h => (h.vel 20 3).val) = some 0x3FC00000)) = true := by decide +kernel

/-- Shuffles, reductions, scans, votes and predicate instructions complete. -/
theorem witness_lane_exchange : ([Instr.vshfl Pfx.none (f3 20 8 16), .vshflup Pfx.none (f3 20 8 2), .vshfldn Pfx.none (f3 20 8 2),
    .vshflx Pfx.none (f3 20 8 2), .vredadd Pfx.none (f3 20 16 0), .vredmin Pfx.none (f3 20 16 0), .vredmax Pfx.none (f3 20 16 0),
    .vredand Pfx.none (f3 20 16 0), .vredor Pfx.none (f3 20 16 0), .vscanadd Pfx.none (f3 20 16 0),
    .vscanmax Pfx.none (f3 20 16 0), .vballot Pfx.none (f3 1 2 0), .vany Pfx.none (f3 1 2 0), .vall Pfx.none (f3 1 2 0),
    .pcnt Pfx.none (f3 1 2 0), .pand Pfx.none (f3 1 2 3), .por Pfx.none (f3 1 2 3), .pxor Pfx.none (f3 1 2 3),
    .pandn Pfx.none (f3 1 2 3), .pnot Pfx.none (f3 1 2 0), .pmov Pfx.none (f3 1 2 0), .pfirst Pfx.none (f3 1 2 0),
    .part Pfx.none (f3 0 0 4)].all fun i => meets base i (.v 20 1 0xFFFF :: vecOpds) && goesOn base i) = true := by
  decide +kernel

/-- R274, R335: the scan of 1, 2, 4 in lanes 0 to 2 holds 7 in lane 2 and after; R332: shuffled up by 2, lane 0 keeps its
own element and lane 2 takes that of lane 0. -/
theorem test_scan_shuffle :
    (let s := withG fun g => (((regs [(2, 2)] g).writeV 16 0 1 false).writeV 16 1 2 false).writeV 16 2 4 false
     decide ((after s (.vscanadd Pfx.none (f3 20 16 0))).map (fun h => ((h.vel 20 2).val, (h.vel 20 15).val)) = some (7, 7)) &&
     decide ((after s (.vshflup Pfx.none (f3 20 16 2))).map (fun h => ((h.vel 20 0).val, (h.vel 20 2).val)) = some (1, 1))) = true := by
  decide +kernel

/-! ### Engines, barriers, events -/

/-- The machine with a copy's operands: s2 the destination 0x100 and s3 the source 0x200 in the scratchpad, s4 strides, s5
the control word: n bytes, `rows` rows, both in space 2. -/
def copyBase (n rows : Nat) : State :=
  withS [(2, 0x100), (3, 0x200), (4, 0x40 + 0x40 * 2 ^ 32), (5, BitVec.ofNat 64 (n + 2 * 2 ^ 32 + 2 * 2 ^ 35 + rows * 2 ^ 40))]

/-- Copies with no bytes and with some: the token is written, or empty with an operation and its locks. -/
theorem witness_copies : ([(Instr.cpy Pfx.none (f3 1 2 5), 0), (.cpy2d Pfx.none (f3 1 2 5), 2)].all fun e =>
      ([0, 8].all fun n =>
        let s := copyBase n e.2
        meets s e.1 [.s 2 3, .s 5 1, .s 1 1] && goesOn s e.1 && decide ((ran s e.1).copies.length = if n = 0 then 0 else 1) &&
          decide (((ran s e.1).core 0).locks.length = if n = 0 then 0 else 2) &&
          decide (((grp (ran s e.1)).sel 1).full = decide (n = 0)))) = true ∧
    (let s := withS [(2, 0x100), (3, 0x55), (5, 8 + 2 * 2 ^ 32)]
     meets s (.cpyfill Pfx.none (f3 1 2 5)) [.s 2 2, .s 5 1, .s 1 1] && goesOn s (.cpyfill Pfx.none (f3 1 2 5)) &&
       decide ((ran s (.cpyfill Pfx.none (f3 1 2 5))).copies.length = 1)) = true ∧
    Claims.copyOk 0 (grp (copyBase 8 0)) 2 5 ∧ Claims.copyOk 1 (grp (copyBase 8 2)) 2 5 := by
  unfold Claims.copyOk; decide +kernel

/-- The last chunk of an 8-byte copy moves its words, ends the operation and fills the token; CPYCAN of a pending copy marks
it, of none does nothing. -/
theorem witness_copy_chunk :
    let s := ran { copyBase 8 0 with mem := base.mem ++ [(region 16 + 0x201, 9)] } (.cpy Pfx.none (f3 1 2 5))
    let j := Instr.cpycan Pfx.none (f3 1 0 0)
    ((Tab.find s.copies 0).any fun c => decide (c.bytes ≤ 4096) && !c.stopped && c.wait.isNone && !s.follows 0 0 0 (s.spansOf 0 0)) = true ∧
    (let t := ran s (.copyChunk 0)
     decide (t.copies = []) && decide ((grp t).sel 1 = ⟨8, true, false⟩) && decide (t.readLE (region 16 + 0x100) 8 = 9 * 256)) = true ∧
    (meets s j [] && goesOn s j && ((Tab.find (ran s j).copies 0).any fun c => c.cancel) && meets base j [] && goesOn base j) = true := by
  decide +kernel

/-- The machine with a page store: two live pages of one token each, named by the block table at 0x1300_1000 of length 2 and
capacity 4, two free descriptors and two free frames in HBM4, one in LPDDR-6. -/
def kvState (f : Group → Group) (length : Nat) : State :=
  let rs : List (Nat × BitVec 64) := [(0x5000, 1), (0x5008, 0x12000000), (0x5010, 4), (0x5018, 2 + 2 * 2 ^ 27),
    (0x5020, 0x12100000), (0x5028, 2 + 8 * 2 ^ 27), (0x5030, 0x12200000), (0x5038, 1 + 8 * 2 ^ 27)]
  let ws : List (Nat × BitVec 64) := [(0x12000000, 0x10001), (0x12000008, 0x4000), (0x12000010, 0x10001), (0x12000018, 0x4001),
    (0x12000028, 3 * 2 ^ 32), (0x12000038, 0x7FFFFFF * 2 ^ 32), (0x12100000, 0x4002), (0x12100008, 0x4003),
    (0x12200000, 0x4000), (0x13000000, 0x10B010100), (0x13001000, BitVec.ofNat 64 (length + length * 2 ^ 32)), (0x13001008, 4),
    (0x13001010, 0x13000000), (0x13001020, 2 ^ 63), (0x13001028, 1 + 2 ^ 63)]
  ws.foldl (fun s e => s.write64 e.1 e.2) (rs.foldl (fun s e => s.setReg e.1 e.2) (withG f))

/-- GATH, SCAT and KVSEND of two tokens and one head arrive at the unit. -/
theorem witness_page_copies :
    let s := kvState (regs [(2, 0x13001000), (3, 0x100), (4, 2 * 2 ^ 32), (5, 0x10000)]) 2
    ([Instr.gath Pfx.none (f3 1 2 0), .scat Pfx.none (f3 1 2 0), .kvsend Pfx.none (f3 1 2 0)].all fun i =>
      meets s i [.s 2 4, .s 1 1] && goesOn s i && decide ((ran s i).psq.length = 1) && decide ((ran s i).copies.length = 1)) = true ∧
    s.quiet 0 0 = true := by decide +kernel

/-- The machine whose team has two groups, of which the one at slot 1 is as good as waiting elsewhere. -/
def twoGroups : State :=
  { base with teams := [(0, { placedTeam with nGroups := 2, slots := [(0, 0, 0), (1, 0, 1)], bars := [] })] }

/-- BAR as the last arrival, as an earlier one, and after the phase has changed; BARARR; BARWAIT. -/
theorem witness_barriers :
    (meets base (.bar (f3 0 0 1)) [] && goesOn base (.bar (f3 0 0 1)) && meets twoGroups (.bar (f3 0 0 1)) [] &&
      waitsIn twoGroups (.bar (f3 0 0 1)) && goesOn base (.bararr (f3 1 0 1)) && meets twoGroups (.bararr (f3 1 0 1)) [.s 1 1] &&
      decide ((grp (ran twoGroups (.bararr (f3 1 0 1)))).sv 1 = 0)) = true ∧
    (let s := withG fun g => { g with barSeen := [(1, true)] }
     goesOn s (.bar (f3 0 0 1))) = true ∧
    (let s := withS [(2, 1)]
     meets s (.barwait (f3 0 2 1)) [.s 2 1] && goesOn s (.barwait (f3 0 2 1)) && waitsIn base (.barwait (f3 0 2 1))) = true := by
  decide +kernel

/-- STAGEACQ at its phase and STAGEREL; a ring without stages. -/
theorem witness_stages :
    (meets base (.stageacq (f3 0 2 1)) [.s 2 1] && goesOn base (.stageacq (f3 0 2 1)) && goesOn base (.stagerel (f3 0 2 1)) &&
      decide ((ran base (.stagerel (f3 0 2 1))).teams.map (fun (e : Nat × Team) => e.2.phases) = [0x100#32])) = true ∧
    (let s := { base with teams := [(0, { placedTeam with rings := 0 })] }
     [Instr.stageacq (f3 0 2 1), .stagerel (f3 0 2 1)].all fun i => meets s i [] && stopsFor s i 0x45) = true := by
  decide +kernel

/-- The machine with an event table of 4 entries at 0x1400_0000 for context 0. -/
def evState (l : List (Nat × BitVec 64)) : State :=
  { withS l with grids := [], ctxs := [(0, { Ctx.zero with evt := 0x14000000, evn := 4 })] }

/-- EVSIG and EVWAIT of the last event of the table: the count, and a threshold met and not met. -/
theorem witness_events :
    (let s := evState [(2, 3), (3, 0)]
     meets s (.evsig (f3 0 2 0)) [.s 2 1] && goesOn s (.evsig (f3 0 2 0)) &&
       decide ((ran s (.evsig (f3 0 2 0))).readLE 0x14000018 4 = 1) && meets s (.evwait (f3 0 2 3)) [.s 2 1, .s 3 1] &&
       goesOn s (.evwait (f3 0 2 3))) = true ∧
    (let s := evState [(2, 3), (3, 1)]
     waitsIn s (.evwait (f3 0 2 3))) = true ∧
    (let s := evState [(2, 4)]
     stopsFor s (.evsig (f3 0 2 0)) 0x01) = true := by decide +kernel

/-- The machine with the placed grid's own descriptor at 0x1500_0000. -/
def launchState (a : BitVec 64) : State :=
  (placedGrid.desc.zipIdx).foldl (fun s e => s.write64 (0x15000000 + 8 * e.2) e.1) { withS [(2, a)] with grids := [] }

/-- LAUNCH of a good descriptor, and of an address that is not a multiple of 128. -/
theorem witness_launch :
    let i := Instr.launch (f3 1 2 0)
    (meets (launchState 0x15000000) i [.s 2 1, .s 1 1] && goesOn (launchState 0x15000000) i &&
      decide ((ran (launchState 0x15000000) i).grids.length = 1) && meets (launchState 0x15000040) i [.s 2 1, .s 1 1] &&
      stopsFor (launchState 0x15000040) i 0x50) = true ∧ teamsOf placedGrid.desc = 1 := by decide +kernel

/-- EXIT of the team's last group, and of one of two. -/
theorem witness_exit :
    (meets base .exit [] && decide ((ran base .exit).groups = []) && decide ((ran base .exit).teams = []) &&
      meets twoGroups .exit [] && decide ((ran twoGroups .exit).groups = []) &&
      decide ((ran twoGroups .exit).teams.map (fun (e : Nat × Team) => e.2.ended) = [1])) = true ∧
    base.engineBusy 0 0 = false ∧ (base.accessesOf 0 0).isEmpty = true := by decide +kernel

/-! ### Tiles and the matrix unit -/

/-- Tile instructions complete, with tiles full; R391: row 1 of tile 2 receives the lanes of v8 and v9 in order. -/
theorem witness_tiles :
    ([Instr.tswr Pfx.none ⟨8, 2, true, 2, 1⟩, .tswr Pfx.none ⟨8, 2, false, 2, 1⟩, .tsrd Pfx.none ⟨8, 2, true, 2, 31⟩,
      .tzero Pfx.none (f3 2 0 0), .tmov Pfx.none (f3 2 3 0), .ttrans Pfx.none (f3 2 3 0)].all fun i =>
      meets base i [.v 8 2 0xFFFF, .s 2 1] && goesOn base i) = true ∧
    (let s := ran (withG fun g => (g.writeV 8 3 5 false).writeV 9 4 6 true) (.tswr Pfx.none ⟨8, 2, false, 2, 1⟩)
     (s.team 0).any fun t => decide (t.tile 2 1 3 = ⟨5, false⟩) && decide (t.tile 2 1 20 = ⟨6, true⟩)) = true := by
  decide +kernel

/-- TLD and TST issue over the scratchpad; a base that is no multiple of 4 is an illegal operand. -/
theorem witness_tile_memory :
    let s (n : BitVec 64) : State := { withS [(2, n), (3, 0x80)] with mem := base.mem ++ [(region 16 + 0x184, 7)] }
    ([Instr.tld (modTS 0 2) (f3 2 2 3), .tst (modTS 0 2) (f3 2 2 3)].all fun i => meets (s 0x100) i [.s 2 1, .s 3 1] &&
      goesOn (s 0x100) i && decide ((ran (s 0x100) i).memops.length = 1) && stopsFor (s 0x102) i 0x01) = true := by
  decide +kernel

/-- MTILE that keeps four of the group's accumulators, MZERO, MWAIT and MSTAT. -/
theorem witness_accumulators :
    (let s := withS [(2, 0xF)]
     meets s (.mtile Pfx.none (f3 1 2 0)) [.s 2 1, .s 1 1] && goesOn s (.mtile Pfx.none (f3 1 2 0)) &&
       decide ((grp (ran s (.mtile Pfx.none (f3 1 2 0)))).sv 1 = 0xFFFF) &&
       decide ((grp (ran s (.mtile Pfx.none (f3 1 2 0)))).accOwned = 0xF)) = true ∧
    ([Instr.mzero Pfx.none (f3 15 0 0), .mwait Pfx.none, .mstat Pfx.none (f3 1 0 0)].all fun i =>
      meets base i [.s 1 1] && goesOn base i) = true ∧
    (base.accOf (grp base) 15).full = true ∧ base.accBusy 0 (placedTeam.accKey (grp base) 15) base.nextId = false := by
  decide +kernel

/-- MSPEC on an empty and on a full condition; MCOMMIT and MDISCARD of an open region whose shadows are full, of a decided
one, and with none; the resolution of a decided region. -/
theorem witness_regions :
    let i := Instr.mspec Pfx.none (f3 0 2 3)
    (let s := withG fun g => g.emptyS 2
     let t := ran s i
     meets s i [.s 3 1] && goesOn s i && ((grp t).spec.any fun p => p.decided.isNone && decide (p.shadowed = 0xFF)) &&
       ([Instr.mcommit Pfx.none, .mdiscard Pfx.none].all fun j => meets t j [] && goesOn t j && (grp (ran t j)).spec.isNone) &&
       (let u := { t with groups := t.groups.map fun (e : Nat × Group) => (e.1, { e.2 with
          spec := e.2.spec.map fun p => { p with decided := some true } }) }
        goesOn u (.mcommit Pfx.none) && (grp u).spec.isSome && (grp (ran u (.specResolution 0 0))).spec.isNone)) = true ∧
    (meets base i [.s 3 1] && goesOn base i && (grp (ran base i)).spec.isNone &&
      meets base (.mcommit Pfx.none) [] && stopsFor base (.mcommit Pfx.none) 0x44 && stopsFor base (.mdiscard Pfx.none) 0x44) = true := by
  decide +kernel

/-- The machine with the operands of a loop of one row, one column and K terms of F32 from the scratchpad: A at 0x100 (2.0),
B at 0x200 (3.0), control in s6: accumulator 0, zeroed first. -/
def loopBase (K : BitVec 64) : State :=
  { withS [(2, 0x100), (3, 0x200), (4, 0), (5, K), (6, 11 * 2 ^ 18 + 11 * 2 ^ 23 + 2 * 2 ^ 28 + 2 * 2 ^ 31 + 2 ^ 34)] with
    mem := base.mem ++ [(region 16 + 0x103, 0x40), (region 16 + 0x202, 0x40), (region 16 + 0x203, 0x40)] }

/-- MLOOP and MLOOPQ start; a step adds 2 × 3 and the loop, of one K-block, ends; with more terms it goes on. -/
theorem witness_loops :
    let i := Instr.mloop Pfx.none (f3 1 2 6)
    (([i, Instr.mloopq Pfx.none (f3 1 2 6)].all fun j => meets (loopBase 1) j [.s 2 4, .s 6 1, .s 1 1] && goesOn (loopBase 1) j) &&
      (let s := ran (loopBase 1) i
       ((Tab.find s.matops 0).any fun m => decide (m.kdone < m.nb) && s.matReady 0 m && m.wait.isNone && !m.shadow) &&
       decide ((ran s (.matrixKStep 0)).matops = []) &&
       decide (((ran s (.matrixKStep 0)).accOf (grp s) 0).el 0 0 = ⟨0x40C00000, false⟩) && !((grp s).sel 1).full &&
       ((grp (ran s (.matrixKStep 0))).sel 1).full) &&
      (let s := ran (ran (loopBase 1000) i) (.matrixKStep 0)
       (Tab.find s.matops 0).any fun m => decide (m.kdone = 1))) = true ∧
    Claims.loopOk false (grp (loopBase 1)) 2 6 := by
  unfold Claims.loopOk; decide +kernel

/-- MDRAIN of one element to the scratchpad completes with four bytes; ACCSAVE and ACCLOAD start. -/
theorem witness_transfers :
    let s := withS [(2, 0x100), (5, 1 + 2 ^ 16)]
    let x := modTS 0 2
    let d := Instr.mdrain x (f3 1 0 2)
    (meets s d [.s 2 4, .s 1 1] && goesOn s d &&
      (let t := ran s d
       ((Tab.find t.matops 0).any fun m => t.matReady 0 m && decide (m.op = 7)) &&
       decide ((ran t (.matrixOpComplete 0)).matops = []) && decide ((grp (ran t (.matrixOpComplete 0))).sel 1 = ⟨4, true, false⟩)) &&
      ([Instr.accsave x (f3 1 0 2), .accload x (f3 0 2 0)].all fun i => meets s i [.s 2 1, .s 1 1] && goesOn s i &&
        decide ((ran s i).matops.length = 1) && ((Tab.find (ran s i).matops 0).any fun m => (ran s i).matReady 0 m && m.wait.isNone))) = true := by
  decide +kernel

/-! ### Sequences, tapes, weight slots and pages -/

/-- The machine with Carillon on for context 0, 4 slots at 0x1600_0000; slot 1 in a given state, with room for 100 tokens,
a vocabulary of 1000, its output at 0x1610_0000 and an odd increment; s2 names the slot, and more. -/
def seqState (st : Nat) (l : List (Nat × BitVec 64)) : State :=
  let ws : List (Nat × BitVec 64) := [(0x16000100, BitVec.ofNat 64 st), (0x16000118, 100 + 100 * 2 ^ 32),
    (0x16000130, 1000 * 2 ^ 32), (0x16000158, 0x16100000), (0x16000170, 7), (0x16000180, 3)]
  ws.foldl (fun s e => s.write64 e.1 e.2) (((withS ((2, 1) :: l)).setReg 0x4000 (1 + 4 * 2 ^ 27)).setReg 0x4008 0x16000000)

/-- Each instruction of the slots' generators and entries completes, its slot in use. -/
theorem witness_slots :
    let r := f3 4 2 1
    ([(Instr.rngdraw Pfx.none r, [Opd.s 2 1, .v 4 1 0xFFFF]), (.rngjump Pfx.none (f3 0 2 6), [.s 2 1, .s 6 1]),
        (.rngget Pfx.none r, [.s 2 1, .s 4 2]), (.rngset Pfx.none r, [.s 2 1]), (.rngset Pfx.none (f3 8 2 1), [.s 2 1]),
        (.rngset Pfx.none (f3 4 2 3), [.s 2 1]), (.rngset Pfx.none (f3 4 2 4), [.s 2 1]), (.btld Pfx.none (f3 4 2 5), [.s 2 1, .s 5 1, .s 4 1]),
        (.seqstat Pfx.none r, [.s 2 1, .s 4 1]), (.seqpark Pfx.none r, [.s 2 1]), (.seqwake Pfx.none r, [.s 2 1]),
        (.seqdone Pfx.none r, [.s 2 1]), (.seqemit Pfx.none (f3 1 2 6), [.s 2 1, .s 6 1, .s 1 1]),
        (.maskld Pfx.none (f3 1 2 6), [.s 2 1, .s 6 1, .p 1, .p 14])].all fun e =>
      let s := seqState 3 [(4, 5), (5, 0x17000000), (6, 9)]
      meets s e.1 e.2 && goesOn s e.1) = true ∧ Claims.slotOk (seqState 3 []) (grp (seqState 3 [])) 2 13 := by
  unfold Claims.slotOk; decide +kernel

/-- R276: the first draw of state 7, increment 3, as the generator's formula gives it, moves the state on. -/
theorem test_rngjump_moves : ((ran (seqState 3 [(6, 2)]) (.rngjump Pfx.none (f3 0 2 6))).readLE 0x16000170 16) =
    (lcgNext 3 (lcgNext 3 7)).toNat ∧ lcgNext 3 7 = 7 * 0x9E6C63D0876A1F45B2C70A39D4E81B65 + 3 := by decide +kernel

/-- What the requests leave: a park noted, a wake that cancels it, a slot done, an emission. -/
theorem witness_requests :
    let s := seqState 3 [(6, 9)]
    let t := ran s (.seqpark Pfx.none (f3 0 2 1))
    (decide (t.carillon.reqs = [(1, 1)]) && decide ((ran { t with groups := s.groups } (.seqwake Pfx.none (f3 0 2 0))).carillon.reqs = [(2, 1)]) &&
      decide ((ran s (.seqdone Pfx.none (f3 0 2 0))).readLE 0x16000100 8 = 7) &&
      decide ((ran s (.seqemit Pfx.none (f3 1 2 6))).readLE 0x16100000 4 = 9) &&
      decide ((grp (ran (seqState 8 [(6, 9)]) (.seqemit Pfx.none (f3 1 2 6)))).sv 1 = 3)) = true := by decide +kernel

/-- BTST waits for its buffer, and with it read completes: here with the read's lanes done. -/
theorem witness_btst :
    let i := Instr.btst Pfx.none (f3 4 2 5)
    let s := seqState 3 [(4, 0x100), (5, 0x17000000)]
    let o : MemOp := { (grp s).newOp Pfx.none 0 .engine 8 8 with
      mask := 1, per := 32, engine := some (2, gkey 0 0)
      lanes := (List.range 32).map fun j => { laneReq j 0 j 0 with at_ := .done } }
    (meets s i [.s 2 1, .s 5 1, .s 4 1] && waitsIn s i) = true ∧
    (let t := { s with memops := [(5, o)] }
     meets t i [.s 2 1, .s 5 1, .s 4 1] && goesOn t i && decide ((ran t i).readLE 0x16000140 8 = 8)) = true := by decide +kernel

/-- The bitmap instructions of 1024 bits; BSET with its position past the bitmap. -/
theorem witness_bitmaps :
    ([Instr.brank Pfx.none (f3 1 2 0), .bsel Pfx.none (f3 1 2 0), .bcnt Pfx.none (f3 1 2 0), .bset Pfx.none (f3 1 2 0),
        .bclr Pfx.none (f3 1 2 0)].all fun i =>
      let s := withS [(2, 0x17000000)]
      meets s i [.s 2 1, .s 1 1, .v 1 1 0xFFFF, .p 14] && goesOn s i && decide ((ran s i).memops.length = 1)) = true ∧
    (let s := withG fun g => (List.range 16).foldl (fun g l => g.writeV 1 l 1024 false) (regs [(2, 0x17000000)] g)
     let i := Instr.bset Pfx.none (f3 1 2 0)
     meets s i [.s 2 1, .v 1 1 0xFFFF, .p 14] && goesOn s i && decide ((ran s i).memops = [])) = true := by decide +kernel

/-- The machine with a tape of 16 entries at 0x1700_0000, its control word and its counts as given. -/
def tapeState (ctl puts gets : BitVec 64) (l : List (Nat × BitVec 64)) : State :=
  let ws : List (Nat × BitVec 64) := [(0x17000000, 0x17100000), (0x17000008, ctl), (0x17000010, puts), (0x17000018, gets),
    (0x17100000, 5), (0x17200008, 6)]
  ws.foldl (fun s e => s.write64 e.1 e.2) (withS ((2, 0x17000000) :: l))

/-- TAPEGET of an entry and of an empty closed tape; TAPEPUT that closes, that copies, and to a closed tape. -/
theorem witness_tapes :
    let i := Instr.tapeget (f3 8 2 0)
    let j := Instr.tapeput (f3 0 2 5)
    (let s := tapeState 4 1 0 []
     meets s i [.s 2 1, .s 8 4, .p 14] && goesOn s i && decide ((grp (ran s i)).sv 8 = 5)) = true ∧
    (let s := tapeState 0x24 1 1 [(8, 3)]
     meets s i [.s 2 1, .s 8 4, .p 14] && goesOn s i && decide ((grp (ran s i)).sv 8 = 0)) = true ∧
    (let s := tapeState 4 1 0 []
     meets s j [.s 2 1, .s 5 1, .p 14] && goesOn s j && decide ((ran s j).readLE 0x17000008 8 = 0x24)) = true ∧
    (let s := tapeState 4 0 0 [(5, 0x17200000)]
     meets s j [.s 2 1, .s 5 1, .p 14] && goesOn s j && decide ((ran s j).readLE 0x17100008 8 = 6)) = true ∧
    (let s := tapeState 0x24 0 0 [(5, 0x17200000)]
     meets s j [.s 2 1, .s 5 1, .p 14] && goesOn s j) = true := by decide +kernel

/-- DEPSIGNAL adds 1; DEPWAIT at and above its counter. -/
theorem witness_dependence_counters :
    let s := withS [(2, 0x17000000), (3, 0), (4, 1)]
    let i := Instr.depsignal (f3 0 2 0)
    (meets s i [.s 2 1] && goesOn s i && decide ((ran s i).readLE 0x17000000 4 = 1) &&
      meets s (.depwait (f3 0 2 3)) [.s 2 1, .s 3 1] && goesOn s (.depwait (f3 0 2 3)) && waitsIn s (.depwait (f3 0 2 4))) = true := by
  decide +kernel

/-- The machine with a table of two weight slots at 0x1700_0000: their dwords 0, the second one's LAST less. -/
def wslotState (d0 d1 : BitVec 64) (b : BitVec 64) : State :=
  let ws : List (Nat × BitVec 64) := [(0x17000000, 2), (0x17000040, d0), (0x17000048, 5), (0x17000050, d1), (0x17000058, 4)]
  ws.foldl (fun s e => s.write64 e.1 e.2) (withS [(2, 0x17000000), (3, b)])

/-- WSLOT: a hit, a slot to load, starvation. WREL: loaded, not loading, a holder less, none held. -/
theorem witness_weight_slots :
    let i := Instr.wslot (f3 1 2 3)
    let j := Instr.wrel (f3 0 2 3)
    ([(wslotState 0 0x100000007 7, 1#64), (wslotState 0 0 7, 0x10001#64), (wslotState 0x10000 0x400000000 7, 0x20000#64)].all
        fun (e : State × BitVec 64) =>
      meets e.1 i [.s 2 1, .s 3 1, .s 1 1] && goesOn e.1 i && decide ((grp (ran e.1 i)).sv 1 = e.2)) = true ∧
    ([(wslotState 0x200010007 0 0x1000, 0x100010007), (wslotState 7 0 0x1000, 7), (wslotState 0x10007 0 0, 7),
        (wslotState 7 0 0, 7)].all fun (e : State × Nat) =>
      meets e.1 j [.s 2 1, .s 3 1, .p 14] && goesOn e.1 j && decide ((ran e.1 j).readLE 0x17000040 8 = e.2)) = true := by
  decide +kernel

/-- A page-store instruction arrives, is performed, and completes with the unit's result. -/
theorem witness_page_store :
    let s := kvState (regs [(2, 0x13001000), (3, 1)]) 2
    let i := Instr.kvalloc Pfx.none (f3 1 2 3)
    let t := ran s i
    let u := ran t (.pageStoreOperation (t.psq.head?.map (fun (e : Nat × PsOp) => e.1) |>.getD 0))
    (meets s i [.s 2 1, .s 3 1, .s 1 1] && waitsIn s i && decide (t.psq.length = 1) &&
      (t.psq.all fun (e : Nat × PsOp) => t.psReady e.1 e.2 && decide (e.2.slot ≠ 16)) &&
      (u.psq.all fun (e : Nat × PsOp) => e.2.done) && decide ((grp (ran (u.setGroup (grp s)) i)).sv 1 = 3)) = true := by
  decide +kernel

/-- A page move that is done, its page and both frames apart; a handoff at its end, completed and refused. -/
theorem witness_moves_and_handoffs :
    (let s := { kvState id 2 with moves := [⟨0, 0x4003, false⟩] }
     decide ((s.pd 0).place + 0x10000 ≤ 0x4003 * 0x10000) && decide (s.pdKey 0 + 16 ≤ (s.pd 0).place) &&
       decide ((ran s (.pageMove 0)).moves = []) && decide (((ran s (.pageMove 0)).pd 0).frame = 0x4003)) = true ∧
    (let s := ran (copyBase 8 0) (.cpy Pfx.none (f3 1 2 5))
     let t := { s with copies := s.copies.map fun (e : Nat × CopyOp) => (e.1, { e.2 with form := 4, phase := 1 }) }
     decide (((ran t (.handoffCompletion 0 true)).group 0 0).map (fun h => h.sel 1) = some ⟨8, true, false⟩) &&
       decide (((ran t (.handoffCompletion 0 false)).group 0 0).map (fun h => h.late.map fun l => l.cause) = some [0x36])) = true := by
  decide +kernel

/-- The opening of a handoff of one token with tag 5, at port 0. -/
def opening : HandoffMsg :=
  { sender := 3, addr := 9, jobId := 0, tag := 5, ordinal := 0, chunk := 0, opening := true, format := 0x10B010100, l := 1, k := 1, payload := [] }

/-- The machine with a receive ring of 1 entry at 0x1300_2000 for tag 5 and the block table; port 0 has address 9. -/
def rxState : State :=
  let s := ((kvState id 0).setReg 0x5048 0x13002000).setReg 0x5050 1
  let s := s.setReg 0x5068 9
  [(0x13002000, 0x400000005), (0x13002008, 0x13001000), (0x13002010, 0x100000000)].foldl (fun s (e : Nat × BitVec 64) => s.write64 e.1 e.2) s

/-- An opening that is taken, one without a posted entry, and data that comes before its opening. -/
theorem witness_handoffs_arrive :
    (rxState.isOwnPort opening && (rxState.reg 0x5000).getLsbD 0 && decide (rxState.receiveOf 3 5 = none) &&
      decide (rxState.rxMatch 5 = some 0) && decide (((ran rxState (.handoffReceive opening)).receives.map fun r => r.pages.length) = [1]) &&
      decide (rxState.rxMatch 6 = none) && decide ((ran rxState (.handoffReceive { opening with tag := 6 })).ueOut.length = 1) &&
      decide ((ran rxState (.handoffReceive { opening with opening := false })).receives.length = 1)) = true := by
  decide +kernel

/-! ### Observation, the driver's registers, placement -/

/-- RAMPHINT of 0 mW and of 500, BALLAST, TRACEON and TRACEOFF, CNTRD and TATRD, before the first tick and after. -/
theorem witness_power_and_trace :
    let s := withS [(2, 500)]
    (meets base (.ramphint (f3 0 2 0)) [.s 2 1] && goesOn base (.ramphint (f3 0 2 0)) && meets s (.ramphint (f3 0 2 0)) [.s 2 1] &&
      waitsIn s (.ramphint (f3 0 2 0)) && decide (((after s (.ramphint (f3 0 2 0))).map fun h => h.rampWait) = some (some (0, 500)))) = true ∧
    ([Instr.ballast (f3 0 2 0), .traceon (f3 0 0 3), .traceoff, .cntrd (f3 1 2 0), .tatrd (f3 1 2 0)].all fun i =>
      [s, { s with tatAt := some 9 }].all fun t => meets t i [.s 2 1, .s 1 1] && goesOn t i) = true ∧
    ((ran s (.ballast (f3 0 2 0))).core 0).ballast = 500 := by decide +kernel

/-- A sample of a working Damper, a die at its limit, and the standby that takes over. -/
theorem witness_damper :
    let s := { base.setReg 0x7000 (1000 * 2 ^ 16) with now := 100, damper := { Damper.zero with floor := 150000 } }
    let f := { base with damper := { Damper.zero with failed := true } }
    base.damper.failed = false ∧ (ran s (.damperSample 5)).damper.ballast = 150000 - 100000 - 5 ∧
    (ran (base.setReg 0x7020 (900 * 2 ^ 12)) (.thermalHot 0 900)).damper.hot = 1 ∧
    f.damper.standby = false ∧ (ran f .damperTakeover).damper.standby = true := by decide +kernel

/-- The machine with Tattoo on: a ring of 2 samples at the bottom of HBM4, empty. -/
def tatState : State := (base.setReg 0x8000 (1 + 1 * 2 ^ 6)).setReg 0x8008 0x18000000

/-- A tick is due with room in the ring and with none; a PC sample is due; a record waits, its context's ring having room; a
cluster without a group and without records is gated. -/
theorem witness_samples :
    let c : Ctx := { Ctx.zero with trcCtl := 1 * 2 ^ 8 + 3 * 2 ^ 13, trcBase := 0x19000000 }
    let b : TraceBuf := { TraceBuf.zero with recs := [7 + 1 * 2 ^ 176] }
    let s := { base with ctxs := [(0, c), (1, c)], now := 100, clk := 2700, traces := [(0, b), (5, { TraceBuf.zero with gateAt := some 0 })] }
    ((tatState.reg 0x8000).getLsbD 0 = true ∧ tatState.now.toNat % 2 ^ fld (tatState.reg 0x8000) 1 5 = 0 ∧ tatState.tatAt ≠ some tatState.now) ∧
    (ran (tatState.setReg 0x8010 1) .tattooTick).tatDrops = 1 ∧
    ((ran s (.pcSample 0 0)).group 0 0).map (fun h => h.sampleAt) = some 2700 ∧
    (recAsid (7 + 1 * 2 ^ 176) = 1 ∧ c.trcRoom 1 = true ∧ (ran s (.traceDrain 0)).readLE 0x19000000 8 = 7) ∧
    (ran s (.clusterPowerGate 5)).traces.map (fun (e : Nat × TraceBuf) => (e.1, e.2.gated)) = [(0, false), (5, true)] := by
  decide +kernel

/-- Invalidations of an aligned range, one that closes it, one that is not aligned; the end of one. -/
theorem witness_invalidations :
    let s := ran (memBase) (.prefetch Pfx.none (f3 0 2 2))
    let t := ran s (.mtuInvctlClose 0 0)
    (s.invRange 0 0).aligned = true ∧ (t.mtu 0).closed.length = 1 ∧ (t.mtu 0).inval.isSome = true ∧
    ((s.setReg (mtuReg 0 0x10) 0x10000).invRange 0 (1 * 2 ^ 17)).aligned = false ∧
    ((ran t (.mtuInvalidateComplete 0)).mtu 0).inval = none ∧ ((ran t (.mtuInvctlOpen 0 0)).mtu 0).closed = [] := by
  decide +kernel

/-- A record drains to a queue with room; a legal size, and one that is not. -/
theorem witness_fault_queue :
    let s := { (base.setReg (mtuReg 0 0x20) 7).setReg (mtuReg 0 0x18) 0x1A000000 with
      mtus := [(0, { base.mtu 0 with pend := [5], behind := [6] })] }
    (s.mtu 0).pend = [5] ∧ s.fqFull 0 = false ∧ (ran s (.faultRecordDrain 0)).readLE 0x1A000000 8 = 5 ∧
    ((ran s (.faultRecordDrain 0)).mtu 0).pend = [6] ∧ fld ((ran base (.fqSizeWrite 0 true 9)).reg (mtuReg 0 0x20)) 0 5 = 9 ∧
    (ran base (.fqSizeWrite 0 true 3)).reg (mtuReg 0 0x20) = base.reg (mtuReg 0 0x20) := by decide +kernel

/-- A stopped group is replayed or killed; one that is not stopped is left; a late fault stops; a fetch, and one whose word
is illegal. -/
theorem witness_replay :
    let st : Stop := ⟨0x11, .precise, 3, []⟩
    let s := withG fun g => { g with stop := some st }
    let l := withG fun g => { g with late := [st] }
    ((ran s (.replayGroup 0 0 0)).group 0 0).map (fun h => (h.stop, h.reissue)) = some (none, some 3) ∧
    (ran s (.killGroup 0 0 0)).group 0 0 = none ∧ (ran base (.killGroup 0 0 0)).groups = base.groups ∧
    ((ran l (.boundaryStop 0 0)).group 0 0).map (fun h => h.stop) = some (some st) ∧
    (grp base).canIssue = true ∧ (grp base).buffered = [] ∧
    ((ran (State.reset.withFetchWord 32 0x242860E0) (.instructionFetch 0 0)).group 0 0).map (fun h => h.ibuf.isSome) = some true ∧
    ((ran base (.instructionFetch 0 0)).group 0 0).map (fun h => h.stop.map Stop.cause) = some (some 0x01) := by decide +kernel

/-- The machine with launch queue 0 on for context 0, its ring of 2 descriptors at 0x1B00_0000, one of them posted. -/
def queueState (desc : List (BitVec 64)) : State :=
  let s := ((base.setReg (lqReg 0 0) 0x1B000000).setReg (lqReg 0 8) (1 + 2 ^ 21)).setReg (lqReg 0 0x10) 1
  (desc.zipIdx).foldl (fun s e => s.write64 (0x1B000000 + 8 * e.2) e.1) { s with grids := [], teams := [], groups := [] }

/-- A queue's good descriptor becomes a grid, a bad one sets DERR. -/
theorem witness_launch_queue :
    let s := queueState placedGrid.desc
    let t := ran s (.launchQueueRead 0)
    let u := ran (queueState []) (.launchQueueRead 0)
    s.launchHeld 0 = false ∧ t.grids.length = 1 ∧ fld (t.reg (lqReg 0 0x18)) 0 16 = 1 ∧
    u.grids = [] ∧ (u.reg (lqReg 0 8)).getLsbD 22 = true := by decide +kernel

/-- The machine with a grid of one team ready to be placed, nothing resident. -/
def readyGrid : State :=
  { base with grids := [(3, { placedGrid with next := 0 })], teams := [], groups := [], nextId := 4 }

/-- The team is placed and its group waits for the ramp; a pinned grid beyond the rise limit is rejected; a grid that has
waited too long for a core with another split marks a cluster, here with one core present. -/
theorem witness_placement :
    let g : Grid := { placedGrid with next := 0 }
    let p : State := { readyGrid.setReg 0x7000 0 with grids := [(3, { g with desc := g.desc.set 4 (0x2210400) })] }
    (g.wantsCore && g.pinned == false && readyGrid.fits 3 g 0 && decide (readyGrid.saves = []) &&
      ((ran readyGrid (.teamPlacement 3 0)).group 0 0).any (fun h => h.quiesce && decide (h.pc = 0x20000000))) = true ∧
    ((Tab.find p.grids 3).any fun g => g.pinned && g.wantsCore && decide (p.rise < g.teams * p.est g)) = true ∧
    ((ran p (.teamPlacement 3 0)).grids = []) := by decide +kernel

/-- RAMP_SLOT: nobody waits, a team that fits is started, and nobody is while a die is hot. -/
theorem witness_ramp :
    let s := { base with teams := [(0, { placedTeam with ramp := .waiting })] }
    let r := s.setReg 0x7000 900
    base.damper.pinned = [] ∧ (s.waiters 0).map (fun w => w.2.1) = [s.est placedGrid] ∧ r.grants = true ∧
    r.damper.used + r.est placedGrid ≤ r.rise ∧ (ran r .rampSlot).teams.map (fun (e : Nat × Team) => e.2.ramp) = [.started] ∧
    ((r.heat 0).heat 1).grants = true ∧ (((s.setReg 0x7020 (840 + 840 * 2 ^ 12)).heat 0).heat 1).grants = false ∧
    ((r.heat 0).heat 1).waiters 0 = s.waiters 0 := by decide +kernel

/-- A compaction; the watchdog's interval has passed; SCHED_CTL takes a legal value and no other. -/
theorem witness_watchdog :
    let s := { base.setReg 0x3000 (20 * 2) with now := 1000000, clk := 2 ^ 24 * 27 }
    (ran base (.registerCompaction 0)).groups = base.groups ∧
    ((ran s (.watchdog 0 0)).group 0 0).map (fun h => h.stop.map Stop.cause) = some (some 0x52) ∧
    (ran base (.schedCtlWrite true 0x28)).reg 0x3000 = 0x28 ∧ (ran base (.schedCtlWrite false 6)).reg 0x3000 = base.reg 0x3000 := by
  decide +kernel

/-- Cores that are all up, of context 9's split. -/
def elsewhere : Nat → Tab Core
  | 0 => []
  | n + 1 => (n, { Core.zero with splitv := true, asid := 9 }) :: elsewhere n

theorem find_elsewhere {c n : Nat} (h : c < n) : Tab.find (elsewhere n) c = some { Core.zero with splitv := true, asid := 9 } := by
  induction n with
  | zero => omega
  | succ n ih =>
    simp only [elsewhere, Tab.find]
    split
    · rfl
    · exact ih (by omega)

/-- A grid that has waited 2^20 tk, every core being of another context; and a core's one group in REGGROW with no granule
free. -/
theorem witness_drain_and_deadlock :
    (let s := { readyGrid with now := 2 ^ 20, cores := elsewhere 640 }
     (∀ c, c < 640 → (s.core c).splitv = true ∧ (s.core c).asid ≠ 0) ∧ Tab.find s.csHold 0 = none ∧
       (Tab.find s.grids 3).map (fun g => (g.wantsCore, g.next, g.drain, g.readyAt, g.asid)) = some (true, 0, none, some 0, 0)) ∧
    (let big : Group := { placedGroup with width := 64, blockN := 4 }
     let s := { base with groups := (0, { big with growSince := some 0 }) :: (List.range 3).map fun k =>
       (gkey 0 (k + 1), { big with slot := k + 1, base := 64 * (k + 1), stop := some ⟨1, .precise, 0, []⟩ }) }
     s.growPlace (grp s) = none ∧ ((s.groupsOf 0).filter fun h => h.growSince.isSome && h.stop.isNone) = [grp s] ∧
       (∀ h ∈ s.groupsOf 0, h.stop = none → h.growSince ≠ none) ∧
       ((ran s (.growDeadlock 0)).group 0 0).map (fun h => h.stop.map Stop.cause) = some (some 0x53)) := by
  refine ⟨⟨fun c h => ?_, by decide +kernel⟩, by decide +kernel⟩
  have e : State.core { readyGrid with now := 2 ^ 20, cores := elsewhere 640 } c = { Core.zero with splitv := true, asid := 9 } := by
    simp [State.core, Tab.get, find_elsewhere h]
  rw [e]
  decide

/-! ### The fabric at both ends -/

/-- The machine with a scalar load of one line of window 3 of peer 1 in flight, sent under tag 0, every plane with credit. -/
def fabLoad : State := { ran (fabBase (regs [(2, winAddr)])) (.sld Pfx.none ⟨1, 2, 0, false⟩) with noCredit := [] }

/-- A flit of the owner for that line. -/
def ownerFlit (typ : Nat) : Flit := { flitOf typ 2 7 with line := 0x4000 }

/-- The same machine with its line somewhere else. -/
def fabAt (at_ : LineAt) (host : Bool) (t : Option Nat) : State :=
  { fabLoad with memops := fabLoad.memops.map fun (e : Nat × MemOp) =>
      (e.1, { e.2 with lines := e.2.lines.map fun l => { l with at_ := at_, host := host, firstTicket := t } }) }

/-- The group has a late fault. -/
def lateFor (s : State) (cause : BitVec 8) : Bool :=
  s.memops.isEmpty && decide ((s.group 0 0).map (fun h => h.late.map fun l => l.cause) = some [cause])

/-- The line alone in flight; its ticket; a notice on an open plane, on a closed one, and a refusal; the timeout. -/
theorem witness_tickets :
    (∀ o l a, fabLoad.memops = [(0, o)] → o.lines = [l] → o.lanes = [a] → Claims.oneLine fabLoad 0 o l a (grp fabLoad)) ∧
    (fabLoad.memops.length = 1 ∧ fabLoad.takes (ownerFlit 7) = true) ∧
    (ran fabLoad (.ticket { ownerFlit 7 with tkt := 9 })).memops = (fabAt (.ticketed 9) false (some 0)).memops.map
      (fun (e : Nat × MemOp) => (e.1, { e.2 with lines := e.2.lines.map fun l => { l with sect := 0, kept := true, joinable := false } })) := by
  refine ⟨?_, by decide +kernel, by decide +kernel⟩
  have h : (match fabLoad.memops with
    | [(0, o)] => (match o.lines, o.lanes with
      | [l], [a] => decide (l.lanes = [a.lane] ∧ l.later = [] ∧ l.fc = false ∧ a.lane = 0 ∧ a.at_ = .fabric ∧ 0 < o.bytes ∧
          l.sect.getLsbD (a.addr.toNat % 64 / 16) = true ∧ o.engine = none ∧ o.per = 1 ∧
          fabLoad.group o.core o.slot = some (grp fabLoad) ∧ (grp fabLoad).spec = none ∧ fabLoad.slicePend = [] ∧
          fabLoad.sliceFwd = [] ∧ fabLoad.held = [] ∧ fabLoad.probeHeld = [] ∧ fabLoad.orphans = [] ∧
          o.kind = .load ∧ o.dstKind = .s ∧ o.nreg = 1 ∧ o.writesP = none)
      | _, _ => false)
    | _ => false) = true := by decide +kernel
  intro o l a h1 h2 h3
  rw [h1] at h
  simp only [h2, h3, decide_eq_true_eq] at h
  obtain ⟨a1, c1, a2, a3, c2, c3, c4, a4, a5, a6, a7, a8, b1, b2, b3, b4, a9⟩ := h
  exact ⟨h1, h2, h3, a1, c1, a2, a3, c2, c3, fun _ => c4, a4, a5, a6, a7, a8, b1, b2, b3, b4, .inl a9⟩

theorem witness_notices :
    let s := fabAt (.ticketed 9) false (some 0)
    (s.planeOpen 48 = true ∧ (ran s (.notice { ownerFlit 8 with count := 1, payload := 9 })).out.map (fun q => (q.replay, q.ticket)) = [(false, 0), (true, 9)]) ∧
    (let t := s.setReg 0x6070 0
     t.planeOpen 48 = false ∧ (ran t (.notice { ownerFlit 8 with count := 1, payload := 9 })).out.length = 1) ∧
    lateFor (ran s (.notice { ownerFlit 8 with count := 1, payload := 9 + 2 ^ 16 })) 0x15 ∧
    lateFor (ran { s with now := 10000000 } (.ticketExpiry 0)) 0x14 := by decide +kernel

/-- Responses of both kinds, the host's completions, credit, and a port's failure. -/
theorem witness_responses :
    (let t := ran fabLoad (.rdrsp { ownerFlit 4 with data := 77 })
     t.memops = [] ∧ (t.group 0 0).map (fun h => h.sel 1) = some ⟨77, true, false⟩) ∧
    lateFor (ran fabLoad (.rdrsp { ownerFlit 4 with status := 0x18 })) 0x18 ∧
    lateFor (ran (fabAt (.sent 0) true none) (.hostCompletion { ownerFlit 4 with status := 1 })) 0x1A ∧
    (ran (fabAt .queued false none) (.planeCredit 0)).out.length = 2 ∧
    lateFor (ran fabLoad (.portFailure (fabLoad.portOf (planeOf 0x0100430000000000)))) 0x19 ∧
    fabLoad.takes (ownerFlit 4) = true := by decide +kernel

/-- A flit of node 2 that asks for line 0x4000 of window 3 at this package, all of whose sectors are asked for. -/
def ask (typ : Nat) : Flit := { flitOf typ 2 7 with line := 0x800000, win := 3, gen := 1, key := 5, sect := 15, bmask := 0xFF, data := 9 }

/-- The machine with window 3 exported: 16 MiB at 0x2000_0000 of context 0, generation 1, key 5, all accesses. -/
def exported (st : Nat) : State :=
  { fabBase id with exports := [(3, { Export.closed with
      st := st, desc := BitVec.ofNat 256 (fabBase.dw3 (0x20000000) (0x1000000) (5 + 1 * 2 ^ 32 + 0x07 * 2 ^ 40 + 2 ^ 45) 0) })] }

/-- The owner's refusals in their order, and requests that it performs. -/
theorem witness_owner :
    (let st (s : State) (f : Flit) : List (BitVec 8) := (ran s (.ownerRequest f)).out.map Flit.status
     st (exported 0) (ask 1) = [0x19] ∧ st (exported 1) { ask 1 with gen := 2 } = [0x18] ∧
     st (exported 1) { ask 1 with key := 6 } = [0x16] ∧ st (exported 1) { ask 1 with line := 0 } = [0x17] ∧
     st (exported 1) { ask 1 with replay := true } = [0x15] ∧ st (exported 1) (ask 1) = [0] ∧ st (exported 1) (ask 2) = [0]) ∧
    (ran (exported 1) (.ownerRequest (ask 2))).readLE 0x20000000 8 = 9 ∧ (exported 1).takes (ask 1) = true := by decide +kernel

/-- The owner with a page of the window that is not resident: a ticket, or the status 0x11; the notice and its ends. -/
theorem witness_owner_tickets :
    let far (f : Flit) : Flit := { f with line := 0x2400000 }
    let s := { fabBase id with exports := [(3, { Export.closed with
      st := 1, desc := BitVec.ofNat 256 (fabBase.dw3 0x80000000 0x80000000 (5 + 1 * 2 ^ 32 + 0x07 * 2 ^ 40 + 2 ^ 45) 0) })] }
    let t := ran s (.ownerRequest (far (ask 1)))
    let u := ran t (.noticeServiced 0 2 (t.owned.headD (0, ⟨0, 0, 0, 0, 0, 0, 0, 0, false, false, none, 0⟩)).1)
    let v := ran { u with now := 1000, noCredit := [] } (.noticeTimer 2)
    (ran s (.ownerRequest { far (ask 1) with nf := true })).out.map Flit.status = [0x11] ∧
    (t.owned.length = 1 ∧ t.out.map Flit.typ = [7]) ∧ u.notices.length = 1 ∧ v.out.map Flit.typ = [7, 8] ∧
    v.owned.map (fun (e : Nat × OwnedTicket) => e.2.sentAt) = [some 1000] ∧
    (ran { v with now := 10000000000 } (.ownerTicketTimeout 0)).owned = [] := by decide +kernel

/-- A RECALL of a copy with a dirty sector, a RECACK, a probe, the last PROBEACK, and a slice that serves and forwards. -/
theorem witness_recalls :
    let c : SliceLine := { SliceLine.none with data := 7, valid := 15, dirty := 1, win := 3, gen := 1, key := 5 }
    let s := { exported 1 with fabDir := [(l2Key (ask 0xF).plane.toNat 2 0x800000, c)] }
    let l := { fabBase id with lent := [(0x800000, [lentKey 0x4000 5])], probes := [⟨5, [2], []⟩] }
    ((ran s (.recall (ask 0xF))).out.map (fun q => (q.typ, q.dirty, q.data)) = [(0x10, 1, 7)] ∧ (ran s (.recall (ask 0xF))).fabDir = []) ∧
    ((ran l (.recack { flitOf 0x10 7 7 with line := 0x4000, dirty := 1, data := 3, plane := 5, hop := true })).readLE 0x20000000 8 = 3) ∧
    (ran l (.probe (ownerFlit 0xD))).out.map Flit.typ = [0xE] ∧ (ran l (.probeack { flitOf 0xE 2 7 with tag := 5 })).probes = [⟨5, [], []⟩] ∧
    (let sl := { fabBase id with slices := [(l2Key (ask 1).plane.toNat 7 0x800000, { c with dirty := 0, perm := 7 })] }
     (ran sl (.switchRequest 5 (ask 1))).out.map (fun q => (q.typ, q.data)) = [(4, 7)] ∧
     (ran (fabBase id) (.switchRequest 5 (ask 1))).out = [ask 1]) := by decide +kernel

/-- OPEN, CLOSE, FORCE and STUCK of an exported window; a WINREQ that is refused, and one whose key matches; a WINACK. -/
theorem witness_exports :
    let held (st : Nat) := { exported st with
      now := 1000000, exports := (exported st).exports.map fun (e : Nat × Export) => (e.1, { e.2 with holders := [2] }) }
    (((ran (exported 0) (.expctlOpen 3 true)).exp 3).st = 1 ∧ ((held 1).exp 3).st = 1 ∧ ((ran (held 2) (.expctlForce 3 true)).exp 3).st = 0 ∧
      ((ran (held 2) (.exportStuckTimeout 3)).exp 3).stuck = true) ∧
    ((ran (exported 0) (.winreqReceive (ask 9))).out.map Flit.status = [0x19] ∧
      (ran (exported 1) (.winreqReceive { ask 9 with key := 6 })).out.map Flit.status = [0x16] ∧
      ((ran (exported 1) (.winreqReceive (ask 9))).exp 3).holders = [2]) ∧
    ((ran (held 1) (.winack (ask 0xC))).exp 3).holders = [] ∧ ((ran (held 2) (.winack (ask 0xC))).exp 3).st = 0 := by
  decide +kernel

/-- The machine that fetches window 4 of peer 1. -/
def fetching : State := ran (fabBase (regs [(2, 1 + 4 * 1024), (5, 5)])) (.winreq Pfx.none (f3 1 2 5))

/-- WINRSP of both kinds, WININV of a window that is not held and of one that is valid, the end of a drain. -/
theorem witness_window_messages :
    let rsp (st : BitVec 8) : Flit := { flitOf 0xA 2 7 with win := 4, status := st, desc := BitVec.ofNat 256 (fabBase.dw3 0 0x1000000 (5 + 0x07 * 2 ^ 40 + 2 ^ 45) 0) }
    let inv (w : BitVec 6) : Flit := { flitOf 0xB 2 7 with win := w }
    let d := ran (fabBase id) (.wininv (inv 3))
    (fetching.peerOf 2 4 (fun d => descState d = 3) = some 1 ∧ fetching.winWaits.length = 1) ∧
    ((ran fetching (.winrsp (rsp 0))).group 0 0).map (fun h => h.sel 1) = some ⟨0, true, false⟩ ∧
    ((ran fetching (.winrsp (rsp 0x16))).group 0 0).map (fun h => h.sel 1) = some ⟨0x16, true, false⟩ ∧
    (ran { fabBase id with mem := [] } (.wininv (inv 9))).out.map Flit.typ = [0xC] ∧ descState (d.winDesc 1 3) = 2 ∧ d.winBusy 1 3 0 = false ∧
    (ran d (.windowDrainComplete 1 3)).out.map Flit.typ = [0xC] := by decide +kernel

/-- Time is asked for, answered by a master, and taken by another. -/
theorem witness_time :
    let s := { fabBase id with now := 2 ^ 20 }
    let t := { s with tsync := s.now }
    s.efiOn = true ∧ (s.reg 0x6080).getLsbD 0 = false ∧ s.tsyncAt + 2 ^ 20 ≤ s.now.toNat ∧
    (ran (s.setReg 0x6080 1) (.tsync (flitOf 0x11 2 7))).out.map Flit.typ = [0x12] ∧
    fld ((ran { t with now := t.now + 6 } (.tsyncrsp (flitOf 0x12 2 7))).reg 0x6088) 0 16 = 3 := by decide +kernel

/-! ### Carillon, the package's services and the platform -/

/-- CAR_CTL taken and refused; arrivals; a command that fits its slot's state and one that does not. -/
theorem witness_carillon_commands :
    let ctl : BitVec 64 := 1 + 1 * 2 ^ 5 + 4 * 2 ^ 27
    let s := seqState 8 []
    (ran base (.carillonEnable true ctl)).carillon.running = true ∧ (ran base (.carillonEnable true 1)).reg 0x4000 = base.reg 0x4000 ∧
    fld ((ran base (.rqtailWrite true 3)).reg 0x4038) 5 16 = 3 ∧ fld ((ran base (.cqheadWrite true 3)).reg 0x4048) 5 16 = 3 ∧
    ((s.slotStateNow 1).2 = some 8 ∧ (ran s (.scmdFree 1 true)).carillon.reqs = [(3, 1)] ∧ (ran s (.scmdMarkError 1 5 true)).carillon.reqs = [(3, 1)]) ∧
    (ran s (.scmdWake 1 true)).carillon.reqs = [] ∧ (ran (seqState 5 []) (.scmdWake 1 true)).carillon.reqs = [(2, 1), (3, 1)] := by
  decide +kernel

/-- The machine with Carillon running with no slot in use but its own, at a boundary with a trigger, its command and request
rings empty. -/
def boundaryState : State :=
  let s := (seqState 0 []).setReg 0x4000 (1 + 1 * 2 ^ 5 + 2 * 2 ^ 27)
  { s with carillon := { s.carillon with running := true, trigger := true } }

/-- A boundary whose steps go through; the same retried; the end of a frame; the standby. -/
theorem witness_frames :
    let s := boundaryState
    let r := { s with carillon := { s.carillon with faultStep := 3 } }
    let e := { s with carillon := { s.carillon with inFrame := true, frameEnded := true } }
    let f := { base with carillon := { base.carillon with failed := true } }
    (s.atBoundary && ((List.range 6).foldl (fun (p : State × Bool) k => let q := p.1.boundaryStep (k + 1); (q.1, p.2 && q.2.isNone)) (s, true)).2) = true ∧
    (ran s .frameBoundary).carillon.faultStep = 0 ∧ (r.atBoundary = true ∧ (ran r .carillonStructureRetry).carillon.faultStep = 0) ∧
    ((ran e .frameEnd).carillon.frame = s.carillon.frame + 1 ∧ (ran e .frameEnd).carillon.inFrame = false) ∧
    (f.carillon.standby = false ∧ (ran f .carillonTakeover).carillon.standby = true) := by decide +kernel

/-- A boundary that meets a fate: the batch table's page is not resident. -/
theorem witness_boundary_stuck :
    let s := boundaryState.setReg 0x4008 0x80000000
    let t := ran s .frameBoundary
    t.carillon.faultStep ≠ 0 ∧ t.carillon.trigger = false ∧ t.carillon.fault.isSome = true ∧
    (match s.liveSlots s.slots with
     | .ok _ => false
     | .error f => !f.isWait) = true := by decide +kernel

/-- A notification, and a guest's accesses that are open to it and not. -/
theorem witness_guests :
    let s := base.setReg 0x9000 (1 + 0x10 * 2 ^ 24)
    (Tab.get 0 (ran s (.toolReturn 0 8 7)).notify 1 = 7 ∧ (ran s (.toolReturn 0 512 7)).notify = []) ∧
    ((ran s (.guestAccess 0 0 0x100 (.store [5, 6]))).readLE (2 * 2 ^ 64 + 0x100) 2 = 0x605 ∧
      (ran s (.guestAccess 0 0 0x100 (.load 2))).guestOut = [⟨0, none, [0, 0]⟩] ∧
      (ran s (.guestAccess 0 0 0x100 (.amo 1 [3, 0, 0, 0]))).guestOut = [⟨0, none, [0, 0, 0, 0]⟩] ∧
      (ran base (.guestAccess 0 0 0x100 (.store [5]))).guestOut = [⟨0, some true, []⟩]) ∧
    Claims.open s 0 0 0x100 8 ∧ ¬Claims.open base 0 0 0x100 8 := by
  refine ⟨by decide +kernel, by decide +kernel, ?_, ?_⟩
  · dsimp only [Claims.open]
    decide +kernel
  · intro h
    exact absurd (h 0 (by decide)).1.1 (by decide +kernel)

/-- Save and restore: the command taken and refused, an empty area, a context's end, a save that quiesces with too small an
area and with one that holds it, and one that is written. -/
theorem witness_save_restore :
    let go := base.setReg 0x3040 (2 ^ 63)
    let s := ran { base with groups := [], teams := [], grids := [] } (.preSave 0)
    let st (t : State) : Nat := fld (t.reg 0x3050) 0 3
    let big := { s with saves := s.saves.map fun v => { v with need := 1000000 } }
    let wr := { s with saves := s.saves.map fun v => { v with stage := 2 } }
    (ran go (.preSave 0)).saves = [] ∧ (st s = 1 ∧ s.saves.length = 1) ∧ st (ran base (.preRestore 0)) = 4 ∧
    (st (ran base (.preEndContext 0)) = 1 ∧ (ran base (.preEndContext 0)).groups = [] ∧
      st (ran (ran base (.preEndContext 0)) .saveQuiesced) = 4) ∧
    (s.saves.all (fun v => (s.saveStopAll v).quiesced v)) = true ∧
    st (ran s .saveQuiesced) = 5 ∧ st (ran big .saveQuiesced) = 2 ∧ st (ran wr .saveAreaWritten) = 4 := by decide +kernel

/-- Each class of uncorrectable error. -/
theorem witness_errors :
    let e (c : BitVec 6) : HwError := { cls := c, sector := 0x100, unit := 643, core := 0, slot := 0, regClass := 1, reg := 5, elem := 0, lost := false, dirty := [] }
    (ran base (.uncorrectableError (e 0))).isPoisoned 0x1000 16 = true ∧
    ((ran base (.uncorrectableError (e 1))).group 0 0).map (fun h => (h.sel 5).pois) = some true ∧
    (ran base (.uncorrectableError (e 2))).saves.map (fun v => v.error) = [some 0] ∧
    (ran base (.uncorrectableError (e 4))).carillon.failed = true ∧ (ran base (.uncorrectableError (e 5))).frozen = true := by
  decide +kernel

/-- A write of a register without side effects, one that is refused, one of no register; the first write error alone is
recorded. -/
theorem witness_register_writes :
    let w (off : BitVec 20) (v : BitVec 64) : Instr := .registerWrite ⟨false, off, 0, v⟩
    let m := (regMasks 0x1010).getD (0, 0)
    base.frozen = false ∧ fld (base.reg 8) 0 3 ≠ 4 ∧ (regMasks 0x1010).isSome = true ∧ base.regRefused false 0x1010 0 (m.1 &&& 0x20000) = false ∧
    (ran base (w 0x1010 0x20000)).reg 0x1010 = 0x20000 ∧ regMasks 0x1FF8 = none ∧
    (ran base (w 0x1FF8 1)).reg 0 = BitVec.ofNat 64 (1 + 4 * 0x1FF8) ∧
    (ran (ran base (w 0x1FF8 1)) (w 0x1FF0 1)).reg 0 = BitVec.ofNat 64 (1 + 4 * 0x1FF8) := by decide +kernel

/-- The mailbox commands for a context with a team, and for one without. -/
theorem witness_mailbox :
    base.ctxBusy 0 = true ∧ base.ctxBusy 5 = false ∧
    (ran base (.installTenantKey 0)).reg 0x38 = 3 ∧ ((ran base (.installTenantKey 5)).ctx 5).key.isSome = true ∧
    (ran base (.setConfidential 5)).reg 0x38 = 0 ∧ (ran base .readIdentityKey).reg 0x38 = 0 ∧ (ran base .attest).reg 0x38 = 0 := by
  decide +kernel

/-- Reads and writes of the host's aperture, within the selected tier and beyond; no reset by another write. -/
theorem witness_host :
    let s := { base with grids := [] }
    let h : HostAccess := { write := true, len := 0, data := [1, 2] }
    (ran s (.hostApertureAccess 0x100 h)).readLE 0x100 2 = 0x201 ∧
    (ran s (.hostApertureAccess 0x100 { h with write := false, len := 2 })).hostOut.length = 1 ∧
    (ran (s.setReg 0x20 (0xFFFF * 2 ^ 36)) (.hostApertureAccess 0x100 { h with write := false, len := 2 })).hostOut = [[]] ∧
    (ran base (.sidebandReset 1 1)).groups = base.groups := by
  decide +kernel

theorem witness_encryption :
    let s := { ran base (.installTenantKey 5) with cfLines := [(0x1000000, 5)] }
    (s.ctx 5).key ≠ none ∧ (ran s (.lineEncryptWriteback 0x1000000)).crypt.length = 1 := by decide +kernel

/-! ### The whole machine -/

/-- A group that is stopped; one whose role does not permit the instruction; empty sources that trap and that wait. -/
theorem witness_ready_and_roles :
    let i := Instr.sadd Pfx.none r123
    let st := withG fun g => { g with stop := some ⟨1, .precise, 0, []⟩ }
    let ro := withG fun g => { g with role := some 0 }
    let em := withG fun g => g.emptyS 2
    let tr := Instr.sadd Pfx.none ⟨1, 2, 3, true, false⟩
    (grp st).canIssue = false ∧ (ran st i).groups = (st.setGroup { grp st with waiting := true }).groups ∧
    ((grp ro).canIssue = true ∧ stopsFor ro (Instr.vadd Pfx.none r123) 0x40 = true) ∧
    waitsIn em i = true ∧ stopsFor em tr 0x41 = true := by decide +kernel

/-- A step runs the instruction placed: R15's SADD completes from reset with it placed. -/
theorem witness_step :
    let s := State.reset.withFetchWord 32 0x242860E0
    (match step s with
     | .next t => (t.group 0 0).map fun h => h.pc
     | _ => none) = some 0x20000004 ∧ Memory.wf s.mem = true ∧ s.structLent = [] ∧ s.agenda = [] ∧
    s.turn.1.now.toNat % 16 = 1 ∧ ((s.turn.1.nextGroup none).map fun g => (g.pc, g.buffered.length)) = some (0x20000000, 0) ∧
    (match { s.turn.1 with cur := some (0, 0) }.fetchWord 0 0x20000000 with
     | (v, .ok k) => k = 0x20000000 && v.lentAt k = [] && v.readLE k 4 = 0x242860E0
     | _ => false) = true := by decide +kernel

/-- A switch holds a line of the level-1 table of context 0: the next step sends its RECALL, and the placed group waits; the
RECALL of another line, the agenda's second turn, goes on. -/
theorem witness_structure_recalled :
    let s := { State.reset.withFetchWord 32 0x242860E0 with lent := [(0x10080000 / 64, [lentKey 5 3])] }
    let u := { s with agenda := [⟨1, none, none⟩, ⟨1, some (.recall { flitOf 0x0F 1 0 with line := 77 }), none⟩] }
    s.structLent = [lentKey 5 3] ∧ (u.recallTurn.map fun x => x.1.agenda.length) = some 1 ∧
    (match step s with
     | .next t => (t.recalling, (t.group 0 0).map Group.pc, t.now.toNat)
     | _ => ([], none, 0)) = ([lentKey 5 3], some 0x20000000, 1) := by decide +kernel

/-! ### The conditions of the statements that the witnesses above leave out -/

/-- The group's acquires are performed; a slot's generator takes an odd increment, and an even one where the slot is free and
where it is not. -/
theorem witness_increments :
    (base.acquired 0 0 = true) ∧
    (let r := ran (seqState 3 [(8, 5)]) (.rngset Pfx.none (f3 8 2 1))
     r.readLE 0x16000180 16 = 5 ∧ r.readLE 0x16000100 8 = 3) ∧
    (let f := ran (seqState 0 [(8, 4)]) (.rngset Pfx.none (f3 8 2 1))
     f.readLE 0x16000180 16 = 3 ∧ f.readLE 0x16000100 8 = 0) ∧
    (ran (seqState 3 [(8, 4)]) (.rngset Pfx.none (f3 8 2 1))).readLE 0x16000100 8 = 8 + 3 * 2 ^ 16 := by decide +kernel

/-- BTLD's store performed: its register receives the entry's first dword. -/
theorem witness_btld :
    let s := ran (seqState 3 [(5, 0x17000000)]) (.btld Pfx.none (f3 4 2 5))
    let t := { s with memops := s.memops.map fun (e : Nat × MemOp) =>
      (e.1, { e.2 with lanes := e.2.lanes.map fun l => { l with at_ := .done } }) }
    (op0 t fun o => o.isDone && decide (o.kind = .store) && decide (o.dstKind = .s) && decide (o.nreg = 1) && decide (o.type = 8) &&
      o.engine.isNone && o.writesP.isNone && decide (o.lanes.length = 16) && decide (o.dst = 4)) = true ∧
    (grp t).spec = none ∧ (grp (t.finishOp 0)).sel 4 = ⟨3, true, false⟩ ∧ Tab.find (t.finishOp 0).memops 0 = none := by
  decide +kernel

/-- Structures of R404 placed: a tape's block, an entry of it, a counter; a table of weight slots that opens. -/
theorem witness_placed :
    let s := tapeState 4 1 0 []
    Claims.placed s (grp s) 0x17000000 64 64 true ∧ Claims.placed s (grp s) 0x17100000 32 32 false ∧
    Claims.placed s (grp s) 0x17000000 4 4 true ∧
    (match (wslotState 0 0x100000007 7).openTable (grp (wslotState 0 0x100000007 7)) 0x17000000 with
      | .ok (_, es) => es.map WEntry.expert
      | .error _ => []) = [0, 7] := by
  unfold Claims.placed; decide +kernel

/-- A launch descriptor that nothing lends; a queue's. -/
theorem witness_descriptors :
    (launchState 0x15000000).descHeld 0 0x15000000 = none ∧ (queueState placedGrid.desc).descHeld 0 0x1B000000 = none ∧
    ((queueState placedGrid.desc).descHeld 0 0x1B000000).isSome = false := by decide +kernel

/-- The machine with an open region on a(0), and its team. -/
def regionState : State := ran (withG fun g => g.emptyS 2) (.mspec Pfx.none (f3 0 2 3))

/-- An open region whose shadows are full and that no operation reads can resolve; with a drain of a(0) pending that was
issued before, a commit cannot. -/
theorem witness_resolvable :
    let s := regionState
    let m := newMat (grp s) (.mdrain Pfx.none (f3 1 0 2)) Pfx.none 7 1 0 0 [0, 0, 0, 0] 0
    let w := { s with nextId := s.nextId + 1, matops := [(s.nextId, m)] }
    (∀ t, s.team 0 = some t → ∀ p, (grp s).spec = some p → Claims.resolvable s (grp s) t p true ∧
      ¬Claims.resolvable w (grp w) t p true) ∧ (s.team 0).isSome = true ∧ (grp s).spec.isSome = true := by
  refine ⟨fun t ht p hp => ?_, by decide +kernel, by decide +kernel⟩
  have a : (match regionState.team 0, (grp regionState).spec with
    | some t, some p =>
      let s := regionState
      let m := newMat (grp s) (.mdrain Pfx.none (f3 1 0 2)) Pfx.none 7 1 0 0 [0, 0, 0, 0] 0
      let w := { s with nextId := s.nextId + 1, matops := [(s.nextId, m)] }
      ((List.range 8).all fun k => !p.shadowed.getLsbD k || ((s.accOf (grp s) (k + 8)).full && !s.accBusy (grp s).team (t.accKey (grp s) k) s.nextId)) &&
        (p.shadowed.getLsbD 0 && w.accBusy (grp w).team (t.accKey (grp w) 0) w.nextId)
    | _, _ => false) = true := by decide +kernel
  rw [ht, hp] at a
  simp only [Bool.and_eq_true, List.all_eq_true, List.mem_range, Bool.or_eq_true, Bool.not_eq_true'] at a
  refine ⟨fun k hk hs => ?_, fun h => ?_⟩
  · rcases a.1 k hk with h | h
    · rw [h] at hs; cases hs
    · exact ⟨h.1, fun _ => h.2⟩
  · have := (h 0 (by decide) a.2.1).2 rfl
    rw [a.2.2] at this
    cases this

/-- A store of one lane of 16 bytes, placed, and with its high half still to write. -/
theorem witness_wide_store :
    let s := ran (withG fun g => ((regs [(2, 0x100)] g).putP 1 ⟨1, true⟩).writeV 8 0 0xAB false)
      (.vst ⟨none, some { Mod.zero with space := 2, pred := 1 }, none⟩ 2 (f3 8 2 0))
    let half := { s with memops := s.memops.map fun (e : Nat × MemOp) =>
      (e.1, { e.2 with lanes := e.2.lanes.map fun l => { l with at_ := .half (region 16 + 0x100) 1 } }) }
    (op0 s fun o => decide (o.kind = .store) && allPlaced o && s.opReady 0 o && decide (o.bytes = 16) && decide (o.per = 1) &&
      decide (o.lanes.map LaneAcc.lane = [0]) && o.lines.isEmpty && o.engine.isNone && o.writesP.isNone) = true ∧
    (op0 half fun o => half.opReady 0 o) = true ∧
    (ran half (.writeThroughAcknowledgement 0 (BitVec.allOnes 64))).memops = [] := by decide +kernel

/-- A copy of a line at a switch slice, valid, owned by its L2 or not. -/
def sliceOf (holders : List Nat) (excl : Option Nat) : State :=
  { fabBase id with slices := [(l2Key (ask 1).plane.toNat 7 0x800000,
    { SliceLine.none with data := 7, valid := 15, win := 3, gen := 1, key := 5, perm := 7, holders := holders, excl := excl })] }

/-- A slice gives up a line that no L2 holds, and asks its holders for one that they hold. -/
theorem witness_slice_recalled :
    let f : Flit := { ask 0xF with src := 7, dst := 7, hop := true }
    headerBad f.header = false ∧ f.line ≠ wholeWindow ∧ (sliceOf [] none).slicePend = [] ∧
    ((ran (sliceOf [] none) (.recall f)).out.map Flit.typ = [0x10] ∧ (ran (sliceOf [] none) (.recall f)).slices = []) ∧
    (ran (sliceOf [2, 3] none) (.recall f)).out.map (fun q => (q.typ, q.dst)) = [(0xF, 2), (0xF, 3)] := by decide +kernel

/-- A slice performs a write and an atomic on a line that it owns, asks the owner for a fabric-coherent line, and lets a
request for a line that it is busy with wait. -/
theorem witness_slice_serves :
    let at_ (s : State) (f : Flit) : State := ran s (.switchRequest (ask 1).plane.toNat f)
    let own := sliceOf [] (some 7)
    let w := at_ own (ask 2)
    let a := at_ own { ask 3 with atype := 6 }
    let fc := at_ (fabBase id) { ask 1 with fc := true }
    (w.out.map Flit.typ = [5] ∧ w.slices.map (fun (e : Nat × SliceLine) => (e.2.data.extractLsb' 0 64, e.2.dirty)) = [(9, 15)]) ∧
    (a.out.map Flit.typ = [6] ∧ a.slices.map (fun (e : Nat × SliceLine) => e.2.data.extractLsb' 0 32) = [16]) ∧
    (fc.out.map (fun q => (q.typ, q.fc, q.sect)) = [(1, true, 15)] ∧ fc.slicePend.length = 1) ∧
    (at_ fc (ask 2)).slicePend.map SlicePend.wait = [.grant, .turn] := by decide +kernel

/-- A probe of a line to which the package has a release in flight is held until it is performed. -/
theorem witness_probe_held :
    let x : Pfx := ⟨none, some { Mod.zero with order := 2, scope := 4 }, none⟩
    let b := fabBase (regs [(2, 0x30000000)])
    let s := { ran { b with mem := b.mem ++ [(0x30000000, 9)] } (.sst x ⟨3, 2, 0, false⟩) with noCredit := [] }
    let f : Flit := { flitOf 0xD 2 7 with line := 0xC00000 }
    (op0 s fun o => o.releases && decide (o.space = 0) && o.engine.isNone && o.lines.isEmpty) = true ∧ s.takes f = true ∧
    (s.held.isEmpty && s.probeHeld.isEmpty) = true ∧
    (ran s (.probe f)).probeHeld.map (fun (e : Flit × List Nat) => (e.1.typ, e.2)) = [(0xE, [0])] := by decide +kernel

/-- Pinned teams: all of a grid's are started at once where they fit, and none where they do not. -/
theorem witness_pinned_ramp :
    let s (rise : BitVec 64) : State := { base.setReg 0x7000 rise with
      teams := [(0, { placedTeam with ramp := .waiting })], damper := { Damper.zero with pinned := [0] } }
    ((s 900).grants = true ∧ (ran (s 900) .rampSlot).teams.map (fun (e : Nat × Team) => e.2.ramp) = [.started] ∧
      (ran (s 900) .rampSlot).damper.pinned = []) ∧
    ((s 0).grants = true ∧ (s 0).rise < (s 0).damper.used + (s 0).est placedGrid ∧
      (ran (s 0) .rampSlot).teams.map (fun (e : Nat × Team) => e.2.ramp) = [.waiting]) := by decide +kernel

/-- A handoff's message waits while the unit is off; a sample that is not due; a context's end waits for a copy of it that
still waits for a chunk's access. -/
theorem witness_waits :
    (let s := rxState.setReg 0x5000 0
     s.isOwnPort opening = true ∧ s.handoffs = [] ∧ (ran s (.handoffReceive opening)).handoffs = [opening]) ∧
    (let s := { base with now := 50, damper := { Damper.zero with sampleAt := some 0 } }
     s.damper.failed = false ∧ (ran s (.damperSample 5)).damper = s.damper) ∧
    (let c := ran (copyBase 8 0) (.cpy Pfx.none (f3 1 2 5))
     let s := ran base (.preEndContext 0)
     let t := { s with copies := c.copies.map fun (e : Nat × CopyOp) => (e.1, { e.2 with slot := noSlot, wait := some 9 }) }
     s.saves.map Save.stage = [6] ∧ t.copies.length = 1 ∧ fld ((ran t .saveQuiesced).reg 0x3050) 0 3 = 1 ∧
       fld ((ran s .saveQuiesced).reg 0x3050) 0 3 = 4) := by decide +kernel

/-- A partition register while a guest runs and while none does; a register of the fabric, whose write lets go what may. -/
theorem witness_locked_registers :
    let w (off : BitVec 20) (v : BitVec 64) : Instr := .registerWrite ⟨false, off, 0, v⟩
    let s := ran base (.guestAccess 0 0 0 (.runs true))
    s.toolGuest = true ∧ (ran s (w 0x9008 1)).reg 0 = BitVec.ofNat 64 (1 + 4 * 0x9008) ∧
    (ran (ran s (.guestAccess 0 0 0 (.runs false))) (w 0x9008 (1 + 2 ^ 24))).reg 0x9008 = 1 + 2 ^ 24 ∧
    (base.regRefused false 0x6008 (base.reg 0x6008) 9 = false ∧ (ran base (w 0x6008 9)).reg 0 = 0) := by decide +kernel

/-- A boundary that waits for a structure's line. -/
theorem witness_boundary_waits :
    let s := { boundaryState with lent := [(0x16000100 / 64, [0])] }
    (match s.liveSlots s.slots with
     | .ok _ => false
     | .error f => f.isWait) = true ∧ (ran s .frameBoundary).carillon.trigger = true := by decide +kernel

/-- A fetch of a word that does not decode. -/
theorem witness_illegal_fetch :
    let s := State.reset.withFetchWord 32 0xF8000000
    decode [0xF8000000] = .illegal 0 ∧
    ((ran s (.instructionFetch 0 0)).group 0 0).map (fun h => h.stop.map Stop.cause) = some (some 0x01) := by decide +kernel

/-- A special function runs to its end: 1/4 in each active lane. -/
theorem witness_special_runs :
    let s := withG fun g => (List.range 16).foldl (fun g l => g.writeV 8 l 0x40800000 false) g
    let t := ran s (.vrcp Pfx.none (f3 20 8 0))
    meets s (.vrcp Pfx.none (f3 20 8 0)) [.v 8 1 0xFFFF, .v 20 1 0xFFFF] = true ∧
    (((ran t (.sfuResult 0)).group 0 0).map fun h => (h.vel 20 3).val) = some 0x3E800000 := by decide +kernel

/-- The header of the worked read of spec/05_fabric.md: its dword 0 and the SECT of its dword 1. -/
theorem test_read_header :
    let f : Flit := { flitOf 1 12 3 with win := 1, gen := 5, tag := 0x02A, core := 17, scope := 0, sect := 3, line := 0x100000008 }
    f.dword0 = 0x0088150282018181 ∧ f.dword1.extractLsb' 52 4 = 3 ∧ f.header.extractLsb' 0 64 = f.dword0 ∧
    f.header.extractLsb' 128 50 = 0x100000008 := by decide +kernel

/-- The header of a NOTICE: the payload from bit 40, slot i at 40 + 18 i (R163). -/
theorem test_notice_header :
    let f : Flit := { flitOf 8 2 7 with count := 2, payload := noticePayload [(5, 0), (6, 1)] }
    f.header.extractLsb' 25 4 = 2 ∧ f.header.extractLsb' 40 16 = 5 ∧ f.header.extractLsb' 58 16 = 6 ∧
    f.header.extractLsb' 74 2 = 1 ∧ f.header.extractLsb' 76 180 = 0 := by decide +kernel

/-- A reserved TYPE and a nonzero reserved bit are seen (R162). -/
theorem test_header_bad :
    headerBad (flitOf 1 2 7).header = false ∧ headerBad (flitOf 0 2 7).header = true ∧
    headerBad ({ flitOf 1 2 7 with rsv := 1 } : Flit).header = true := by decide +kernel

/-- A tape entry with a nonzero reserved bit (R11, R423): neither TAPEGET nor TAPEPUT takes it; one with a reserved OP is
taken (R424). -/
theorem test_tape_entry :
    let i := Instr.tapeget (f3 8 2 0)
    let j := Instr.tapeput (f3 0 2 5)
    let s := (tapeState 4 1 0 [(5, 0x17200000)])
    stopsFor (s.write64 0x17100000 0x100) i 0x01 = true ∧ stopsFor (s.write64 0x17200000 0x8000) j 0x01 = true ∧
    goesOn (s.write64 0x17100000 0xFF) i = true := by decide +kernel

/-- A buffer keeps the order of R447: of one time-stamp the lower core first; but no record goes ahead of a TYPE 0 record
(R448), which takes the entry that a drain frees. -/
theorem test_trace_order :
    let rec_ (now core : Nat) := traceRecord (BitVec.ofNat 64 now) 1 0 core 0 0 1 0
    let s : State := { State.reset with now := 9 }
    let t := ((s.tracePut 3 (rec_ 9 3)).tracePut 1 (rec_ 9 1)).tracePut 2 (rec_ 8 2)
    let c : Ctx := { Ctx.zero with trcCtl := 3 * 2 ^ 13, trcBase := 0x19000000 }
    let u : State := { s with ctxs := [(1, c)], traces := [(0, { TraceBuf.zero with recs := [rec_ 7 5], lost := 500, lostAsid := 1 })] }
    let d := (ran u (.traceDrain 0)).tracePut 1 (rec_ 8 1)
    t.traces.map (fun (e : Nat × TraceBuf) => e.2.recs) = [[rec_ 8 2, rec_ 9 1, rec_ 9 3]] ∧
    d.traces.map (fun (e : Nat × TraceBuf) => (e.2.lost, e.2.recs.map fun (r : BitVec 256) =>
      ((r.extractLsb' 54 4).toNat, (r.extractLsb' 192 16).toNat))) = [(0, [(0, 500), (1, 0)])] := by decide +kernel

/-- A limit of power takes effect at the next slot (R466); Tattoo's index starts from 0 at EN (R451); a confidential context's
window (R465). -/
theorem test_platform_registers :
    let w (off : BitVec 20) (v : BitVec 64) : RegWrite := { off := off, val := v, half := 0, src := false }
    let s := ran base (.registerWrite (w 0x7000 0x640064))
    let c : State := { base with ctxs := [(0, { Ctx.zero with cfg := 7, errpol := 0x20 })] }
    s.reg 0x7000 = 0x640064 ∧ s.rise = base.rise ∧ ({ s with now := s.now + 1000 } : State).rise = 100000 ∧
    (ran { base with tatIndex := 5 } (.registerWrite (w 0x8000 0x121))).tatIndex = 0 ∧
    c.readReg 0xA030 = 0 ∧ c.readReg 0xA008 = 7 := by decide +kernel

/-! ### What arrives, what is emitted, what a boundary's steps do -/

/-- Lane l of a vector register of the group. -/
def velOf (s : State) (k l : Nat) : VEl := (grp s).vel k l

/-- The data of a vector load arrives: bytes, extended as I8, with a poisoned sector; a non-faulting load; a register pair. -/
theorem witness_vector_load :
    let m := base.mem ++ [(region 16 + 0x100, 0x80), (region 16 + 0x101, 5)]
    let b := { withS [(2, 0x100)] with mem := m, poisoned := [(region 16 + 0x10C) / 16] }
    let ok (s : State) (n : Nat) : Bool := op0 s fun o => allPlaced o && s.opReady 0 o && o.lines.isEmpty && decide (o.per = 1) &&
      decide (o.nreg = n) && decide (o.lanes.map LaneAcc.lane = List.range 16) && o.lanes.all fun l => o.mask.getLsbD l.lane
    let end_ (s : State) : State := ran s (.loadDataArrival 0 (BitVec.allOnes 64) false)
    (let s := ran b (.vld (modTS 1 2) 0 (f3 8 2 0))
     let t := end_ s
     ok s 1 && decide (t.memops = []) && decide (t.mem = s.mem) && decide (velOf t 8 0 = ⟨0xFFFFFF80, true, true, false⟩) &&
       decide (velOf t 8 1 = ⟨5, true, true, false⟩)) = true ∧
    (let s := ran { b with poisoned := [] } (.vldnf (modTS 1 2) 0 (f3 8 2 0))
     let t := end_ s
     ok s 1 && op0 s (fun o => decide (o.kind = .nfload)) && decide (velOf t 8 2 = ⟨0, true, false, true⟩) &&
       decide (((grp t).pel 15).bits &&& 0xFFFF = 0xFFFF)) = true ∧
    (let s := ran { b with poisoned := [] } (.vld (modTS 8 2) 1 (f3 8 2 0))
     ok s 2 && decide (velOf (end_ s) 8 0 = ⟨0x580, true, false, false⟩) && decide (velOf (end_ s) 9 0 = ⟨0, true, false, true⟩)) = true := by
  decide +kernel

/-- A vector atomic on words apart, one of them poisoned: the old values arrive, the sums are stored, p14 tells which. -/
theorem witness_vector_atomic :
    let b := withG fun g => (List.range 16).foldl (fun g l =>
      ((g.writeV 2 l (BitVec.ofNat 32 (0x100 + 16 * l)) false).writeV 3 l 0 false).writeV 8 l 7 false) g
    let s := ran { b with mem := base.mem ++ [(region 16 + 0x100, 3)], poisoned := [(region 16 + 0x110) / 16] }
      (.atom (modTS 6 2) 0 (f3 8 2 0))
    let t := ran s (.loadDataArrival 0 (BitVec.allOnes 64) false)
    (op0 s fun o => allPlaced o && s.opReady 0 o && o.lines.isEmpty && decide (o.per = 1) && decide (o.nreg = 1) &&
      decide (o.type = 6) && decide (o.bytes = 4) && decide (o.writesP = some 14) && decide (o.lanes.length = 16)) = true ∧
    t.memops = [] ∧ t.readLE (region 16 + 0x100) 4 = 10 ∧ t.readLE (region 16 + 0x110) 4 = 0 ∧ t.readLE (region 16 + 0x120) 4 = 7 ∧
    velOf t 8 0 = ⟨3, true, false, false⟩ ∧ velOf t 8 1 = ⟨0, true, true, false⟩ ∧ ((grp t).pel 14).bits &&& 0xFFFF = 0xFFFD := by
  decide +kernel

/-- The words of a bitmap arrive: the rank of a position, the position of a rank, one past the bits set, their number. -/
theorem witness_bitmap_results :
    let m := base.mem ++ [(0x17000000, 0x0A), (0x17000004, 1)]
    let b := { withG (fun g => (((regs [(2, 0x17000000)] g).writeV 1 0 4 false).writeV 1 1 2 false).writeV 1 2 9 false) with mem := m }
    let sure (i : Instr) : State := ran (ran b i) (.mtuConfirmation 0)
    let end_ (s : State) : State := ran s (.loadDataArrival 0 (BitVec.allOnes 64) false)
    let rank := sure (.brank Pfx.none (f3 1 2 0))
    let sel := sure (.bsel Pfx.none (f3 1 2 0))
    let cnt := sure (.bcnt Pfx.none (f3 1 2 0))
    ([(rank, 0), (sel, 1), (cnt, 4)].all fun (e : State × Nat) => op0 e.1 fun o => allPlaced o && e.1.opReady 0 o && o.lines.isEmpty &&
      decide (o.aop = e.2) && decide (o.per = 4) && decide (o.type = 6) && decide (o.lanes.map LaneAcc.lane = List.range 32)) = true ∧
    ((velOf (end_ rank) 1 0).val = 2 ∧ (velOf (end_ rank) 1 1).val = 1) ∧
    ((velOf (end_ sel) 1 1).val = 32 ∧ (velOf (end_ sel) 1 2).val = 1024) ∧ (grp (end_ cnt)).sel 1 = ⟨3, true, false⟩ := by
  decide +kernel

/-- Draws arrive in each active lane, and a field of the generator in a pair of scalar registers. -/
theorem witness_generator_results :
    let s := ran (seqState 3 []) (.rngdraw Pfx.none (f3 8 2 0))
    let t := ran s (.loadDataArrival 0 (BitVec.allOnes 64) false)
    let u := ran (seqState 3 []) (.rngget Pfx.none (f3 8 2 1))
    let v := ran u (.loadDataArrival 0 (BitVec.allOnes 64) false)
    (op0 s fun o => decide (o.kind = .result) && s.opReady 0 o && allPlaced o && decide (o.dstKind = .v) && decide (o.type = 6) &&
      decide (o.nreg = 1) && decide (o.lanes.length = 16) && o.lanes.all fun l => decide (l.lane < 64)) = true ∧
    ((velOf t 8 0).full = true ∧ t.memops = [] ∧ (velOf s 8 0).full = false) ∧
    (op0 u fun o => decide (o.kind = .result) && u.opReady 0 o && allPlaced o && decide (o.dstKind = .s) && decide (o.nreg = 2) &&
      decide (o.lanes.length = 1)) = true ∧
    ((grp v).sel 8 = ⟨3, true, false⟩ ∧ (grp v).sel 9 = ⟨0, true, false⟩) := by decide +kernel

/-- EVSIG in a state that holds the group's own grid, which waits for nothing. -/
theorem witness_event_with_grid :
    let s := { evState [(2, 3)] with grids := base.grids }
    s.grids.length = 1 ∧ (s.grids.all fun (e : Nat × Grid) => decide (¬(e.2.next = e.2.teams ∧ e.2.endedTeams = e.2.teams)) &&
      (List.range 4).all fun j => decide (e.2.fld (7 + j) 16 1 = 0)) = true ∧
    goesOn s (.evsig (f3 0 2 0)) = true ∧ (ran s (.evsig (f3 0 2 0))).readLE 0x14000018 4 = 1 := by decide +kernel

/-- REGGROW where the block has room above it, where it is moved, and where it waits. -/
theorem witness_growth :
    let g (n k b : Nat) : Group := { placedGroup with slot := k, blockN := n, base := b, width := 64, quiesce := false }
    let room := { base with groups := [(0, g 3 0 0), (gkey 0 1, g 2 1 96)] }
    let moved := { base with groups := [(0, g 3 0 0), (gkey 0 1, g 2 1 48)] }
    let full := { base with groups := [(0, g 3 0 0), (gkey 0 1, g 4 1 64), (gkey 0 2, g 4 2 128), (gkey 0 3, g 4 3 192), (gkey 0 4, g 3 4 32)] }
    (grp room).granules = 32 ∧ (room.groups.map fun (e : Nat × Group) => e.2.granules) = [32, 16] ∧
    room.growPlace (grp room) = some ([], 0) ∧ (moved.growPlace (grp moved)).isSome = true ∧ full.growPlace (grp full) = none ∧
    (meets room .reggrow [] && goesOn room .reggrow && meets moved .reggrow [] && goesOn moved .reggrow &&
      meets full .reggrow [] && waitsIn full .reggrow) = true := by decide +kernel

/-- SEQEMIT's tests end in each way; a set of stops is searched; the end is of a limit and of a stop. -/
theorem witness_emission :
    let s := seqState 3 []
    let emits (x : Unit_ (State × Option Emission)) : Option Bool := match x with | .ok (_, e) => some e.isSome | .error _ => none
    let code (x : Unit_ (State × Nat)) : Option Nat := match x with | .ok (_, n) => some n | .error _ => none
    (emits (s.emitTests 1 9) = some true ∧ emits (s.emitTests 1 1000) = some false ∧ emits ((seqState 8 []).emitTests 1 9) = some false ∧
      emits ((s.write64 0x16000128 0x80800000).emitTests 1 9) = some false ∧
      emits ((s.write64 0x16000128 (0x80800000 * 2 ^ 32)).emitTests 1 9) = some false) ∧
    (match (s.write64 0x17000000 9).isStop 0x17000000 9 1 with | .ok (_, b) => b | .error _ => false) = true ∧
    (code (s.emitEnd 1 9 false) = some 0 ∧ code (s.emitEnd 1 9 true) = some 1 ∧
      code ((s.write64 0x16000118 (100 + 1 * 2 ^ 32)).emitEnd 1 9 false) = some 2) ∧
    (match s.slotError 1 7 with | .ok t => t.readLE 0x16000100 8 | .error _ => 0) = 8 + 7 * 2 ^ 16 := by decide +kernel

/-- A grammar mask of node 0 that is there, one of a node that is not, and the mask where no table is. -/
theorem witness_grammar :
    let s := ((seqState 3 []).write64 0x16000148 0x17000000).write64 0x17000000 1
    let t := s.write64 0x17000040 0xA5
    let mask (x : Unit_ (State × Option Nat)) : Option (Option Nat) := match x with | .ok (_, m) => some m | .error _ => none
    mask (t.grammarMask 1 0 false 0 16) = some (some 0xA5) ∧ mask (t.grammarMask 1 0 true 0 16) = some none ∧
    mask (t.grammarMask 1 5 false 0 16) = some none ∧ mask ((seqState 3 []).grammarMask 1 0 false 0 16) = some (some 0xFFFF) ∧
    mask (t.grammarMask 1 0 false 999 16) = some (some 0) := by decide +kernel

/-- The page-store unit's actions on the block table of two pages: truncation, sharing, copying, pinning both ways and a range
past the end. -/
theorem witness_page_actions :
    let s := kvState id 2
    let shared := s.write64 0x12000000 0x20005
    let op (k : Nat) (b : BitVec 64) : PsOp :=
      { kind := k, core := 0, slot := 0, asid := 0, word := 0, pc := 0, dst := 1, a := [0x13001000, 0x13002000, b], copy := none, done := false, b := 0
        seq := 0 }
    let res (x : Unit_ (State × Option Nat)) : Option Nat := match x with | .ok (_, n) => n | .error _ => none
    let cause (x : Unit_ (State × Option Nat)) : BitVec 8 := match x with | .ok _ => 0 | .error f => f.cause
    let two := [(0x13002008, (4 : BitVec 64)), (0x13002010, 0x13000000)].foldl (fun s (e : Nat × BitVec 64) => s.write64 e.1 e.2) s
    (match s.readTable 0 0x13001000 with | .ok (_, b) => decide (b.ntp = 2 ∧ b.length = 2 ∧ b.fmt.lg = 1) | .error _ => false) = true ∧
    (res (s.kvPerform (op 1 1)) = some 1 ∧ cause (s.kvPerform (op 1 3)) = 0x37) ∧
    (res (two.kvPerform (op 2 2)) = some 2 ∧ cause (two.kvPerform (op 2 3)) = 0x37) ∧
    (res (s.kvPerform (op 4 (2 * 2 ^ 32))) = some 0 ∧ res (shared.kvPerform (op 4 (1 * 2 ^ 32))) = some 1) ∧
    (res (s.kvPerform (op 5 (2 * 2 ^ 32))) = some 2 ∧ cause (s.kvPerform (op 6 (2 * 2 ^ 32))) = 0x34) ∧
    cause (s.kvPerform (op 5 (3 * 2 ^ 32))) = 0x37 := by decide +kernel

/-- A page is taken and one is released, its last reference and one of two. -/
theorem witness_pages :
    let s := kvState id 2
    let shared := s.write64 0x12000000 0x20005
    (match s.readTable 0 0x13001000 with
      | .ok (v, b) => (match v.takePage b with | .ok (w, j, d) => decide (j = 2 ∧ d.frame = 0x4003 ∧ w.mem = v.mem) | .error _ => false)
      | .error _ => false) = true ∧
    (match s.releasePd 0 with | .ok u => decide (fld (u.reg 0x5018) 0 27 = 0 ∧ fld (u.reg 0x5028) 0 27 = 3) | .error _ => false) = true ∧
    (match shared.releasePd 0 with | .ok u => decide ((u.pd 0).ref = 1) | .error _ => false) = true := by decide +kernel

/-- The machine of `kvState` with Carillon on for context 0, its slots at 0x1600_0000, of which slot 1 has a state, the block
table of two pages, a prompt of 4 tokens and room for 100, and its rings; word w of it as given. -/
def carState (st : Nat) (ws : List (Nat × BitVec 64)) : State :=
  let rs : List (Nat × BitVec 64) := [(0x4000, 1 + 2 * 2 ^ 27), (0x4008, 0x16000000), (0x4010, 0x16300000), (0x4030, 0x16100000),
    (0x4038, 4 + 1 * 2 ^ 5), (0x4040, 0x16200000), (0x5040, 1)]
  let slot : List (Nat × BitVec 64) := [(0, BitVec.ofNat 64 (st + 2 * 2 ^ 32)), (1, 0x13001000), (2, 4), (3, 100 + 100 * 2 ^ 32), (6, 1000 * 2 ^ 32), (16, 3)]
  let s := rs.foldl (fun s e => s.setReg e.1 e.2) (kvState id 2)
  (slot ++ ws).foldl (fun s (e : Nat × BitVec 64) => s.write64 (0x16000100 + 8 * e.1) e.2) s

/-- The state that a part of a boundary leaves, or s where it meets a fate. -/
def did (s : State) (x : Unit_ State) : State := match x with | .ok t => t | .error _ => s

/-- A slot that is done retires with its record, its table emptied; one parks; one wakes; one is brought up to date in each way. -/
theorem witness_slots_at_boundary :
    let st (x : Unit_ State) : Nat := match x with | .ok t => (t.readLE 0x16000100 2) | .error _ => 0xFFFF
    (let s := carState 7 []
     let t := did s (s.retireSlot 1)
     st (s.retireSlot 1) = 0 ∧ t.readLE 0x13001000 8 = 0 ∧ fld (t.reg 0x4048) 21 16 = 1 ∧ fld (t.reg 0x5028) 0 27 = 4) ∧
    (st ((carState 3 []).parkSlot 1 1) = 0x36 ∧ st ((carState 2 []).parkSlot 1 0) = 0x25 ∧ st ((carState 0x36 []).wakeSlot 1) = 0x33) ∧
    (st ((carState 2 [(2, 4 + 4 * 2 ^ 32)]).refreshSlot 1) = 3 ∧ st ((carState 2 []).refreshSlot 1) = 2 ∧ st ((carState 4 []).refreshSlot 1) = 3 ∧
      st ((carState 3 [(5, 0x7F800001)]).refreshSlot 1) = 8 ∧ st ((carState 3 [(1, 0x80000000)]).refreshSlot 1) = 8 ∧
      st ((carState 8 []).refreshSlot 1) = 8) ∧
    (did (carState 3 [(1, 0x80000000)]) ((carState 3 [(1, 0x80000000)]).refreshSlot 1)).readLE 0x16000102 2 = 0x0B := by
  decide +kernel

/-- The first four steps of a boundary go through, with a park for memory requested, which enough free frames end. -/
theorem witness_first_steps :
    let s := carState 3 []
    let r := { s with carillon := { s.carillon with reqs := [(1, 1)] } }
    ([1, 2, 3, 4].all fun k => (s.boundaryStep k).2.isNone) = true ∧ (r.boundaryStep 2).2.isNone = true ∧
    (r.boundaryStep 2).1.readLE 0x16000100 1 = 0x33 ∧ (r.boundaryStep 2).1.carillon.reqs = [] := by decide +kernel

/-- A request is admitted to the lowest free slot, with its image good and with a bad one; an empty ring admits nothing. -/
theorem witness_admission :
    let img : List (Nat × BitVec 64) := [(1, 0x13001000), (2, 4), (3, 100 + 100 * 2 ^ 32), (6, 1000 * 2 ^ 32), (16, 3)]
    let s := (img.foldl (fun s (e : Nat × BitVec 64) => s.write64 (0x16400000 + 8 * e.1) e.2) (carState 3 [])).write64 0x16100000 0x16400000
    let s := s.write64 0x16100008 77
    let ok := s.boundaryStep 5
    let bad := (s.write64 0x16400010 1).boundaryStep 5
    (ok.2.isNone && decide (ok.1.readLE 0x16000000 2 = 1) && decide (ok.1.readLE 0x16000068 8 = 77) && decide (ok.1.carillon.admitted = [0])) = true ∧
    fld (ok.1.reg 0x4038) 21 16 = 1 ∧ (bad.1.readLE 0x16000000 1, bad.1.readLE 0x16000002 2) = (8, 2) ∧
    ((s.setReg 0x4038 4).boundaryStep 5).1.readLE 0x16000000 2 = 0 := by decide +kernel

/-- A frame is formed of a slot in decode and of one in prefill, published and handed over. -/
theorem witness_frame_formed :
    let s := [(0, (2 : BitVec 64)), (1, 0x13001000), (2, 40), (3, 100 + 100 * 2 ^ 32), (6, 1000 * 2 ^ 32), (16, 3)].foldl
      (fun s (e : Nat × BitVec 64) => s.write64 (0x16000000 + 8 * e.1) e.2) (carState 3 [])
    let s := { s.setReg 0x4000 (3 + 2 * 2 ^ 27) with carillon := { s.carillon with running := true, trigger := true, frame := 6 } }
    let t := (s.boundaryStep 6).1
    (match s.liveSlots s.slots with
      | .ok (_, live) => ((s.formFrame live).1.map fun x => (x.slot, x.kind, x.ntok, x.last, x.pos)) | .error _ => []) =
      [(1, 1, 1, false, 2), (0, 0, 40, true, 0)] ∧
    (s.boundaryStep 6).2.isNone = true ∧ (t.readLE 0x16300000 8, t.readLE 0x16300008 4) = (6, 2 + 41 * 2 ^ 16) ∧ t.carillon.inFrame = true ∧
    t.carillon.prefill = [(0, 40)] := by decide +kernel

/-- A replayed request that names its ticket frees it, but of an atomic. -/
theorem witness_replayed_at_owner :
    let s := { exported 1 with owned := [(9, ⟨0, 2, 0, 0, 0x800000, 0, 3, 0, false, false, none, 1000⟩)] }
    let at_ (typ : Nat) : State := ran s (.ownerRequest { ask typ with replay := true, ticket := 9 })
    ((at_ 1).out.map Flit.status = [0] ∧ (at_ 1).owned = []) ∧ ((at_ 2).owned = [] ∧ (at_ 2).readLE 0x20000000 8 = 9) ∧
    ((at_ 3).out.map Flit.status = [0] ∧ (at_ 3).owned.map (fun (e : Nat × OwnedTicket) => e.2.arrived) = [true]) := by decide +kernel

/-- Writes through the window of a context that is free, of one with a team, and of one that a fence of holds. -/
theorem witness_context_window :
    let w (off : BitVec 20) (v : BitVec 64) : Instr := .registerWrite ⟨false, off, 0, v⟩
    let s := ran base (w 0xA000 5)
    let err (t : State) : Nat := fld (t.reg 0) 0 1
    let fence : Save := { asid := 5, op := 0, stage := 2, need := 0, error := some 3, area := 0, todo := [], length := 0, lost := false, clusters := [], since := 0 }
    let f := { s with saves := [fence] }
    (s.ctxBusy 5 = false ∧ base.ctxBusy 0 = true ∧ f.ctxBusy 5 = true) ∧
    ((ran s (w 0xA008 1)).ctx 5).cfg = 1 ∧ ((ran s (w 0xA010 0x14000000)).ctx 5).evt = 0x14000000 ∧
    (err (ran s (w 0xA018 65536)) = 0 ∧ err (ran s (w 0xA018 65537)) = 1 ∧ err (ran s (w 0xA018 0)) = 1) ∧
    (err (ran s (w 0xA020 (32 + 32 * 2 ^ 8))) = 0 ∧ err (ran s (w 0xA020 (32 + 33 * 2 ^ 8))) = 1) ∧
    (err (ran s (w 0xA030 0x1000020)) = 0 ∧ err (ran s (w 0xA030 0x18)) = 1 ∧ ((ran f (w 0xA030 0x320)).ctx 5).usedWait = some 3) ∧
    (err (ran s (w 0xA038 (10 * 2 ^ 8 + 7 * 2 ^ 13))) = 0 ∧ err (ran s (w 0xA038 (9 * 2 ^ 8 + 7 * 2 ^ 13))) = 1) ∧
    (err (ran base (w 0xA010 0)) = 1 ∧ ((ran base (w 0xA048 9)).ctx 0).trcHead = 9 ∧ err (ran base (w 0xA050 9)) = 1) ∧
    (base.hostRead 0x7014 true = some ((base.readReg 0x7010 >>> 32) &&& 0xFFFFFFFF) ∧ base.sidebandRead 0x18 = base.hostRead 0x18 false ∧
      base.sidebandRead 0x20 = none ∧ ({ base with frozen := true } : State).hostRead 0x3000 false = none) := by decide +kernel

/-- The machine with a save area of one record, of the grid that waits; `flags` of the record as given. -/
def areaState (flags : BitVec 64) : State :=
  let s := (readyGrid.setReg 0x3048 0x1C000000).setReg 0x4000 (7 * 2 ^ 11)
  [(0x1C000000, (1 * 2 ^ 16 : BitVec 64)), (0x1C000100, placedGrid.gridId), (0x1C000110, flags), (0x1C000118, 0x1000)].foldl
    (fun s (e : Nat × BitVec 64) => s.write64 e.1 e.2) s

/-- A restore of an area with one record: its team is placed, afresh where it was flushed; or stays while no core takes it. -/
theorem witness_restore :
    let s := areaState 2
    let st (t : State) : Nat := fld (t.reg 0x3050) 0 3
    let shut : State := { s with cores := (List.range 640).map fun c => (c, { Core.zero with fenced := true }) }
    (decide (s.recordGrid 0 0x1C000100 = some (3, { placedGrid with next := 0 })) && !placedGrid.pinned && decide (s.carAsid ≠ 0)) = true ∧
    (let t := ran s (.preRestore 0)
     st t = 4 ∧ t.teams.map (fun (e : Nat × Team) => (e.2.core, decide (e.2.ramp = .waiting))) = [(0, true)] ∧ (t.group 0 0).map (fun h => h.pc) = some 0x20000000) ∧
    (st (ran shut (.preRestore 0)) = 3 ∧ (ran shut (.preRestore 0)).saves.length = 1) := by decide +kernel

/-- A group's image at a place: its PC and s3 come back, a block of 32 registers; the one lane with a set ZF reads zero. -/
theorem witness_image :
    let k := 0x1C001000
    let s := [(k, (0x20000040 : BitVec 64)), (k + 8 * 19, 77), (k + 8 * 144, 8), (k + 0x600, 5), (k + 0x600 + 4 * 16 * 32, 1)].foldl
      (fun s (e : Nat × BitVec 64) => s.write64 e.1 e.2) base
    let r := s.readGroup k placedGroup none
    placedGroup.width ≤ 64 ∧ r.pc = 0x20000040 ∧ r.sel 3 = ⟨77, true, false⟩ ∧ r.sel 4 = ⟨0, false, false⟩ ∧ r.blockSize = 32 ∧
    r.vblk 0 0 = ⟨5, true, false, false⟩ ∧ r.vblk 0 1 = ⟨0, false, false, false⟩ := by decide +kernel

/-- Errors of a vector element, a predicate, a slice, the standby, Damper's unit and of a core that is fenced. -/
theorem witness_more_errors :
    let e (c : BitVec 6) : HwError := { cls := c, sector := 0x100, unit := 643, core := 0, slot := 0, regClass := 0, reg := 5, elem := 3, lost := false, dirty := [0x100] }
    let run (s : State) (x : HwError) : State := ran s (.uncorrectableError x)
    let fenced := { base with cores := [(0, { base.core 0 with fenced := true })] }
    (((run base (e 1)).group 0 0).map (fun h => ((h.vblk 5 3).pois, (h.vblk 5 2).pois)) = some (true, false)) ∧
    (run base { e 1 with regClass := 2 }).groups = base.groups ∧
    ((run base (e 3)).isPoisoned 0x1000 16 = true ∧ (run base { e 3 with dirty := [2 ^ 62 + 1] }).poisoned = base.poisoned) ∧
    (run base { e 4 with slot := 1 }).carillon.failedStandby = true ∧ (run base { e 4 with unit := 644 }).damper.failed = true ∧
    (run fenced (e 2)).saves = [] := by decide +kernel

/-- An element of a vector source traps where its bit is 1, whatever else waits; an empty destination waits. -/
theorem witness_vector_gates :
    let i (wa wb : Bool) := Instr.vadd Pfx.none ⟨1, 2, 3, wa, wb⟩
    let no (k l : Nat) (g : Group) : Group := g.putV k l ⟨0, false, false, false⟩
    (stopsFor (withG (no 3 4)) (i false true) 0x41 && waitsIn (withG (no 3 4)) (i true false) && waitsIn (withG (no 1 4)) (i true true) &&
      stopsFor (withG fun g => no 3 4 (no 2 5 g)) (i false true) 0x41 &&
      decide ((after (withG (no 3 4)) (i false true)).bind (fun h => h.stop.map Stop.mask) = some 16)) = true := by decide +kernel

end Sys2Proof.Tests
end

section
/-!
PROOF. What one scalar operand contributes to the gate, how a body that waits settles, and how the decoder judges a
lone prefix; and on them O5 and O7, loading immediates (R317) and LOOP (R308).
-/
namespace Sys2Proof.Machine

/-! ### One scalar operand -/

@[simp] theorem Group.spois_one (g : Group) (k : Nat) : g.spois k 1 = (g.sel k).pois := by
  simp [Group.spois]

@[simp] theorem Opd.isFull_s_one (g : Group) (k : Nat) : (Opd.s k 1).isFull g = (g.sel k).full := by
  simp [Opd.isFull]

/-- Without a MOD prefix the guard is p0, which is always full (R186). -/
theorem ready_none_iff (g : Group) (os : List Opd) : Ready g Pfx.none os ↔ ∀ o ∈ os, o.isFull g = true :=
  and_iff_right (by rw [show Pfx.none.m.pred = 0 from rfl]; simp)

/-! ### Waiting at the gate -/

/-- A source whose bit is 0 does not trap (R193). -/
theorem firstTrap_none_of_bits (g : Group) (act : BitVec 64) (os : List (Opd × Bool)) (h : ∀ o ∈ os, o.2 = false) :
    firstTrap g act os = none := by
  induction os with
  | nil => rfl
  | cons o os ih =>
    obtain ⟨ho, hos⟩ := List.forall_mem_cons.mp h
    simp [firstTrap, ho, ih hos]

/-- Where no source traps, one source that is not full makes the gate wait (R193). -/
theorem gate_waits {g : Group} {x : Pfx} {lane : Bool} {srcs : List (Opd × Bool)} {dsts : List Opd} {o : Opd × Bool}
    (hb : ∀ p ∈ srcs, p.2 = false) (ho : o ∈ srcs) (he : o.1.isFull g = false) :
    gate g x lane srcs dsts = .error .waitEmpty := by
  have hs : (srcs.all fun p => p.1.isFull g) = false := List.all_eq_false.mpr ⟨o, ho, by simp [he]⟩
  simp [gate, firstTrap_none_of_bits _ _ _ hb, hs]

/-- An instruction whose own part waits on an empty element leaves its group waiting. -/
theorem issueG_waits {i : Instr} {c : Code} {s : State} {g : Group} {body : Group → Run Group} (hi : Issues i c s g)
    (hb : body g = .error .waitEmpty) : ∃ t, issueG i body s = .next t ∧ Waits s t g :=
  ⟨s.settle g c.word .waitEmpty, issueWith_halt hi rfl (by simp [hb, Except.map]), s.waitGroup_waits g _ true⟩

/-! ### Prefixes and main words that a major refuses -/

/-- A major that takes no REP refuses it as the first prefix (R291). -/
theorem breach_of_rep {c : Code} (hr : c.pfx.rep.isSome = true) (ha : acceptsRep c.major.toNat = false) :
    c.breach = some 1 := by
  simp [Code.breach, hr, ha]

/-- A MOD without a REP before it is the first prefix, where a major that takes none refuses it (R291). -/
theorem breach_of_mod {c : Code} (hr : c.pfx.rep = none) (hm : c.pfx.mod.isSome = true)
    (ha : acceptsMod c.major.toNat = false) : c.breach = some 1 := by
  simp [Code.breach, hr, hm, ha]

/-- An EXT on its own is the first prefix, where a major that takes none refuses it (R291). -/
theorem breach_of_ext {c : Code} (hr : c.pfx.rep = none) (hm : c.pfx.mod = none) (he : c.pfx.ext.isSome = true)
    (ha : acceptsExt c.major.toNat = false) : c.breach = some 1 := by
  simp [Code.breach, hr, hm, he, ha]

/-- Without a prefix, a main word that breaks a limit of its entry is the word that is refused (R291). -/
theorem breach_of_mainOk {c : Code} (hx : c.pfx = Pfx.none) (hm : c.mainOk = false) : c.breach = some 0 := by
  simp [Code.breach, hx, hm, Pfx.none]

/-- The decoder refuses a main word for the breach of its code. -/
theorem decodeMain_illegal {x : Pfx} {w : Word} {i : Instr} {d : Nat} (n : Nat) (hi : Instr.ofMain x w = some i)
    (hb : (Code.ofWord x w).breach = some d) : decodeMain x n w = .illegal d := by
  simp [decodeMain, hi, hb]

/-- A word that is no prefix is decoded as a main word (R280). -/
theorem decode_main {w : Word} (ws : List Word) (hw : w.extractLsb' 26 6 ≠ 0x3C#6) :
    decode (w :: ws) = decodeMain Pfx.none 0 w := by
  simp [decode, decodeFrom, hw]

/-- A lone prefix is refused itself, or the main word is decoded after just a MOD, a REP or an EXT (R280, R287). -/
theorem decode_lonePrefix {v w : Word} (ws : List Word) (hv : v.extractLsb' 26 6 = 0x3C#6)
    (hw : w.extractLsb' 26 6 ≠ 0x3C#6) :
    decode (v :: w :: ws) = .illegal 1 ∨
    (∃ m, decode (v :: w :: ws) = decodeMain ⟨none, some m, none⟩ 1 w) ∨
    (∃ q, decode (v :: w :: ws) = decodeMain ⟨some q, none, none⟩ 1 w) ∨
    (∃ e, decode (v :: w :: ws) = decodeMain ⟨none, none, some e⟩ 1 w) := by
  simp only [decode, decodeFrom, if_pos hv, if_neg hw]
  split
  case h_1 => exact .inr (.inl ⟨Mod.ofPayload v, rfl⟩)
  case h_2 =>
    split
    · exact .inl rfl
    · exact .inr (.inr (.inl ⟨Rep.ofPayload v, rfl⟩))
  case h_3 => exact .inr (.inr (.inr ⟨v.extractLsb' 0 24, rfl⟩))
  case h_4 => exact .inl rfl

/-! ### Loading immediates (R317) -/

theorem exec_sli (e : Option (BitVec 24)) (r : LI) (s : State) : exec (.sli e r) s = execSli e r s := rfl

theorem exec_slih (r : LI) (s : State) : exec (.slih r) s = execSlih r s := rfl

/-- SLI writes its immediate, unpoisoned, once S(d) is full. -/
theorem sli_completes {e : Option (BitVec 24)} {r : LI} {s : State} {g : Group} {c : Code}
    (hi : Issues (.sli e r) c s g) (h : Ready g Pfx.none [.s r.d.toNat 1]) :
    Completes (.sli e r) s s g (g.writeS r.d.toNat (immSigned e r.imm) false) c none := by
  have k := gate_ok (lane := false) (srcs := []) (dsts := [.s r.d.toNat 1]) h
  unfold Completes
  rw [exec_sli]
  exact issueG_ok hi (by rw [k]; rfl) (by simp) (by simp)

/-- SLIH shifts S(d) left by 19 over its immediate, with the poison of S(d), once S(d) is full. -/
theorem slih_completes {r : LI} {s : State} {g : Group} {c : Code} (hi : Issues (.slih r) c s g)
    (h : Ready g Pfx.none [.s r.d.toNat 1]) :
    Completes (.slih r) s s g
      (g.writeS r.d.toNat ((g.sv r.d.toNat <<< 19) ||| r.imm.zeroExtend 64) (g.sel r.d.toNat).pois) c none := by
  have k := gate_ok (lane := false) (srcs := [(.s r.d.toNat 1, false)]) (dsts := [.s r.d.toNat 1])
    ((ready_none_iff g _).mpr (by simpa [ready_none_iff] using h))
  unfold Completes
  rw [exec_slih, ← Group.spois_one]
  exact issueG_ok hi (by simp only [k]; rfl) (by simp) (by simp)

/-- SLIH waits while S(d) is empty. -/
theorem slih_waits {r : LI} {s : State} {g : Group} {c : Code} (hi : Issues (.slih r) c s g)
    (he : (g.sel r.d.toNat).full = false) : ∃ t, exec (.slih r) s = .next t ∧ Waits s t g := by
  have k := gate_waits (x := Pfx.none) (lane := false) (srcs := [(.s r.d.toNat 1, false)]) (dsts := [.s r.d.toNat 1])
    (by simp) (List.mem_singleton_self _) ((Opd.isFull_s_one g _).trans he)
  rw [exec_slih]
  exact issueG_waits hi (by simp only [k]; rfl)

/-- A main word of major 0x08 is SLIH's (R292). -/
theorem ofMain_slih (x : Pfx) {w : Word} (hw : w.extractLsb' 26 6 = 8#6) :
    Instr.ofMain x w = some (.slih (.ofWord w)) := by
  simp [Instr.ofMain, hw]

/-- SLIH takes no prefix (R292): one before it is refused. -/
theorem decode_slih_prefixed {v w : Word} (ws : List Word) (hv : v.extractLsb' 26 6 = 0x3C#6)
    (hw : w.extractLsb' 26 6 = 8#6) : decode (v :: w :: ws) = .illegal 1 := by
  have major (x : Pfx) : (Code.ofWord x w).major.toNat = 8 := by simp [Code.ofWord, hw]
  obtain h | ⟨m, h⟩ | ⟨q, h⟩ | ⟨e, h⟩ := decode_lonePrefix ws hv (by rw [hw]; decide)
  · exact h
  all_goals rw [h]; refine decodeMain_illegal 1 (ofMain_slih _ hw) ?_
  · exact breach_of_mod rfl rfl (by rw [major]; rfl)
  · exact breach_of_rep rfl (by rw [major]; rfl)
  · exact breach_of_ext rfl rfl rfl (by rw [major]; rfl)

/-- A 26-bit field is not negative in 43 bits, so extending it by its sign adds zeros. -/
theorem signExtend_zeroExtend_26 (x : BitVec 26) : (x.zeroExtend 43).signExtend 64 = x.zeroExtend 64 := by
  have msb : (x.zeroExtend 43).msb = false := by simp [BitVec.msb_setWidth]
  rw [BitVec.signExtend_eq_setWidth_of_msb_false msb]
  exact BitVec.eq_of_toNat_eq (by simp)

/-- SLI with EXT of the top 26 bits of a value and two SLIH of 19 bits each build the value: each bit comes from one of
the three fields. -/
theorem threeLoads_eq (v : BitVec 64) :
    (((((v.extractLsb' 38 26).zeroExtend 43).signExtend 64 <<< 19 ||| (v.extractLsb' 19 19).zeroExtend 64) <<< 19) |||
      (v.extractLsb' 0 19).zeroExtend 64) = v := by
  rw [signExtend_zeroExtend_26]
  refine BitVec.eq_of_getLsbD_eq fun i hi => ?_
  obtain h | h | h : i < 19 ∨ (19 ≤ i ∧ i < 38) ∨ 38 ≤ i := by omega
  · simp [h, hi]
  · have low : ¬ i < 19 := by omega
    have mid : i - 19 < 19 := by omega
    simp [hi, low, mid, show 19 + (i - 19) = i by omega]
  · have low : ¬ i < 19 := by omega
    have mid : ¬ i - 19 < 19 := by omega
    have top : i - 19 - 19 < 26 := by omega
    simp [hi, low, mid, top, show 38 + (i - 19 - 19) = i by omega]

/-- Settles O5: the gate on S(d) alone, the decoder's verdict on a lone prefix, and the three fields side by side. -/
theorem loadImmediate : Obligations.LoadImmediate := by
  unfold Obligations.LoadImmediate
  refine ⟨fun e r s g c hi h => ?_, fun r s g c hi h => slih_completes hi h, fun r s g c hi he => slih_waits hi he,
    fun v w ws hv hw => decode_slih_prefixed ws hv hw, threeLoads_eq⟩
  have k := sli_completes hi h
  cases e <;> exact k

/-! ### LOOP (R308) -/

theorem exec_loop (e : Option (BitVec 24)) (r : BR) (s : State) : exec (.loop e r) s = execLoop e r s := rfl

/-- A target is PC plus four times the offset (R280). -/
theorem branchTo_immSigned {n : Nat} (pc : BitVec 64) (e : Option (BitVec 24)) (f : BitVec n) :
    branchTo pc (immSigned e f) = pc + Claims.offset e f := by
  have shift (x : BitVec 64) : x <<< 2 = 4 * x := by
    rw [BitVec.shiftLeft_eq_mul_twoPow, BitVec.mul_comm]; rfl
  rw [branchTo, shift]
  cases e <;> rfl

/-- Nothing holds back an instruction that reads one full scalar and writes no other. -/
theorem gate_scalar_ok {g : Group} {k : Nat} (hf : (g.sel k).full = true) :
    gate g Pfx.none false [(.s k 1, false)] [] = .ok () :=
  gate_ok ((ready_none_iff g _).mpr (by simpa using hf))

/-- LOOP leaves for its target when its count is zero. -/
theorem loop_leaves {e : Option (BitVec 24)} {r : BR} {s : State} {g : Group} {c : Code}
    (hi : Issues (.loop e r) c s g) (hf : (g.sel r.a.toNat).full = true) (hp : (g.sel r.a.toNat).pois = false)
    (hz : g.sv r.a.toNat = 0) :
    Completes (.loop e r) s s g g c (some (g.pc + Claims.offset e r.off)) := by
  have k := gate_scalar_ok hf
  unfold Completes
  rw [exec_loop, ← branchTo_immSigned]
  exact issueJ_ok hi (by simp only [k, Group.spois_one, hp, hz, if_pos]; rfl) rfl rfl

/-- LOOP counts down and goes on after its main word when its count is not zero. -/
theorem loop_countsDown {e : Option (BitVec 24)} {r : BR} {s : State} {g : Group} {c : Code}
    (hi : Issues (.loop e r) c s g) (hf : (g.sel r.a.toNat).full = true) (hp : (g.sel r.a.toNat).pois = false)
    (hz : g.sv r.a.toNat ≠ 0) :
    Completes (.loop e r) s s g (g.writeS r.a.toNat (g.sv r.a.toNat - 1) false) c none := by
  have k := gate_scalar_ok hf
  unfold Completes
  rw [exec_loop]
  exact issueJ_ok hi (by simp only [k, Group.spois_one, hp, if_neg hz]; rfl) (by simp) (by simp)

/-- A main word of major 0x06 is LOOP's (R292). -/
theorem ofMain_loop (x : Pfx) {w : Word} (hw : w.extractLsb' 26 6 = 6#6) :
    Instr.ofMain x w = some (.loop x.ext (.ofWord w)) := by
  simp [Instr.ofMain, hw]

/-- The limit of LOOP's main word is that its cc is zero (R308). -/
theorem mainOk_loop (x : Pfx) {w : Word} (hw : w.extractLsb' 26 6 = 6#6) :
    (Code.ofWord x w).mainOk = decide (w.extractLsb' 16 3 = 0#3) := by
  simp [Code.mainOk, Code.ofWord, Body.ofWord, mainLimits, BR.ofWord, hw]

/-- A LOOP whose cc is not zero is refused at its main word. -/
theorem decode_loop_cc {w : Word} (ws : List Word) (hw : w.extractLsb' 26 6 = 6#6) (hc : w.extractLsb' 16 3 ≠ 0#3) :
    decode (w :: ws) = .illegal 0 := by
  rw [decode_main ws (by rw [hw]; decide)]
  exact decodeMain_illegal 0 (ofMain_loop _ hw) (breach_of_mainOk rfl ((mainOk_loop _ hw).trans (decide_eq_false hc)))

/-- Settles O7: the limit on cc at decoding, and the two ways on from a count that is full and not poisoned. -/
theorem loopCounts : Obligations.LoopCounts := by
  unfold Obligations.LoopCounts
  exact ⟨fun w ws hw hc => decode_loop_cc ws hw hc, fun e r s g c hi hf hp =>
    ⟨loop_leaves hi hf hp, loop_countsDown hi hf hp⟩⟩

end Sys2Proof.Machine
end
